-- ==== Sys2Proof/Word.lean ====
section
/-! DEFINITION. The word types of the block and their plainest arithmetic (R6: bit 0 is the least
significant bit; values of more than one byte are little-endian). -/

namespace Sys2Proof

/-- A register of the window, a core register, a 32-bit field of a record. -/
abbrev Word := BitVec 32

/-- One byte of host memory, scene memory, local store or of a record. -/
abbrev Byte := BitVec 8

/-- A mask with one bit for each of the 64 threads of a group (R217, R220). -/
abbrev Mask := BitVec 64

/-- Districts 0 to 127 (R10). -/
abbrev Dist := Fin 128

/-- Submission queues 0 to 63 (R37). -/
abbrev Que := Fin 64

/-- Stack ports 0 to 5 (R17). -/
abbrev Port := Fin 6

end Sys2Proof
end

