-- ==== Sys2Proof/Config.lean ====
section
/-! DEFINITION. What an implementation fixes and the spec does not publish, and the free values: constants without a
body, so that nothing can be proved of their values (assumption log 3). -/

namespace Sys2Proof.Config

/-- What register `reg` of thread `t` holds at the launch of the group numbered `seed`, where R230 calls it
undefined (v32 and above; u16 and above with `t` = 64). -/
opaque undefReg : (seed t reg : Nat) → Word

/-- What byte `off` of the local store of the group numbered `seed` holds before anything is written to it, which the spec does
not state. -/
opaque undefLocal : (seed off : Nat) → Byte

/-- How `RECV` packs the sending district and the word count into one register, whose layout R260 does not state. -/
opaque recvInfo : (district words : Nat) → Word

/-- What the scene code answers for a pattern of three or more wrong bits that is not one nibble (R346): 0 passes
as it is, 1 corrected (to wrong data), 2 uncorrectable, 3 nibble. -/
opaque codeOutcome : BitVec 72 → BitVec 2

/-- The word the scene code "corrects" such a pattern to, as an error pattern on the data (R346). -/
opaque codeMiscorrection : BitVec 72 → BitVec 64

/-- The unpublished fixed functions of R286, asked for an FP32 code; held within the spec's bounds where they are
used. -/
opaque frcp : Word → Word
opaque frsq : Word → Word
opaque fexp2 : Word → Word
opaque flog2 : Word → Word

/-- A byte or word that the spec leaves undefined, drawn freshly at each use: `ctr` is the state's count of draws,
`i` the place within the draw. -/
opaque freeWord : (ctr i : Nat) → Word
opaque freeByte : (ctr i : Nat) → Byte

end Sys2Proof.Config
end

