-- ==== Sys2Proof/Syntax.lean ====
section
/-! DEFINITION. The commands of the block: one constructor of `Instr` for each row of the spec's table of
operations and events, with the operands each step takes from outside (spec/95_what_each_step_holds.md).
A row of the core's instruction set carries the group that executes it and the fields of its instruction
word (R235) other than CLASS and OP, which the constructor stands for. -/

namespace Sys2Proof

/-- A batch: its queue, its sequence number, and whether it is one of the twin's side that this engine holds
(R429, R432) rather than one that this engine accepted. -/
structure Bid where
  que  : Que
  seq  : Word
  held : Bool
  deriving DecidableEq, Repr

/-- Whose page table a walk uses (R369): a queue's, the twin's queue record's (R430), or the Gate's own. -/
inductive Root where
  | que (q : Que)
  | twinQue (q : Que)
  | gate
  deriving DecidableEq, Repr

/-- A group of an intersection core: its district and its group slot (R217, R224). -/
structure GRef where
  dist : Dist
  slot : Fin 32
  deriving DecidableEq, Repr

/-- The fields of an instruction word below CLASS and OP (R235). -/
structure Fields where
  typ : BitVec 3
  ua  : Bool
  ib  : Bool
  ud  : Bool
  dst : BitVec 8
  sa  : BitVec 8
  sb  : BitVec 8
  sc  : BitVec 8
  imm : BitVec 16
  deriving DecidableEq, Repr

/-- The four avenue links of a router (R186 names them in the order east, west, north, south). -/
inductive Dir where
  | east | west | north | south
  deriving DecidableEq, Repr

/-- The 135 energy meters (R379). -/
inductive Meter where
  | district (d : Dist)
  | stackPort (p : Port)
  | strip
  deriving DecidableEq, Repr

/-- The caches that `BLK_CACHE_CTL` enables: the node caches, the desk caches, one stack cache (R360). -/
inductive CacheSel where
  | node | desk
  | stack (p : Port)
  deriving DecidableEq, Repr

/-- What wakes the block (R411), other than a `TARGET` write. -/
inductive Wake where
  /-- A write to a `QUE` page. -/
  | quePage
  /-- An access outside the `BLK` and `PWR` pages, held until Ready. -/
  | heldAccess
  /-- A message from the twin. -/
  | twinMessage
  deriving DecidableEq, Repr

/-- What raises a cold reset (R451, coded as `BLK_STATUS.CAUSE` in R457). -/
inductive ColdCause where
  | pokAon | resetN | pokMain | testMode
  deriving DecidableEq, Repr

/-- The straps, sampled at the end of a cold reset (R440). -/
structure Straps where
  twnSide : Fin 2
  ncw     : BitVec 2
  hlGen   : Bool
  twin    : Bool
  mfr     : BitVec 11
  deriving DecidableEq, Repr

/-- What the IEEE 1500 wrapper of a stack answers (R339, R341). -/
structure StackIdent where
  vendor  : BitVec 16
  gen     : BitVec 3
  height  : BitVec 5
  density : BitVec 8
  grade   : BitVec 8
  odecc   : BitVec 3
  ecc     : Bool
  deriving DecidableEq, Repr

/-- A stack as its port finds it: the identity, if the wrapper answers at all, whether training succeeds
(R339; a missing reference clock fails it, R441), and whether the stack accepts writes (R455). -/
structure StackEnv where
  ident   : Option StackIdent
  trains  : Bool
  accepts : Bool
  deriving DecidableEq, Repr

/-- What training of the host link finds (R444): good modules (a count) and the rate code of `LNK_LINK`. -/
structure LinkEnv where
  modules : BitVec 4
  rate    : BitVec 4
  deriving DecidableEq, Repr

/-- What a start-up finds outside the block's registers (R457): the districts and the strips that fail the
array test, the stacks, the host link, and whether the twin link trains. -/
structure StartEnv where
  failed     : List Dist
  stripFail  : Bool
  ports      : List StackEnv
  link       : LinkEnv
  twinTrains : Bool
  deriving DecidableEq, Repr

/-- A twin message's number and whether its CRC-32C checks (R419). -/
structure TwinHdr where
  num   : Word
  crcOk : Bool
  deriving DecidableEq, Repr

/-- The identity record (R416). -/
structure TwinIdentRec where
  version : Word
  side    : Fin 2
  mode    : BitVec 2
  walker  : Bool
  check   : Word
  deriving DecidableEq, Repr

/-- A queue record (R417). -/
structure QueRec where
  que         : Que
  baseLo      : Word
  baseHi      : Word
  depth       : Word
  classTenant : Word
  complBase   : Word
  sealAddr    : Word
  ptrootLo    : Word
  ptrootHi    : Word
  deriving DecidableEq, Repr

/-- The fields a STATE message carries beside the entry index (R419). -/
structure TwinStateRec where
  state  : BitVec 4
  status : Byte
  cdefer : Byte
  mode   : Byte
  beads  : Word
  deriving DecidableEq, Repr

/-- The acknowledgements of R419. -/
inductive TwinAckKind where
  | qrec (q : Que)
  | entry (idx : BitVec 14)
  | handoff (idx : BitVec 14)
  | ret
  deriving DecidableEq, Repr

/-- The two test ports (R449). -/
inductive TestPort where
  | jtag | wrapper
  deriving DecidableEq, Repr

/-- Where an access of the host lies in the aperture (R363), and the tag of its host link request (R354). -/
structure ApertureAt where
  tag  : Nat
  addr : BitVec 52
  deriving DecidableEq, Repr

/-- A done notice of a district (R190), with the charges that the district's meter reports at it (R380), each to a batch or to none. -/
structure DoneReport where
  dist    : Dist
  charges : List (Nat × Option Bid)
  deriving DecidableEq, Repr

/-- The commands: one constructor for each row of the table, in its order. -/
inductive Instr where
  /-- `QUE_TAIL_WRITE` (R41). -/
  | queTailWrite (q : Que) (v : Word)
  /-- `QUE_DEPTH_WRITE` (R39). -/
  | queDepthWrite (q : Que) (v : Word)
  /-- `QUE_RUN_SET` (R46). -/
  | queRunSet (q : Que)
  /-- `QUE_RUN_CLEAR` (R49). -/
  | queRunClear (q : Que)
  /-- `QUE_CANCEL` (R74). -/
  | queCancel (q : Que)
  /-- `QUE_RESUME` (R72). -/
  | queResume (q : Que)
  /-- `QUE_EST_WRITE` (R387). -/
  | queEstWrite (q : Que) (v : Word)
  /-- `DESCRIPTOR_FETCH` (R42). -/
  | descriptorFetch (q : Que)
  /-- `STAMPING` (R373). -/
  | stamping (q : Que)
  /-- `PAGE_WALK_COMPLETE` (R371). -/
  | pageWalkComplete (r : Root) (va : BitVec 52)
  /-- `ACCEPTANCE` (R66). -/
  | acceptance (q : Que)
  /-- `ADMISSION_ROUND` (R393). -/
  | admissionRound
  /-- `DEAL_RUN` (R21). -/
  | dealRun
  /-- `WALKER_ENTERING` (R194). -/
  | walkerEntering (d : Dist)
  /-- `WALKER_ARRIVAL` (R185). -/
  | walkerArrival (d : Dist)
  /-- `WALKER_RELOAD` (R180). -/
  | walkerReload (d : Dist)
  /-- `NODE_STEP` (R132). -/
  | nodeStep (d : Dist) (pick : Nat)
  /-- `TRIANGLE_TEST` (R145). -/
  | triangleTest (d : Dist) (pick : Nat) (tie : Bool)
  /-- `LOAD_DECISION` (R172). -/
  | loadDecision (d : Dist)
  /-- `PLOT_LOAD_COMPLETE` (R195). -/
  | plotLoadComplete (d : Dist) (ch : Fin 2)
  /-- `COPY_DRAIN_END` (R195). -/
  | copyDrainEnd (d : Dist) (slot : Fin 16)
  /-- `MAP_LOOKUP` (R163). -/
  | mapLookup (d : Dist)
  /-- `MAP_LOOKUP_REPLY` (R164). -/
  | mapLookupReply (d : Dist)
  /-- `DONE_NOTICE` (R190). -/
  | doneNotice (r : DoneReport)
  /-- `RESULT_WRITE` (R303). -/
  | resultWrite (d : Dist)
  /-- `PACK_WRITE` (R311). -/
  | packWrite (d : Dist)
  /-- `RUN_FLUSH` (R311). -/
  | runFlush (b : Bid)
  /-- `CONTRIBUTION` (R319). -/
  | contribution (pick : Nat)
  /-- `CANDIDATE_MESSAGE` (R212). -/
  | candidateMessage (d : Dist)
  /-- `TAU_REPLY` (R212). -/
  | tauReply (d : Dist)
  /-- `END_NOTICE` (R213). -/
  | endNotice (d : Dist)
  /-- `PROBE_JOB` (R207). -/
  | probeJob (d : Dist) (pick : Nat)
  /-- `REFIT_REPAIR` (R122). -/
  | refitRepair (b : Bid)
  /-- `MAINT_OPERATION` (R366). -/
  | maintOperation (b : Bid)
  /-- `COMPLETION_WRITE` (R71). -/
  | completionWrite (b : Bid)
  /-- `SEAL_CAS` (R425). -/
  | sealCas (b : Bid)
  /-- `WAKE_MESSAGE` (R330). -/
  | wakeMessage (b : Bid)
  /-- `EVENT_INTERRUPT` (R447). -/
  | eventInterrupt
  /-- `FAULT_RECORD_WRITE` (R334). -/
  | faultRecordWrite
  /-- `FRING_HEAD_WRITE` (R334). -/
  | fringHeadWrite (v : Word)
  /-- `HOST_WRITE_ACK` (R71). -/
  | hostWriteAck (n : Nat)
  /-- `HOST_READ_DATA` (R445). -/
  | hostReadData (pa : BitVec 52) (data : List Byte)
  /-- `APERTURE_READ` (R363). -/
  | apertureRead (a : ApertureAt) (len : Nat)
  /-- `APERTURE_WRITE` (R363). -/
  | apertureWrite (a : ApertureAt) (data : List Byte)
  /-- `REG_ACCESS_MALFORMED` (R445). -/
  | regAccessMalformed (off : BitVec 32) (len : Nat) (write : Bool)
  /-- `REGISTER_WRITE` (R463). -/
  | registerWrite (off : BitVec 20) (v : Word)
  /-- `RC_READ` (R466). -/
  | rcRead (off : BitVec 20) (delivered : Bool)
  /-- `PG_CTL_WRITE` (R462). -/
  | pgCtlWrite (pg : BitVec 8) (v : Word)
  /-- `CRC_LOAD` (R461). -/
  | crcLoad (d : Dist)
  /-- `PG_LOCK_WRITE` (R467). -/
  | pgLockWrite (pg : BitVec 8) (v : Word)
  /-- `PG_SNAP` (R477). -/
  | pgSnap (pg : BitVec 8)
  /-- `CTR_SNAP` (R478). -/
  | ctrSnap
  /-- `COUNTER_WRITE` (R474). -/
  | counterWrite (hi : Bool) (v : Word)
  /-- `INJECT_ARM` (R506). -/
  | injectArm (pg : BitVec 8) (v : Word)
  /-- `BALANCE_CAPTURE` (R485). -/
  | balanceCapture
  /-- `GRANT_ADD` (R383). -/
  | grantAdd (kind : Bool) (index : BitVec 12)
  /-- `GRANT_SET` (R383). -/
  | grantSet (kind : Bool) (index : BitVec 12)
  /-- `MAP_DATA_WRITE` (R491). -/
  | mapDataWrite (n : Fin 4) (v : Word)
  /-- `MAP_HASH` (R490). -/
  | mapHash (v : Word)
  /-- `TEN_DATA_WRITE` (R489). -/
  | tenDataWrite (n : Fin 32) (v : Word)
  /-- `TALLY_WINDOW_READ` (R486). -/
  | tallyWindowRead (n : Fin 8)
  /-- `DST_CLOSE` (R189). -/
  | dstClose (d : Dist)
  /-- `DST_OPEN` (R192). -/
  | dstOpen (d : Dist)
  /-- `DST_REOPEN` (R188). -/
  | dstReopen (d : Dist)
  /-- `DST_SIDE_BASE_WRITE` (R188). -/
  | dstSideBaseWrite (d : Dist) (v : Word)
  /-- `ORDERLY_CLOSURE` (R189). -/
  | orderlyClosure (d : Dist)
  /-- `FAULT_CLOSURE` (R191). -/
  | faultClosure (d : Dist)
  /-- `CENSUS_MARKER` (R191). -/
  | censusMarker (d : Dist)
  /-- `CENSUS_REPLAY` (R191). -/
  | censusReplay
  /-- `AVENUE_MESSAGE_RECEIVE` (R16). -/
  | avenueMessageReceive (n : Nat) (crcOk : Bool)
  /-- `AVENUE_REPLAY` (R16). -/
  | avenueReplay (n : Nat) (crcOk : Bool)
  /-- `METER_REPORT` (R380): a charge counted by a meter, in units of 1/256 bead for each volt of the supply (R379, R401), to a batch
  or to none. -/
  | meterReport (m : Meter) (charge : Nat) (b : Option Bid)
  /-- `VOLTAGE_REQUEST` (R399). -/
  | voltageRequest
  /-- `VOLTAGE_ACK` (R399). -/
  | voltageAck
  /-- `SENSOR_READING` (R404). -/
  | sensorReading (d : Dist) (r : BitVec 10)
  /-- `STEP_RING_EXPIRY` (R505). -/
  | stepRingExpiry (d : Dist) (lane : Option Dir)
  /-- `CORE_RING_EXPIRY` (R505). -/
  | coreRingExpiry (d : Dist)
  /-- `TILE_RING_EXPIRY` (R505). -/
  | tileRingExpiry (d : Dist) (t : Fin 2)
  /-- `STACK_REQ_RING_EXPIRY` (R505). -/
  | stackReqRingExpiry (p : Port)
  /-- `HOST_RING_EXPIRY` (R505). -/
  | hostRingExpiry
  /-- `VACK_RING_EXPIRY` (R505). -/
  | vackRingExpiry
  /-- `SENSOR_RING_EXPIRY` (R505). -/
  | sensorRingExpiry (d : Dist)
  /-- `STACK_FILL` (R352). -/
  | stackFill (p : Port) (st : Fin 1024) (addr : BitVec 40)
  /-- `EVICTION_WRITE` (R359). -/
  | evictionWrite (p : Port)
  /-- `PREFETCH` (R356). -/
  | prefetch (p : Port) (st : Fin 1024)
  /-- `SCRUB_READ` (R349). -/
  | scrubRead (p : Port)
  /-- `STACK_REFRESH` (R338). -/
  | stackRefresh (p : Port)
  /-- `MOP_INVAL` (R365). -/
  | mopInval (target : BitVec 4)
  /-- `MOP_CLEAN` (R365). -/
  | mopClean (target : BitVec 4)
  /-- `MOP_CLEAN_INVAL` (R365). -/
  | mopCleanInval (target : BitVec 4)
  /-- `MOP_ZERO` (R365). -/
  | mopZero (target : BitVec 4)
  /-- `MOP_COMPLETE` (R367). -/
  | mopComplete
  /-- `SC_INV` (R360). -/
  | scInv (p : Port)
  /-- `DC_INV` (R360). -/
  | dcInv
  /-- `NC_INV` (R360). -/
  | ncInv
  /-- `CACHE_ENABLE` (R361). -/
  | cacheEnable (c : CacheSel)
  /-- `CACHE_DISABLE` (R362). -/
  | cacheDisable (c : CacheSel)
  /-- `SHOOTDOWN_GO` (R377). -/
  | shootdownGo
  /-- `GROUP_LAUNCH` (R224). -/
  | groupLaunch (d : Dist)
  /-- `SPLIT_CHANGE` (R223). -/
  | splitChange (d : Dist)
  /-- `PREEMPTION` (R267). -/
  | preemption (d : Dist)
  /-- `GROUP_PARK` (R263). -/
  | groupPark (g : GRef)
  /-- `GROUP_RESTORE` (R268). -/
  | groupRestore (d : Dist)
  /-- `TRAP_REPLAY` (R264). -/
  | trapReplay (d : Dist) (h : BitVec 7)
  /-- `TRAP_KILL` (R265). -/
  | trapKill (d : Dist) (h : BitVec 7)
  /-- `MTX_COMPLETE` (R251). -/
  | mtxComplete (g : GRef) (n : Nat)
  /-- `FILL_COMPLETE` (R248). -/
  | fillComplete (g : GRef) (n : Nat)
  /-- `SEND_DELIVERY` (R259). -/
  | sendDelivery (d : Dist)
  /-- `SEND_STATUS` (R258). -/
  | sendStatus (d : Dist)
  /-- `IADD` (R514). -/
  | iadd (g : GRef) (f : Fields)
  /-- `ISUB` (R514). -/
  | isub (g : GRef) (f : Fields)
  /-- `IMUL` (R514). -/
  | imul (g : GRef) (f : Fields)
  /-- `IMULHI` (R514). -/
  | imulhi (g : GRef) (f : Fields)
  /-- `AND` (R514). -/
  | and (g : GRef) (f : Fields)
  /-- `OR` (R514). -/
  | or (g : GRef) (f : Fields)
  /-- `XOR` (R514). -/
  | xor (g : GRef) (f : Fields)
  /-- `SHL` (R514). -/
  | shl (g : GRef) (f : Fields)
  /-- `SHR` (R514). -/
  | shr (g : GRef) (f : Fields)
  /-- `SAR` (R514). -/
  | sar (g : GRef) (f : Fields)
  /-- `IMIN` (R514). -/
  | imin (g : GRef) (f : Fields)
  /-- `IMAX` (R514). -/
  | imax (g : GRef) (f : Fields)
  /-- `UMIN` (R514). -/
  | umin (g : GRef) (f : Fields)
  /-- `UMAX` (R514). -/
  | umax (g : GRef) (f : Fields)
  /-- `IMAD` (R514). -/
  | imad (g : GRef) (f : Fields)
  /-- `POPC` (R514). -/
  | popc (g : GRef) (f : Fields)
  /-- `CLZ` (R514). -/
  | clz (g : GRef) (f : Fields)
  /-- `MOV` (R514). -/
  | mov (g : GRef) (f : Fields)
  /-- `SEL` (R514). -/
  | sel (g : GRef) (f : Fields)
  /-- `UDIV` (R238). -/
  | udiv (g : GRef) (f : Fields)
  /-- `UREM` (R238). -/
  | urem (g : GRef) (f : Fields)
  /-- `FADD` (R286). -/
  | fadd (g : GRef) (f : Fields)
  /-- `FSUB` (R286). -/
  | fsub (g : GRef) (f : Fields)
  /-- `FMUL` (R286). -/
  | fmul (g : GRef) (f : Fields)
  /-- `FFMA` (R286). -/
  | ffma (g : GRef) (f : Fields)
  /-- `FMIN` (R286). -/
  | fmin (g : GRef) (f : Fields)
  /-- `FMAX` (R286). -/
  | fmax (g : GRef) (f : Fields)
  /-- `FABS` (R286). -/
  | fabs (g : GRef) (f : Fields)
  /-- `FNEG` (R286). -/
  | fneg (g : GRef) (f : Fields)
  /-- `FRCP` (R286). -/
  | frcp (g : GRef) (f : Fields)
  /-- `FRSQ` (R286). -/
  | frsq (g : GRef) (f : Fields)
  /-- `FSQRT` (R286). -/
  | fsqrt (g : GRef) (f : Fields)
  /-- `FDIV` (R286). -/
  | fdiv (g : GRef) (f : Fields)
  /-- `FFLOOR` (R286). -/
  | ffloor (g : GRef) (f : Fields)
  /-- `FCEIL` (R286). -/
  | fceil (g : GRef) (f : Fields)
  /-- `FEXP2` (R286). -/
  | fexp2 (g : GRef) (f : Fields)
  /-- `FLOG2` (R286). -/
  | flog2 (g : GRef) (f : Fields)
  /-- `F2I` (R288). -/
  | f2i (g : GRef) (f : Fields)
  /-- `I2F` (R288). -/
  | i2f (g : GRef) (f : Fields)
  /-- `F2BF` (R288). -/
  | f2bf (g : GRef) (f : Fields)
  /-- `F2H` (R288). -/
  | f2h (g : GRef) (f : Fields)
  /-- `BF2F` (R288). -/
  | bf2f (g : GRef) (f : Fields)
  /-- `H2F` (R288). -/
  | h2f (g : GRef) (f : Fields)
  /-- `F2D` (R288). -/
  | f2d (g : GRef) (f : Fields)
  /-- `D2F` (R288). -/
  | d2f (g : GRef) (f : Fields)
  /-- `PK8` (R513). -/
  | pk8 (g : GRef) (f : Fields)
  /-- `PKU8` (R513). -/
  | pku8 (g : GRef) (f : Fields)
  /-- `PK4` (R513). -/
  | pk4 (g : GRef) (f : Fields)
  /-- `PKU4` (R513). -/
  | pku4 (g : GRef) (f : Fields)
  /-- `PKF4` (R513). -/
  | pkf4 (g : GRef) (f : Fields)
  /-- `UP8` (R513). -/
  | up8 (g : GRef) (f : Fields)
  /-- `UPU8` (R513). -/
  | upu8 (g : GRef) (f : Fields)
  /-- `UP4` (R513). -/
  | up4 (g : GRef) (f : Fields)
  /-- `UPU4` (R513). -/
  | upu4 (g : GRef) (f : Fields)
  /-- `UPF4` (R513). -/
  | upf4 (g : GRef) (f : Fields)
  /-- `ICMP` (R514). -/
  | icmp (g : GRef) (f : Fields)
  /-- `UCMP` (R514). -/
  | ucmp (g : GRef) (f : Fields)
  /-- `FCMP` (R289). -/
  | fcmp (g : GRef) (f : Fields)
  /-- `PAND` (R514). -/
  | pand (g : GRef) (f : Fields)
  /-- `POR` (R514). -/
  | por (g : GRef) (f : Fields)
  /-- `PXOR` (R514). -/
  | pxor (g : GRef) (f : Fields)
  /-- `PNOT` (R514). -/
  | pnot (g : GRef) (f : Fields)
  /-- `BRA` (R242). -/
  | bra (g : GRef) (f : Fields)
  /-- `BRA_ANY` (R242). -/
  | braAny (g : GRef) (f : Fields)
  /-- `BRA_NONE` (R242). -/
  | braNone (g : GRef) (f : Fields)
  /-- `BRA_EMPTY` (R242). -/
  | braEmpty (g : GRef) (f : Fields)
  /-- `CALL` (R234). -/
  | call (g : GRef) (f : Fields)
  /-- `CALLR` (R237). -/
  | callr (g : GRef) (f : Fields)
  /-- `RET` (R237). -/
  | ret (g : GRef) (f : Fields)
  /-- `PUSH` (R240). -/
  | push (g : GRef) (f : Fields)
  /-- `ELSE` (R240). -/
  | elseM (g : GRef) (f : Fields)
  /-- `BRK` (R240). -/
  | brk (g : GRef) (f : Fields)
  /-- `RECONV` (R240). -/
  | reconv (g : GRef) (f : Fields)
  /-- `POP` (R240). -/
  | pop (g : GRef) (f : Fields)
  /-- `BAR_ALL` (R245). -/
  | barAll (g : GRef) (f : Fields)
  /-- `BAR_ACTIVE` (R244). -/
  | barActive (g : GRef) (f : Fields)
  /-- `WAIT` (R251). -/
  | wait (g : GRef) (f : Fields)
  /-- `EXIT` (R240). -/
  | exit (g : GRef) (f : Fields)
  /-- `TRAP` (R261). -/
  | trap (g : GRef) (f : Fields)
  /-- `NOP` (R237). -/
  | nop (g : GRef) (f : Fields)
  /-- `INSTRUCTION_FETCH` (R237). -/
  | instructionFetch (g : GRef)
  /-- `LD_L` (R246). -/
  | ldL (g : GRef) (f : Fields)
  /-- `ST_L` (R246). -/
  | stL (g : GRef) (f : Fields)
  /-- `LD_S` (R247). -/
  | ldS (g : GRef) (f : Fields)
  /-- `FILL_L` (R248). -/
  | fillL (g : GRef) (f : Fields)
  /-- `LD_H` (R249). -/
  | ldH (g : GRef) (f : Fields)
  /-- `ST_H` (R249). -/
  | stH (g : GRef) (f : Fields)
  /-- `MMA` (R281). -/
  | mma (g : GRef) (f : Fields)
  /-- `MSMAX` (R290). -/
  | msmax (g : GRef) (f : Fields)
  /-- `MRED` (R292). -/
  | mred (g : GRef) (f : Fields)
  /-- `SEND` (R258). -/
  | send (g : GRef) (f : Fields)
  /-- `RECV` (R260). -/
  | recv (g : GRef) (f : Fields)
  /-- `SLOT_LOCK` (R321). -/
  | slotLock (g : GRef) (f : Fields)
  /-- `SLOT_LD` (R321). -/
  | slotLd (g : GRef) (f : Fields)
  /-- `SLOT_ST` (R321). -/
  | slotSt (g : GRef) (f : Fields)
  /-- `SLOT_UNLOCK` (R321). -/
  | slotUnlock (g : GRef) (f : Fields)
  /-- `TID` (R237). -/
  | tid (g : GRef) (f : Fields)
  /-- `AMASK` (R237). -/
  | amask (g : GRef) (f : Fields)
  /-- `V2U` (R237). -/
  | v2u (g : GRef) (f : Fields)
  /-- `U2V` (R237). -/
  | u2v (g : GRef) (f : Fields)
  /-- `SHFL` (R514). -/
  | shfl (g : GRef) (f : Fields)
  /-- `VOTE` (R514). -/
  | vote (g : GRef) (f : Fields)
  /-- `BLK_RUNG_WRITE` (R410). -/
  | blkRungWrite (v : Word)
  /-- `BLOCK_RUNG_ENTRY` (R410). -/
  | blockRungEntry
  /-- `BLOCK_WAKE` (R411). -/
  | blockWake (w : Wake)
  /-- `DST_RUNG_WRITE` (R413). -/
  | dstRungWrite (d : Dist) (v : Word)
  /-- `DISTRICT_RUNG_ENTRY` (R413). -/
  | districtRungEntry (d : Dist)
  /-- `DISTRICT_QUIET_WAKE` (R413). -/
  | districtQuietWake (d : Dist)
  /-- `COLD_RESET` (R451). -/
  | coldReset (c : ColdCause) (straps : Straps)
  /-- `BLK_WARM` (R452). -/
  | blkWarm
  /-- `FABRIC_RESET` (R451). -/
  | fabricReset
  /-- `WARM_RESET` (R453). -/
  | warmReset
  /-- `STARTUP` (R457). -/
  | startup (env : StartEnv)
  /-- `DISTRICT_RESET` (R454). -/
  | districtReset (d : Dist) (host : Bool) (pass : Bool)
  /-- `PORT_RESET` (R455). -/
  | portReset (p : Port) (host : Bool) (stack : StackEnv)
  /-- `HOST_LINK_RESET` (R451). -/
  | hostLinkReset (host : Bool) (link : LinkEnv)
  /-- `TWIN_LINK_RESET` (R428). -/
  | twinLinkReset (host : Bool)
  /-- `POK_MAIN_RISE` (R443). -/
  | pokMainRise
  /-- `TWN_MODE_WRITE` (R416). -/
  | twnModeWrite (v : Word)
  /-- `TAKEOVER` (R429): the silence ring reaching `TAKE`, or the write of `TWN_CTL.TAKEOVER`. -/
  | takeover
  /-- `FENCE` (R428). -/
  | fence
  /-- `BEACON_RING_EXPIRY` (R420). -/
  | beaconRingExpiry
  /-- `HANDOFF` (R432). -/
  | handoff (b : Bid)
  /-- `SIDE_RETURN` (R433). -/
  | sideReturn
  /-- `TWIN_IDENT` (R416). -/
  | twinIdent (h : TwinHdr) (id : TwinIdentRec)
  /-- `TWIN_BEACON` (R420). -/
  | twinBeacon (h : TwinHdr)
  /-- `TWIN_QREC` (R417). -/
  | twinQrec (h : TwinHdr) (r : QueRec)
  /-- `TWIN_ENTRY` (R423). -/
  | twinEntry (h : TwinHdr) (idx : BitVec 14) (bytes : List Byte)
  /-- `TWIN_STATE` (R423). -/
  | twinState (h : TwinHdr) (idx : BitVec 14) (st : TwinStateRec)
  /-- `TWIN_RETIRE` (R423). -/
  | twinRetire (h : TwinHdr) (idx : BitVec 14)
  /-- `TWIN_HANDOFF` (R432). -/
  | twinHandoff (h : TwinHdr) (idx : BitVec 14)
  /-- `TWIN_SEALED` (R432). -/
  | twinSealed (h : TwinHdr) (q : Que) (seq : Word)
  /-- `TWIN_RUNG` (R420). -/
  | twinRung (h : TwinHdr) (rung : BitVec 3)
  /-- `TWIN_RESET` (R420). -/
  | twinReset (h : TwinHdr)
  /-- `TWIN_RESYNC` (R419). -/
  | twinResync (h : TwinHdr)
  /-- `TWIN_RETURN` (R433). -/
  | twinReturn (h : TwinHdr) (side : Fin 2) (word : BitVec 64)
  /-- `TWIN_ACK` (R419). -/
  | twinAck (h : TwinHdr) (k : TwinAckKind)
  /-- `VOLTAGE_ACK_FALL` (R399). -/
  | voltageAckFall
  /-- `HL_REFCLK_ARRIVAL` (R441). -/
  | hlRefclkArrival
  /-- `TEST_PORT_INSTRUCTION` (R449). -/
  | testPortInstruction (p : TestPort) (code : BitVec 4) (fails : List Nat)
  /-- `TEST_MODE_RISE` (R449). -/
  | testModeRise
  /-- `HOST_LINK_L1_ENTRY` (R448). -/
  | hostLinkL1Entry
  /-- `LINK_STATE_EXIT` (R448). -/
  | linkStateExit (twin : Bool)
  /-- `REGISTER_READ` (R472). -/
  | registerRead (off : BitVec 20)
  deriving DecidableEq, Repr

end Sys2Proof
end

