-- ==== Sys2Proof/Machine/State.lean ====
section
/-! DEFINITION. The state of the block as plain data: the register window, the queues and batches, the tally,
the accounts, the walkers, the districts with their cores, the stack ports, the twin port, the power unit, the
pins, and the queue of waiting commands. INVENTORY.md lists each piece with the rule that names it. -/

namespace Sys2Proof.Machine

/-- A table by key, sparse: keys strictly rising, no entry equal to the table's default. -/
abbrev SMap (α : Type) := List (Nat × α)

/-- Byte memory (scene memory, host memory): a canonical list of cells (`Host.Cell`). -/
abbrev Memory := List Host.Cell

/-! ## Walkers -/

/-- Three FP32 components. -/
structure V3 where
  x : Word
  y : Word
  z : Word
  deriving DecidableEq, Repr

/-- The world ray of a walker, exactly as its record gives it (R61 to R63, R128). The origin components are
FP64 codes when `long`, and FP32 codes in their low halves otherwise. -/
structure Ray where
  long  : Bool
  ox    : BitVec 64
  oy    : BitVec 64
  oz    : BitVec 64
  dir   : V3
  tmin  : Word
  tmax  : Word
  user  : Word
  mask  : BitVec 16
  flags : BitVec 16
  slot  : Word
  deriving DecidableEq, Repr

/-- What an instance adds to the rays, hits and programs below it (R110), and the address of its record. -/
structure InstCtx where
  recAt : Nat
  id    : BitVec 24
  user  : Word
  flip  : Bool
  opq   : Bool
  noCull : Bool
  deriving DecidableEq, Repr

/-- A carried ray: local origin L, offset org_L, direction d, and the instance it lies in (R128, R129, R139). -/
structure Carry where
  l    : V3
  org  : V3
  d    : V3
  inst : Option InstCtx
  deriving DecidableEq, Repr

/-- The flags gathered on the path to a leaf (R105, R113). -/
structure PathFlags where
  opq      : Bool
  noAnyhit : Bool
  noCull   : Bool
  deriving DecidableEq, Repr

/-- A ray in an instance's object space (R139): `oo` as FP64 codes, and d. -/
structure ObjRay where
  ox : BitVec 64
  oy : BitVec 64
  oz : BitVec 64
  d  : V3
  deriving DecidableEq, Repr

/-- One piece of a walk still to be visited. `ctx` is an index into the walker's carried rays. -/
inductive WItem where
  /-- A node at a scene address; the class a link or instance record expects, if one led here (R106, R110). -/
  | node (addr : Nat) (cls : Option (BitVec 2)) (ctx : Nat) (fl : PathFlags)
  /-- A link record (R106). -/
  | link (addr : Nat) (ctx : Nat) (fl : PathFlags)
  /-- `left` consecutive leaf records of kind 4 to 7 (R101) from a scene address. -/
  | leaf (kind : Nat) (addr : Nat) (left : Nat) (ctx : Nat) (fl : PathFlags)
  /-- Triangle `j` of a block that has been read as `blk` (R107, R145). -/
  | tri (addr : Nat) (blk : List Byte) (j : Nat) (ctx : Nat) (fl : PathFlags)
  /-- The root node of an instance that is being entered (R139): the class its record expects, the ray in its object space. -/
  | root (addr : Nat) (cls : BitVec 2) (obj : ObjRay) (inst : InstCtx) (fl : PathFlags)
  /-- A probe node, a probe leaf record and a probe tree's link record (R115, R117); the bound the child was
  last tested with (R204): `b` and `a` as FP32 codes, tested again before the walker enters. -/
  | pnode (addr : Nat) (bound : Option (Word × Word))
  | pleaf (addr : Nat) (bound : Option (Word × Word))
  | plink (addr : Nat) (bound : Option (Word × Word))
  deriving DecidableEq, Repr

/-- A candidate or a hit: t, identifiers, barycentrics as FP32 before R148, kind (R304), facing, the record it
lies in and its user word (R146, R232). -/
structure Hit where
  t     : Word
  prim  : Word
  inst  : BitVec 24
  iuser : Word
  kind  : Byte
  b1    : Word
  b2    : Word
  front : Bool
  recA  : Nat
  luser : Word
  ctx   : Nat
  fl    : PathFlags
  deriving DecidableEq, Repr

/-- The states of R194. `STEPPING` lies wholly inside one step. -/
inductive WState where
  | entering
  | queued
  | inProgram
  | inSquare (tid : Nat)
  | inTransit
  | spilled
  /-- Parked for an absent granule or a translation fault; `ready` once its batch's resume made it eligible
  for reload (R180). -/
  | parked (ready : Bool)
  | done
  deriving DecidableEq, Repr

/-- What a walk of a probe carries (R197, R203, R212); `seen` holds the candidates it has counted with `K` = 0 (R200, R202). -/
structure ProbeRec where
  home   : Nat
  qoff   : BitVec 64
  qfmt   : Byte
  qscale : Word
  query  : List Byte
  tau    : Word
  sent   : Nat
  visits : Nat
  dim    : Nat
  dist   : Nat
  iscale : Word
  seen   : List (Word × Word × Nat)
  deriving DecidableEq, Repr

/-- How far a walker's result is on its way to the done notice (R190, R303, R311). -/
inductive ResStage where
  | none
  /-- The walk has ended; its result is still to be written. -/
  | toWrite
  /-- Written, not acknowledged. -/
  | written
  /-- Acknowledged (or nothing to write): the done notice may be sent. -/
  | acked
  deriving DecidableEq, Repr

/-- A walker (R61, R128, R194), `held` until its done notice (R178). `ord` is the order in which it entered its present state, `sqAt`
when it most recently entered a square (R179), `place` its record's place in the side street while it lies there (R177); `pat` is
the error pattern of the first word of its slot (R34, R508), `offered` what the walk has offered to `PROG_ANYHIT` (R154): record,
primitive, and the instance's record. -/
structure Walker where
  bid     : Bid
  idx     : Nat
  run     : Nat
  gen     : Nat
  cls     : Nat
  dist    : Nat
  st      : WState
  ord     : Nat
  epoch   : BitVec 16
  dest    : Nat
  ray     : Ray
  ctxs    : List Carry
  work    : List WItem
  best    : Option Hit
  cand    : Option Hit
  contrib : Bool
  part    : List Word
  stage   : ResStage
  hits    : Nat
  regv    : Bool
  probe   : Option ProbeRec
  upd     : List Byte
  pat     : BitVec 72
  sqAt    : Option Nat
  place   : Option Nat
  offered : List (Nat × Word × Option Nat)
  deriving DecidableEq, Repr

/-! ## Batches, tally, ledger -/

/-- A descriptor decoded (R51 to R54); `fmt` 0 stands for an entry whose FMT is invalid (R50). -/
structure Desc where
  fmt        : Nat
  kind       : Nat
  submode    : Nat
  flags      : BitVec 16
  count      : Nat
  cls        : Nat
  tenant     : Nat
  k          : Nat
  tag        : Word
  inAddr     : Nat
  outAddr    : Nat
  bitmapAddr : Nat
  slotAddr   : Nat
  wakeAddr   : Nat
  root       : Nat
  radius     : Word
  progMain   : Nat
  progAnyhit : Nat
  progAccum  : Nat
  paramAddr  : Nat
  reserved   : Bool
  deriving DecidableEq, Repr

/-- TH_STATE (R422). -/
inductive BState where
  | accepted | admitted | parked | completing | isSealed
  deriving DecidableEq, Repr

/-- Where a parked batch resumes (R72, R73, R264). -/
inductive ParkStage where
  | stamping | walking | completion | sealing
  deriving DecidableEq, Repr

/-- A live region of a region-table copy (R79 to R82). -/
structure Region where
  base   : Nat
  size   : Nat
  flags  : BitVec 32
  bitmap : Nat
  deriving DecidableEq, Repr

/-- An accepted batch. `cbeads` is `CBEADS` as its completion record gave it (R328, R387, R393), `frac` the 1/256 beads charged beyond
`beads` (R379), `wrote` the treelets its `REFIT` has written (R125), `again` a resume that waits for the record of its fault (R72,
R334). -/
structure Batch where
  bid       : Bid
  desc      : Desc
  raw       : List Byte
  ring      : Nat
  tly       : Nat
  cls       : Nat
  tenant    : Nat
  st        : BState
  parkAt    : Option ParkStage
  status    : Option Byte
  crcode    : Byte
  cdefer    : Nat
  mode      : Nat
  restarts  : Nat
  beads     : Nat
  est       : Nat
  cmtLeft   : Nat
  hits      : Nat
  regv      : Nat
  fmtv      : Nat
  traps     : Nat
  parks     : Nat
  checked   : Bool
  regions   : List Region
  nextIdx   : Nat
  doneCount : Nat
  zeroed    : Bool
  nextRun   : Nat
  cursor    : Nat
  top       : Option Nat
  stop      : Bool
  work      : Bool
  refit     : Bool
  admitOrd  : Nat
  acceptOrd : Nat
  twinCopy  : Bool
  wake      : Bool
  irq       : Bool
  handed    : Bool
  canceled  : Bool
  trapped   : Bool
  outW      : Nat
  cbeads    : Option Nat
  frac      : Nat
  wrote     : List Nat
  again     : Bool
  deriving DecidableEq, Repr

/-- A descriptor fetched and not yet accepted (R71 steps 3 to 5). -/
structure Fetched where
  raw     : List Byte
  ring    : Nat
  entries : Nat
  half    : Bool
  stamped : Bool
  fault   : Option (Nat × Nat)
  tly     : Option Nat
  mirrored : Bool
  deriving DecidableEq, Repr

/-- A stamp entry (R373): one page of a stamped extent, in its place in the stamp store. -/
structure Stamp where
  bid       : Bid
  va        : Nat
  size      : Nat
  pa        : Nat
  w         : Bool
  withdrawn : Bool
  place     : Nat
  deriving DecidableEq, Repr

/-- An entry of the translation cache (R375), tagged by root and page. -/
structure XcEntry where
  root : Nat
  va   : Nat
  size : Nat
  pa   : Nat
  w    : Bool
  deriving DecidableEq, Repr

/-- A run-ledger entry with its pack block (R190, R309), in its place in the ledger: the walkers of one run of up to 64. -/
structure LedgerRun where
  bid    : Bid
  run    : Nat
  dist   : Nat
  dealt  : Mask
  done   : Mask
  hit    : Mask
  pack   : SMap (List Byte)
  place  : Nat
  deriving DecidableEq, Repr

/-- What an unacknowledged host write lets happen when it is acknowledged (R71, R190); `store` is a program's host store, by its
group's `seed` and its district (R244, R249, R458). -/
inductive AckFor where
  | result (bid : Bid) (idx : Nat) (gen : Nat)
  | batch (bid : Bid)
  | store (bid : Bid) (seed dist : Nat)
  | completion (bid : Bid)
  | fault
  | free
  deriving DecidableEq, Repr

/-- A host write issued and not yet acknowledged (R71, R438); `old` when a shootdown has withdrawn its translation since (R377). -/
structure HostWr where
  pa   : Nat
  data : List Byte
  fr   : AckFor
  old  : Bool
  deriving DecidableEq, Repr

/-- A fault or trap record formed and not yet written (R334, R335, R262), with the page or granule of the report it was formed from. -/
structure FaultRec where
  bytes : List Byte
  bid   : Bid
  gate  : Bool
  key   : Nat
  deriving DecidableEq, Repr

/-- A report of an absent granule or a faulting page, merged per batch and granule or page (R89, R337). -/
structure ParkReport where
  bid     : Bid
  key     : Nat
  absent  : Bool
  dists   : List Nat
  walker  : Nat
  access  : Byte
  cause   : Byte
  addr    : Nat
  written : Bool
  deriving DecidableEq, Repr

/-- An account (R382): balance and commitment, signed 48 bits, saturating. -/
structure Account where
  bal : Int
  cmt : Int
  deriving DecidableEq, Repr

/-- A contribution that has reached the Gate (R319). -/
structure Contrib where
  bid   : Bid
  idx   : Nat
  slot  : Nat
  words : List Word
  deriving DecidableEq, Repr

/-- A held slot interlock (R321, R322): the slot and the thread that holds it. -/
structure SlotLock where
  bid  : Bid
  slot : Nat
  idx  : Nat
  deriving DecidableEq, Repr

/-- An entry of the top table (R166): the treelet, and whether a batch has used it yet. `cut` is the number of batches admitted when
a lowering of `TOP_SLOTS` put the entry above the limit: later ones do not use it (R168). -/
structure TopEntry where
  tid  : Nat
  used : Bool
  cut  : Option Nat
  deriving DecidableEq, Repr

/-! ## Districts -/

/-- A square (R170 to R172): its treelet, when it opened and how many loads the district had completed then. -/
structure Square where
  tid     : Nat
  opened  : Nat
  loads0  : Nat
  loading : Bool
  deriving DecidableEq, Repr

/-- Treelet states other than ABSENT (R195). -/
inductive CopyState where
  | loading | resident | replicated | draining
  deriving DecidableEq, Repr

/-- A plot slot in use: its treelet, state, the copy of the treelet's bytes (scene addresses), whether it is
the reserved slot of a top-table entry, and the order of loading (R173, R195). -/
structure PlotSlot where
  tid    : Nat
  st     : CopyState
  cells  : Memory
  len    : Nat
  poison : Bool
  top    : Option Nat
  pinned : Bool
  loaded : Nat
  stale  : Bool
  ch     : Option Nat
  bid    : Option Bid
  pat    : BitVec 72
  deriving DecidableEq, Repr

/-- One answer of the memo (R163): the treelet and its map entry's words, or none. -/
structure MemoEntry where
  tid   : Nat
  entry : Option (List Word)
  deriving DecidableEq, Repr

/-- A tally heap at home (R209, R212, R213). Entries are (score, identifier, vector address). -/
structure Heap where
  bid    : Bid
  idx    : Nat
  gen    : Nat
  chunks : Nat
  ents   : List (Word × Word × Nat)
  got    : Nat
  total  : Option Nat
  visits : Nat
  rerank : Bool
  deriving DecidableEq, Repr

/-- A cache line of a node or desk cache: its address, the bytes it copied (R350), and for a desk line the
error pattern of its first word (R508); `bad` is a node cache line's failing parity. -/
structure CLine where
  addr : Nat
  data : List Byte
  bad  : Bool
  pat  : BitVec 72
  deriving DecidableEq, Repr

/-- An invocation (R218, R231): entry point as ENTRY codes it, program, walker, and its inputs. -/
structure Invocation where
  entry : Nat
  prog  : Nat
  bid   : Bid
  idx   : Nat
  gen   : Nat
  cls   : Nat
  hit   : Hit
  deriving DecidableEq, Repr

/-- An outstanding MTX instruction: the descriptor copied at issue and where it came from (R252, R256), and when it reached the tiles'
queue (R255). -/
structure MtxOp where
  op     : Nat
  typ    : Nat
  desc   : List Byte
  off    : Nat
  pc     : Nat
  ctr    : Nat
  ord    : Nat
  deriving DecidableEq, Repr

/-- An outstanding FILL.L (R248): its copies, one for each thread that was active, as source, destination and whether the
region check failed; size and counter. -/
structure FillOp where
  copies : List (Nat × Nat × Bool)
  size   : Nat
  ctr    : Nat
  deriving DecidableEq, Repr

/-- What parked a group (R263, R264): a trap, a fault or absent granule, pre-emption; or it was parked in a slot that a change
of the park area has lost (R270). -/
inductive ParkKind where
  | trap | fault | pre | lost
  deriving DecidableEq, Repr

/-- An entry of the mask stack (R240). -/
structure MaskEntry where
  outer : Mask
  pend  : Mask
  deriving DecidableEq, Repr

/-- A trap the group has raised: cause, TWORD, TDETAIL, and TPC (R261, R262, R302). -/
structure TrapInfo where
  cause  : Byte
  pc     : Nat
  tword  : BitVec 16
  detail : List Byte
  deriving DecidableEq, Repr

/-- A group (R217 to R265). `vregs` holds thread register r of thread t at key t * 256 + r; a register that is
not listed reads zero below v32 and an undefined value above (R230, R232). `rfErr` and `lsErr` are the error patterns of
register file words (by the same keys) and of 64-bit words of local store (R34, R508). `parked` says what stopped the group,
`settled` that GROUP_PARK has carried the park out, `trap` a trap whose record is still to be formed; `seed` numbers the launch. -/
structure Group where
  bid      : Bid
  entry    : Nat
  prog     : Nat
  cls      : Nat
  age      : Nat
  img      : Nat
  nreg     : Nat
  localK   : Nat
  lsBase   : Nat
  split    : Nat
  codeLen  : Nat
  parkTrap : Bool
  nanTrap  : Bool
  pc       : Nat
  ir       : Option (BitVec 64)
  vregs    : SMap Word
  uregs    : SMap Word
  preds    : SMap Mask
  active   : Mask
  live     : Mask
  launch   : Mask
  mstack   : List MaskEntry
  wctr     : SMap Nat
  lstore   : SMap Byte
  mtx      : List MtxOp
  fills    : List FillOp
  sends    : List (Nat × Nat)
  nanPend  : List TrapInfo
  invs     : List Invocation
  regvs    : Mask
  parked   : Option ParkKind
  replay   : Bool
  trap     : Option TrapInfo
  settled  : Bool
  rfErr    : SMap (BitVec 72)
  lsErr    : SMap (BitVec 72)
  preWant  : Bool
  seed     : Nat
  deriving DecidableEq, Repr

/-- A message in a core's inbox (R258 to R260). -/
structure InMsg where
  bid  : Bid
  tag  : BitVec 16
  src  : Nat
  words : List Word
  deriving DecidableEq, Repr

/-- An intersection core (R217 to R270). -/
structure Core where
  split   : Nat
  waiting : List Invocation
  groups  : SMap Group
  parks   : SMap Group
  inbox   : List InMsg
  desk    : List CLine
  ages    : Nat
  failed  : Bool
  tiles   : BitVec 2
  images  : List (Bid × Nat)
  deriving DecidableEq, Repr

/-- A district (R11). `reasons` has the bits of DST_STATE [5:0] (R193); `faultDone` says that FAULT_CLOSURE has carried
its closure out, `renewed` that a district reset has ended since. -/
structure District where
  reasons  : BitVec 6
  drained  : Bool
  squares  : List Square
  plot     : SMap PlotSlot
  clock    : Nat
  loads    : Nat
  memo     : List MemoEntry
  asked    : List Nat
  heaps    : List Heap
  ncache   : List CLine
  core     : Core
  warm     : Bool
  high     : Bool
  trip     : Bool
  sensFault : Bool
  routerDead : Bool
  inReset  : Bool
  testFail : Bool
  faultDone : Bool
  renewed  : Bool
  deriving DecidableEq, Repr

/-! ## Avenues -/

/-- The three lanes (R13). -/
inductive Lane where
  | walker | request | response
  deriving DecidableEq, Repr

/-- What a message carries. A `send` names the group and thread that wait for its status by the group's `seed`. -/
inductive Payload where
  | walker (bid : Bid) (idx : Nat) (gen : Nat) (tid : Nat) (epoch : BitVec 16)
  | lookup (tid : Nat)
  | lookupReply (tid : Nat) (ep : BitVec 16) (entry : Option (List Word))
  | candidates (bid : Bid) (idx gen num : Nat) (ents : List (Word × Word × Nat))
  | tau (bid : Bid) (idx gen : Nat) (tau : Word)
  | endNotice (bid : Bid) (idx gen sent visits : Nat)
  | send (bid : Bid) (tag : BitVec 16) (words : List Word) (group thread reg : Nat)
  | sendStatus (group thread reg : Nat) (ok : Bool)
  | marker
  deriving DecidableEq, Repr

/-- A message in flight (R12 to R16): lane, source, destination, the router it has reached; the neighbour that has asked for a replay
over its link, if one has, and how often that link has replayed the message; its sequence number. -/
structure Msg where
  lane    : Lane
  src     : Nat
  dst     : Nat
  here    : Nat
  replays : Nat
  via     : Option Nat
  seq     : Nat
  body    : Payload
  deriving DecidableEq, Repr

/-! ## Stack ports -/

/-- A 64-byte sector of a stack cache (R352); `bad` is failing parity (R353). -/
structure Sector where
  valid  : Bool
  dirty  : Bool
  poison : Bool
  bad    : Bool
  data   : List Byte
  deriving DecidableEq, Repr

/-- A tag granule of 256 bytes in a way of a stack cache (R352), named by its scene address. -/
structure SLine where
  addr : Nat
  set  : Nat
  way  : Nat
  secs : List Sector
  deriving DecidableEq, Repr

/-- A miss or prefetch outstanding on a stream (R355, R356); `stale` once its data may no longer be installed (R368). -/
structure Miss where
  stream   : Nat
  addr     : Nat
  stale    : Bool
  prefetch : Bool
  deriving DecidableEq, Repr

/-- A stride detector (R356): the last port-local address it followed, the stride, and whether it has repeated. -/
structure Stride where
  last   : Nat
  stride : Int
  hot    : Bool
  deriving DecidableEq, Repr

/-- A stack port (R338 to R359). `lines` stand least recently used first; `kept` is what its stack holds at port-local
addresses that the present interleave does not use (R342, R344). -/
structure StackPort where
  lines    : List SLine
  evict    : List SLine
  misses   : List Miss
  strides  : SMap Stride
  scrubPos : Nat
  scrubs   : Nat
  refresh  : Nat
  first    : Option StackIdent
  inResetP : Bool
  kept     : Memory
  invDone  : Bool
  deriving DecidableEq, Repr

/-! ## Twin -/

/-- A message sent to the twin, as R419 lists them. -/
inductive TwinMsg where
  | ident (r : TwinIdentRec)
  | beacon
  | qrec (r : QueRec)
  | qrecAck (q : Que)
  | entry (idx : BitVec 14) (bytes : List Byte)
  | entryAck (idx : BitVec 14)
  | state (idx : BitVec 14) (st : TwinStateRec)
  | retire (idx : BitVec 14)
  | handoff (idx : BitVec 14)
  | handoffAck (idx : BitVec 14)
  | sealDone (q : Que) (seq : Word)
  | rung (r : BitVec 3)
  | reset | resync
  | ret (side : Fin 2) (word : BitVec 64)
  | retAck
  /-- A message that has gone out with a failing CRC (R510). -/
  | garbled (m : TwinMsg)
  deriving DecidableEq, Repr

/-- A batch of the twin's side in the mirror (R422, R423). -/
structure Mirror where
  idx    : BitVec 14
  len    : Nat
  bytes  : List Byte
  held   : Bool
  deriving DecidableEq, Repr

/-- The twin port's own state (R415 to R433): `sent` is what it has put on the link, oldest first; `quiet` says that silence
is not counted (R420), `silent` that the silence ring has reached `FENCE`; `resync` that a `RESYNC` is due (R419). -/
structure Twin where
  linkUp    : Bool
  sendNum   : Word
  recvNum   : Word
  sent      : List TwinMsg
  peer      : Option TwinIdentRec
  quiet     : Bool
  peerRung  : BitVec 3
  qrecs     : SMap QueRec
  mirrors   : List Mirror
  owner     : BitVec 64
  waitAck   : List (BitVec 14)
  handWait  : List Bid
  linkFails : Nat
  silent    : Bool
  resync    : Bool
  lstate    : BitVec 3
  wantFence : Bool
  deriving DecidableEq, Repr

/-! ## The block -/

/-- The voltage exchange of R399 and the power port of R443. -/
structure Power where
  vreq    : Bool
  vack    : Bool
  stuck   : Bool
  ttog    : Bool
  rungOut : BitVec 3
  pokMain : Bool
  deriving DecidableEq, Repr

/-- Pins, straps, clocks and test ports (R440, R441, R449). -/
structure Pins where
  straps   : Straps
  testMode : Bool
  hlClk    : Bool
  ir       : BitVec 4
  wir      : BitVec 4
  dr       : List Bool
  deriving DecidableEq, Repr

/-- Which reset or start-up is in progress (R453, R457). -/
inductive ResetPhase where
  | up
  /-- A warm reset triggered, not yet entered. -/
  | warmWanted
  /-- Start-up held at the step that trains the host link, for want of `HL_REFCLK` (R441). -/
  | holding (cold : Bool)
  /-- Start-up to run; cold or warm. -/
  | starting (cold : Bool)
  deriving DecidableEq, Repr

/-- A census in progress (R191): the faulted district, the districts whose reports are awaited, when it began. -/
structure Census where
  dist    : Nat
  waiting : List Nat
  since   : Nat
  deriving DecidableEq, Repr

/-- A host read of the aperture that waits for a fill (R355, R363): its tag, its range, the next byte it is to receive, what it has
received and whether that is poisoned. -/
structure ApRead where
  tag    : Nat
  addr   : Nat
  len    : Nat
  next   : Nat
  got    : List Byte
  poison : Bool
  deriving DecidableEq, Repr

/-- The host link's and the register window's own state. -/
structure Gate where
  irqs     : List (Nat × Word)
  evtWant  : Bool
  readData : Option Word
  apTag    : Nat
  apData   : List Byte
  apPoison : Bool
  apWait   : List ApRead
  shoot    : Bool
  mop      : Option (Nat × Nat × Nat × Nat)
  rst      : Option (Nat × Nat)
  capBal   : Account
  held     : Option Nat
  ncInv    : Bool
  dcInv    : Bool
  room     : List Nat
  deriving DecidableEq, Repr

/-- The Counting House's own state (R382 to R397, R190, R191). `rems` holds the remainders below 1/256 bead of the meters, by unit code
(R379, R401), `gone` the tenant, class and 1/256 beads of retired batches, whose last transfers may still be charged to them (R381). -/
structure House where
  classAcc  : SMap Account
  tenantAcc : SMap Account
  deficit   : SMap Int
  rot       : SMap Nat
  wanted    : Bool
  lastDist  : Nat
  admits    : Nat
  accepts   : Nat
  ledger    : List LedgerRun
  top       : SMap TopEntry
  census    : Option Census
  undo      : Option Bool
  rems      : SMap Nat
  gone      : List (Bid × Nat × Nat × Nat)
  deriving DecidableEq, Repr

structure State where
  /-- The commands that are waiting, first in first out. -/
  pending  : List Instr
  /-- The stored bits of every register of the window, by window offset; unlisted: the reset value. -/
  regs     : SMap Word
  /-- Registers of block pages that fail parity, by window offset (R472). -/
  parBad   : List Nat
  /-- Pages whose PG_LOCK has been stored (R467), by page number. -/
  locked   : List Nat
  /-- Live and holding counters (R474, R475), by unit * 256 + index. -/
  live     : SMap (BitVec 64)
  hold     : SMap (BitVec 64)
  /-- Tenant table words, by tenant * 32 + word (R488); words that fail parity, by the same keys. -/
  ten      : SMap Word
  tenBad   : List Nat
  /-- Treelet map words, by entry * 4 + word (R159); words that fail parity, by the same keys. -/
  map      : SMap Word
  mapBad   : List Nat
  /-- Host memory as the coherent link shows it, and the writes not yet acknowledged. -/
  host     : Memory
  hostWr   : List HostWr
  /-- The stacks' contents by scene address; error patterns per 72-bit word and poison marks, by word address
  (address / 8). -/
  scene    : Memory
  codeErr  : SMap (BitVec 72)
  poison   : List Nat
  /-- The present ports of the interleave and the bytes each contributes (R342). -/
  ports    : List Nat
  capC     : Nat
  stk      : SMap StackPort
  /-- Queues: fetched descriptors, by queue; queues whose seal word is still to be read (R46). -/
  fetched  : SMap Fetched
  seqWait  : List Nat
  cancels  : List Nat
  queErrS  : List Nat
  batches  : List Batch
  /-- Tally entries by index: 32 bytes each; patterns per word (index * 4 + word); the next free own index. -/
  tally    : SMap (List Byte)
  tallyErr : SMap (BitVec 72)
  tallyPos : Nat
  tallyStop : List Nat
  stamps   : List Stamp
  xc       : List XcEntry
  faults   : List FaultRec
  reports  : List ParkReport
  contribs : List Contrib
  locks    : List SlotLock
  walkers  : List Walker
  clock    : Nat
  dists    : SMap District
  links    : List (Nat × Nat)
  msgs     : List Msg
  gate     : Gate
  house    : House
  power    : Power
  pins     : Pins
  twin     : Twin
  phase    : ResetPhase
  /-- The model's counter of free values drawn (assumption log 3). -/
  freeCtr  : Nat
  deriving DecidableEq, Repr

/-- The faults that end a step: none. The spec gives every command an effect or a condition it waits for, and
what it calls a fault (R335, R261) is a record the block writes while it goes on; so nobody raises one (safe). -/
inductive Fault where
  deriving DecidableEq, Repr

/-- Why a step is refused. -/
inductive Refusal where
  /-- Raised by `exec` for a command that has no meaning yet, with its mnemonic of the table (safe: no claim
  about that command can be proved). -/
  | notModelled (mnemonic : String)
  deriving DecidableEq, Repr

/-! ## Reset values -/

/-- A core that holds nothing, at split 1 (R270). -/
def Core.reset : Core :=
  { split := 1, waiting := [], groups := [], parks := [], inbox := [], desk := [], ages := 0,
    failed := false, tiles := 0, images := [] }

/-- A district after reset: closed with NO_SIDE, holding nothing (R193). -/
def District.reset : District :=
  { reasons := 0x10, drained := true, squares := [], plot := [], clock := 0, loads := 0, memo := [],
    asked := [], heaps := [], ncache := [], core := Core.reset,
    warm := false, high := false, trip := false, sensFault := false, routerDead := false,
    inReset := false, testFail := false, faultDone := false, renewed := false }

/-- A stack port after a cold reset: no line valid, nothing outstanding, no identity read (R341). -/
def StackPort.reset : StackPort :=
  { lines := [], evict := [], misses := [], strides := [], scrubPos := 0, scrubs := 0, refresh := 0,
    first := none, inResetP := false, kept := [], invDone := false }

/-- Solo, nothing exchanged (R418). -/
def Twin.reset : Twin :=
  { linkUp := false, sendNum := 0, recvNum := 0, sent := [], peer := none, quiet := false, peerRung := 0,
    qrecs := [], mirrors := [], owner := 0, waitAck := [], handWait := [], linkFails := 0, silent := false,
    resync := false, lstate := 0, wantFence := false }

/-- Empty accounts, no batch admitted (R386). `lastDist` 127 makes the first run go to the lowest open district
(DESIGN CHOICE, assumption log 5). -/
def House.reset : House :=
  { classAcc := [], tenantAcc := [], deficit := [], rot := [], wanted := false, lastDist := 127, admits := 0,
    accepts := 0, ledger := [], top := [], census := none, undo := none, rems := [], gone := [] }

/-- Nothing sent, nothing waiting. -/
def Gate.reset : Gate :=
  { irqs := [], evtWant := false, readData := none, apTag := 0, apData := [], apPoison := false, apWait := [], shoot := false,
    mop := none, rst := none, capBal := { bal := 0, cmt := 0 }, held := none,
    ncInv := false, dcInv := false, room := [] }

/-- The pins with the reference tie-off of CFG_NCW (R440; DESIGN CHOICE for the others, assumption log 6), and
the test ports with IDCODE and WS_BYPASS selected (PRESUMED, assumption log 8). -/
def Pins.reset : Pins :=
  { straps := { twnSide := 0, ncw := 0b10, hlGen := false, twin := false, mfr := 0 },
    testMode := false, hlClk := false, ir := 0x1, wir := 0x0, dr := [] }

/-- Both handshake lines low, rung Ready (R443). -/
def Power.reset : Power :=
  { vreq := false, vack := false, stuck := false, ttog := false, rungOut := 0, pokMain := true }

/-- The block right after a cold reset: every register at its reset value, every table and store empty, the
start-up sequence of R457 still to run (assumption log 7). -/
def State.reset : State :=
  { pending := [], regs := [], parBad := [], locked := [], live := [], hold := [], ten := [], tenBad := [],
    map := [], mapBad := [], host := [], hostWr := [], scene := [], codeErr := [], poison := [], ports := [],
    capC := 0, stk := [], fetched := [], seqWait := [], cancels := [], queErrS := [], batches := [], tally := [],
    tallyErr := [], tallyPos := 0, tallyStop := [], stamps := [], xc := [], faults := [], reports := [],
    contribs := [], locks := [], walkers := [], clock := 0, dists := [], links := [], msgs := [],
    gate := Gate.reset, house := House.reset, power := Power.reset, pins := Pins.reset, twin := Twin.reset,
    phase := .starting true, freeCtr := 0 }

end Sys2Proof.Machine
end

