-- ==== Sys2Proof/Machine/Maps.lean ====
section
/-! DEFINITION. Sparse tables in one canonical form, byte memory over them, and the bit-field, byte-order and
list helpers the meanings share. -/

namespace Sys2Proof.Machine

/-! ## Tables -/

/-- The entry at a key, if one is listed. -/
def SMap.find {α : Type} : SMap α → Nat → Option α
  | [], _ => none
  | (k, v) :: t, n => if n = k then some v else SMap.find t n

/-- The entry put at a key, the keys still rising. -/
def SMap.put {α : Type} : SMap α → Nat → α → SMap α
  | [], n, v => [(n, v)]
  | (k, w) :: t, n, v =>
    if n < k then (n, v) :: (k, w) :: t
    else if n = k then (n, v) :: t
    else (k, w) :: SMap.put t n v

/-- The entry at a key taken away. -/
def SMap.del {α : Type} : SMap α → Nat → SMap α
  | [], _ => []
  | (k, w) :: t, n => if n = k then SMap.del t n else (k, w) :: SMap.del t n

/-- What a key reads as, when unlisted keys read as `d`. -/
def SMap.get {α : Type} (d : α) (m : SMap α) (k : Nat) : α := (SMap.find m k).getD d

/-- A key set, keeping the form: the default is never listed. -/
def SMap.set {α : Type} [DecidableEq α] (d : α) (m : SMap α) (k : Nat) (v : α) : SMap α :=
  if v = d then SMap.del m k else SMap.put m k v

/-- The keys rise strictly. -/
def SMap.sorted {α : Type} : SMap α → Bool
  | [] => true
  | (k, _) :: t => t.all (fun p => decide (k < p.1)) && SMap.sorted t

/-- The canonical form: keys strictly rising, no entry equal to what an unlisted key reads as. -/
def SMap.wf {α : Type} [DecidableEq α] (d : α) (m : SMap α) : Bool :=
  SMap.sorted m && m.all (fun p => decide (p.2 ≠ d))

/-- The values of a table, in key order. -/
def SMap.vals {α : Type} (m : SMap α) : List α := m.map (·.2)

/-- The keys of a table, in order. -/
def SMap.keys {α : Type} (m : SMap α) : List Nat := m.map (·.1)

/-! ## Byte memory (R6: little-endian) -/

/-- The canonical form of a memory: addresses strictly rising, no listed byte equal to 0, which is what an
unlisted address reads as. -/
def Memory.wf (m : Memory) : Bool := SMap.wf (0 : Byte) m

/-- One byte of memory. -/
def Memory.byte (m : Memory) (a : Nat) : Byte := SMap.get 0 m a

/-- One byte written. -/
def Memory.setByte (m : Memory) (a : Nat) (b : Byte) : Memory := SMap.set 0 m a b

/-- `n` bytes from an address. -/
def Memory.bytes (m : Memory) (a : Nat) : Nat → List Byte
  | 0 => []
  | n + 1 => Memory.byte m a :: Memory.bytes m (a + 1) n

/-- Bytes stored from an address upward. -/
def Memory.store (m : Memory) (a : Nat) : List Byte → Memory
  | [] => m
  | b :: bs => Memory.store (Memory.setByte m a b) (a + 1) bs

/-- The number that bytes spell, the first byte least significant (R6). -/
def leNat : List Byte → Nat
  | [] => 0
  | b :: bs => b.toNat + 256 * leNat bs

/-- A number as `n` bytes, the least significant first (R6). -/
def leBytes (n v : Nat) : List Byte :=
  match n with
  | 0 => []
  | k + 1 => BitVec.ofNat 8 v :: leBytes k (v / 256)

/-- An unsigned little-endian number of `n` bytes in memory. -/
def Memory.le (m : Memory) (a n : Nat) : Nat := leNat (Memory.bytes m a n)

/-- A 32-bit word in memory. -/
def Memory.word (m : Memory) (a : Nat) : Word := BitVec.ofNat 32 (Memory.le m a 4)

/-- Bytes `o` to `o + n - 1` of a byte list, as a number; bytes beyond the end count as 0. -/
def bytesLe (bs : List Byte) (o n : Nat) : Nat := leNat ((bs.drop o).take n)

/-- A 32-bit word of a byte list. -/
def bytesWord (bs : List Byte) (o : Nat) : Word := BitVec.ofNat 32 (bytesLe bs o 4)

/-- Words as bytes. -/
def wordsBytes (ws : List Word) : List Byte := ws.flatMap (fun w => leBytes 4 w.toNat)

/-- Zero bytes. -/
def zeroBytes (n : Nat) : List Byte := List.replicate n 0

/-- Bytes `o` up of a byte list replaced by `new`. -/
def bytesPut (bs : List Byte) (o : Nat) (new : List Byte) : List Byte :=
  bs.take o ++ new ++ bs.drop (o + new.length)

/-! ## Bit fields -/

/-- Bits `hi` to `lo` of a number. -/
def bits (v hi lo : Nat) : Nat := (v / 2 ^ lo) % 2 ^ (hi + 1 - lo)

/-- One bit of a number. -/
def bit (v n : Nat) : Bool := v.testBit n

/-- The mask of bits `hi` to `lo` of a word. -/
def fieldMask (hi lo : Nat) : Word := BitVec.ofNat 32 ((2 ^ (hi + 1 - lo) - 1) * 2 ^ lo)

/-- Bits `hi` to `lo` of a word. -/
def field (w : Word) (hi lo : Nat) : Nat := bits w.toNat hi lo

/-- Bits `hi` to `lo` of a word replaced. -/
def putField (w : Word) (hi lo : Nat) (v : Nat) : Word :=
  (w &&& ~~~(fieldMask hi lo)) ||| (BitVec.ofNat 32 (v * 2 ^ lo) &&& fieldMask hi lo)

/-- A Bool as 0 or 1. -/
def b2n (b : Bool) : Nat := if b then 1 else 0

/-- `n` rounded up to a multiple of `k`. -/
def roundUp (n k : Nat) : Nat := (n + k - 1) / k * k

/-! ## Lists -/

/-- The first element that `p` holds of, changed by `f`; the others untouched. -/
def updFirst {α : Type} (p : α → Bool) (f : α → α) : List α → List α
  | [] => []
  | x :: t => if p x then f x :: t else x :: updFirst p f t

/-- Every element that `p` holds of, changed by `f`. -/
def updAll {α : Type} (p : α → Bool) (f : α → α) (l : List α) : List α := l.map (fun x => if p x then f x else x)

/-- The first element that `p` holds of, taken out. -/
def dropFirst {α : Type} (p : α → Bool) : List α → List α
  | [] => []
  | x :: t => if p x then t else x :: dropFirst p t

/-- The element of a list with the least key, the first of those that tie. -/
def leastBy {α : Type} (key : α → Nat) : List α → Option α
  | [] => none
  | x :: t =>
    match leastBy key t with
    | none => some x
    | some y => if key x ≤ key y then some x else some y

/-- `x` put into a list unless it is there. -/
def addNew {α : Type} [DecidableEq α] (l : List α) (x : α) : List α := if x ∈ l then l else l ++ [x]

/-- An element put into a list sorted by `lt`, after those it is not less than. -/
def insertBy {α : Type} (lt : α → α → Bool) (x : α) : List α → List α
  | [] => [x]
  | y :: t => if lt x y then x :: y :: t else y :: insertBy lt x t

/-- A list sorted by `lt`, stably. -/
def sortBy {α : Type} (lt : α → α → Bool) (l : List α) : List α :=
  l.foldl (fun acc x => insertBy lt x acc) []

/-- The numbers of a 64-bit mask's set bits. -/
def maskBits (m : Mask) : List Nat := (List.range 64).filter (fun i => m.getLsbD i)

/-- The mask with one bit set. -/
def maskOne (i : Nat) : Mask := BitVec.ofNat 64 (2 ^ i)

/-- The number of set bits of a mask. -/
def maskCount (m : Mask) : Nat := (maskBits m).length

end Sys2Proof.Machine
end

