-- ==== Sys2Proof/Machine/Numeric.lean ====
section
/-! DEFINITION. Number formats and exact arithmetic (R271 to R276, R286): exact reals as fractions, rounding by R275 to
nearest and directed, the internal formats W24 and W53 of R131, and the functions of R286 that are not published. -/

namespace Sys2Proof.Machine

/-! ## Exact reals -/

/-- An exact rational value num ÷ den, with den positive. -/
structure Q where
  num : Int
  den : Nat
  deriving DecidableEq, Repr

/-- An integer as an exact value. -/
def Q.int (n : Int) : Q := { num := n, den := 1 }

/-- 2 to the power `e`. -/
def Q.pow2 (e : Int) : Q :=
  if 0 ≤ e then { num := 2 ^ e.toNat, den := 1 } else { num := 1, den := 2 ^ (-e).toNat }

def Q.add (a b : Q) : Q := { num := a.num * b.den + b.num * a.den, den := a.den * b.den }
def Q.neg (a : Q) : Q := { num := -a.num, den := a.den }
def Q.sub (a b : Q) : Q := a.add b.neg
def Q.mul (a b : Q) : Q := { num := a.num * b.num, den := a.den * b.den }

/-- The quotient; 0 where the divisor is 0, which no caller asks for. -/
def Q.div (a b : Q) : Q :=
  if b.num = 0 then { num := 0, den := 1 }
  else { num := a.num * b.den * b.num.sign, den := a.den * b.num.natAbs }

def Q.lt (a b : Q) : Bool := decide (a.num * b.den < b.num * a.den)
def Q.le (a b : Q) : Bool := decide (a.num * b.den ≤ b.num * a.den)
def Q.eq (a b : Q) : Bool := decide (a.num * b.den = b.num * a.den)
def Q.isZero (a : Q) : Bool := decide (a.num = 0)
def Q.isNeg (a : Q) : Bool := decide (a.num < 0)
def Q.abs (a : Q) : Q := { num := a.num.natAbs, den := a.den }
def Q.max (a b : Q) : Q := if a.le b then b else a
def Q.min (a b : Q) : Q := if a.le b then a else b
def Q.sum (l : List Q) : Q := l.foldl Q.add (Q.int 0)

/-- ⌊log₂ (n ÷ d)⌋ of a positive fraction. -/
def flog2Nat (n d : Nat) : Int :=
  let k : Int := (Nat.log2 n : Int) - (Nat.log2 d : Int)
  let ok := if 0 ≤ k then decide (d * 2 ^ k.toNat ≤ n) else decide (d ≤ n * 2 ^ (-k).toNat)
  if ok then k else k - 1

/-- ⌊log₂ |v|⌋ of a non-zero value. -/
def Q.log2 (v : Q) : Int := flog2Nat v.num.natAbs v.den

/-! ## Rounding (R131, R275) -/

/-- The directions of rounding: to nearest with ties to even, toward −∞, toward +∞. -/
inductive RMode where
  | near | down | up
  deriving DecidableEq, Repr

/-- A magnitude n ÷ d rounded to an integer; `up` here means away from zero. -/
def roundNat (n d : Nat) (near up : Bool) : Nat :=
  let q := n / d
  let r := n % d
  if near then (if d < 2 * r ∨ (2 * r = d ∧ q % 2 = 1) then q + 1 else q)
  else if up ∧ r ≠ 0 then q + 1 else q

/-- Whether a mode points away from zero for a value of the given sign. -/
def RMode.away (m : RMode) (neg : Bool) : Bool :=
  match m with
  | .near => false
  | .down => neg
  | .up => !neg

/-- A value rounded to a significand of `p` bits, with an unbounded exponent. -/
def Q.round (v : Q) (p : Nat) (m : RMode) : Q :=
  if v.num = 0 then Q.int 0
  else
    let q : Int := v.log2 - (p : Int) + 1
    let n := v.num.natAbs
    let k := if 0 ≤ q then roundNat n (v.den * 2 ^ q.toNat) (decide (m = .near)) (m.away v.isNeg)
      else roundNat (n * 2 ^ (-q).toNat) v.den (decide (m = .near)) (m.away v.isNeg)
    let w : Q := if 0 ≤ q then { num := k * 2 ^ q.toNat, den := 1 } else { num := k, den := 2 ^ (-q).toNat }
    if v.isNeg then w.neg else w

/-- The W24 and W53 roundings of R131. -/
def rn24 (v : Q) : Q := v.round 24 .near
def rd24 (v : Q) : Q := v.round 24 .down
def ru24 (v : Q) : Q := v.round 24 .up
def rn53 (v : Q) : Q := v.round 53 .near

/-- The nearest integer, ties to even (R275). -/
def Q.rint (v : Q) : Int :=
  let k : Int := roundNat v.num.natAbs v.den true false
  if v.isNeg then -k else k

/-- ⌊v⌋. -/
def Q.floor (v : Q) : Int := v.num / (v.den : Int)

/-- trunc(v ÷ 2^e) × 2^e, toward zero. -/
def Q.truncAt (v : Q) (e : Int) : Q :=
  let n := v.num.natAbs
  let k := if 0 ≤ e then n / (v.den * 2 ^ e.toNat) else n * 2 ^ (-e).toNat / v.den
  let w := (Q.int k).mul (Q.pow2 e)
  if v.isNeg then w.neg else w

/-! ## Square root -/

/-- ⌊√n⌋, bit by bit from the top. -/
def isqrt (n : Nat) : Nat :=
  (List.range (Nat.log2 n / 2 + 1)).foldr (fun i r => if (r + 2 ^ i) * (r + 2 ^ i) ≤ n then r + 2 ^ i else r) 0

/-- A value that rounds to any significand of at most 64 bits, in every direction, as √v does, for v not negative: the
root cut after 80 bits, with a sticky bit below. -/
def Q.sqrt (v : Q) : Q :=
  if v.num ≤ 0 then Q.int 0
  else
    let e := v.log2
    let t : Int := 80 - e / 2
    let sc := v.mul (Q.pow2 (2 * t))
    let n := sc.num.natAbs / sc.den
    let r := isqrt n
    let exact := decide (r * r * sc.den = sc.num.natAbs)
    (Q.int (2 * r + (if exact then 0 else 1))).mul (Q.pow2 (-(t + 1)))

/-! ## Formats (R271, R273) -/

/-- A value of a floating format: NaN, an infinity (negative or not), or a finite value. -/
inductive Fp where
  | nan
  | inf (neg : Bool)
  | fin (q : Q)
  deriving DecidableEq, Repr

/-- A binary format: exponent bits and mantissa bits. -/
structure Fmt where
  eb : Nat
  mb : Nat
  deriving DecidableEq, Repr

def fmt32 : Fmt := { eb := 8, mb := 23 }
def fmt16 : Fmt := { eb := 5, mb := 10 }
def fmtB : Fmt := { eb := 8, mb := 7 }
def fmt64 : Fmt := { eb := 11, mb := 52 }

def Fmt.bias (f : Fmt) : Nat := 2 ^ (f.eb - 1) - 1

/-- A code read (R273): subnormals and every zero read as +0, every NaN code is NaN. -/
def Fmt.read (f : Fmt) (c : Nat) : Fp :=
  let m := c % 2 ^ f.mb
  let e := c / 2 ^ f.mb % 2 ^ f.eb
  let neg := (c / 2 ^ (f.mb + f.eb)) % 2 = 1
  if e = 2 ^ f.eb - 1 then (if m = 0 then .inf neg else .nan)
  else if e = 0 then .fin (Q.int 0)
  else
    let v := (Q.int (2 ^ f.mb + m : Nat)).mul (Q.pow2 ((e : Int) - (f.bias : Int) - (f.mb : Int)))
    .fin (if neg then v.neg else v)

/-- The canonical NaN (R273). -/
def Fmt.nan (f : Fmt) : Nat := (2 ^ f.eb - 1) * 2 ^ f.mb + 2 ^ (f.mb - 1)

/-- The infinity of a sign. -/
def Fmt.infCode (f : Fmt) (neg : Bool) : Nat := (2 ^ f.eb - 1) * 2 ^ f.mb + (if neg then 2 ^ (f.mb + f.eb) else 0)

/-- The largest finite code of a sign. -/
def Fmt.maxCode (f : Fmt) (neg : Bool) : Nat := (2 ^ f.eb - 1) * 2 ^ f.mb - 1 + (if neg then 2 ^ (f.mb + f.eb) else 0)

/-- A value of `mb` + 1 significand bits, at least the smallest normal, as a code, if it does not exceed the largest
finite value. -/
def Fmt.code (f : Fmt) (v : Q) : Option Nat :=
  let e := v.log2
  let be : Int := e + (f.bias : Int)
  if (2 ^ f.eb - 1 : Nat) ≤ be then none
  else
    let s := (v.abs).mul (Q.pow2 ((f.mb : Int) - e))
    some (be.toNat * 2 ^ f.mb + (s.num.natAbs / s.den - 2 ^ f.mb) + (if v.isNeg then 2 ^ (f.mb + f.eb) else 0))

/-- An exact value rounded into a format (R275): the code, and whether it overflowed (to nearest: the caller states the
outcome; the infinity of the sign stands here). -/
def Fmt.roundO (f : Fmt) (v : Q) (m : RMode) : Nat × Bool :=
  let neg := v.isNeg
  let sgn := if neg then 2 ^ (f.mb + f.eb) else 0
  let minN := Q.pow2 (1 - (f.bias : Int))
  if v.isZero then (0, false)
  else if v.abs.lt minN then
    (if (match m with
        | .near => (Q.pow2 (-(f.bias : Int))).lt v.abs
        | .down | .up => m.away neg) then (2 ^ f.mb + sgn, false) else (0, false))
  else
    match f.code (v.round (f.mb + 1) m) with
    | some c => (c, false)
    | none =>
      match m with
      | .near => (f.infCode neg, true)
      | .down | .up => if m.away neg then (f.infCode neg, true) else (f.maxCode neg, true)

/-- An exact value rounded into a format, an overflow giving the infinity of its sign. -/
def Fmt.round (f : Fmt) (v : Q) (m : RMode) : Nat := (f.roundO v m).1

/-- A value written in a format, to nearest, with canonical NaN. -/
def Fmt.write (f : Fmt) (x : Fp) : Nat :=
  match x with
  | .nan => f.nan
  | .inf neg => f.infCode neg
  | .fin v => f.round v .near

/-- FP32 codes. -/
def f32 (w : Word) : Fp := fmt32.read w.toNat
def toF32 (x : Fp) : Word := BitVec.ofNat 32 (fmt32.write x)
def rn32 (v : Q) : Word := BitVec.ofNat 32 (fmt32.round v .near)
def rd32 (v : Q) : Word := BitVec.ofNat 32 (fmt32.round v .down)
def ru32 (v : Q) : Word := BitVec.ofNat 32 (fmt32.round v .up)

/-- The canonical NaN and the infinities of FP32. -/
def nan32 : Word := 0x7FC00000
def inf32 : Word := 0x7F800000
def negInf32 : Word := 0xFF800000

/-- The finite value of a code, 0 where it is none. -/
def Fp.val (x : Fp) : Q :=
  match x with
  | .fin q => q
  | .nan | .inf _ => Q.int 0

def Fp.isFin (x : Fp) : Bool :=
  match x with
  | .fin _ => true
  | .nan | .inf _ => false

def Fp.isNan (x : Fp) : Bool :=
  match x with
  | .nan => true
  | .fin _ | .inf _ => false

/-- The finite value of an FP32 code. -/
def v32 (w : Word) : Q := (f32 w).val

/-- Comparisons of values, exact, false where either is NaN. -/
def Fp.lt (a b : Fp) : Bool :=
  match a, b with
  | .nan, _ => false
  | _, .nan => false
  | .inf na, .inf nb => na && !nb
  | .inf na, .fin _ => na
  | .fin _, .inf nb => !nb
  | .fin x, .fin y => x.lt y

def Fp.eq (a b : Fp) : Bool :=
  match a, b with
  | .nan, _ => false
  | _, .nan => false
  | .inf na, .inf nb => na == nb
  | .inf _, .fin _ => false
  | .fin _, .inf _ => false
  | .fin x, .fin y => x.eq y

def Fp.le (a b : Fp) : Bool := a.lt b || a.eq b

/-- A sum by R286: NaN of a NaN, ∞ − ∞ NaN; otherwise exact. -/
def Fp.add (a b : Fp) : Fp :=
  match a, b with
  | .nan, _ => .nan
  | _, .nan => .nan
  | .inf na, .inf nb => if na = nb then .inf na else .nan
  | .inf na, .fin _ => .inf na
  | .fin _, .inf nb => .inf nb
  | .fin x, .fin y => .fin (x.add y)

def Fp.neg (a : Fp) : Fp :=
  match a with
  | .nan => .nan
  | .inf n => .inf (!n)
  | .fin x => .fin x.neg

/-- A product by R286: 0 × ∞ is NaN; otherwise exact. -/
def Fp.mul (a b : Fp) : Fp :=
  match a, b with
  | .nan, _ => .nan
  | _, .nan => .nan
  | .inf na, .inf nb => .inf (na != nb)
  | .inf na, .fin y => if y.isZero then .nan else .inf (na != y.isNeg)
  | .fin x, .inf nb => if x.isZero then .nan else .inf (nb != x.isNeg)
  | .fin x, .fin y => .fin (x.mul y)

/-- A quotient by R286: 0 ÷ 0 and ∞ ÷ ∞ are NaN; a non-zero number divided by +0 is the infinity of its sign. -/
def Fp.div (a b : Fp) : Fp :=
  match a, b with
  | .nan, _ => .nan
  | _, .nan => .nan
  | .inf _, .inf _ => .nan
  | .inf na, .fin y => .inf (na != y.isNeg)
  | .fin _, .inf _ => .fin (Q.int 0)
  | .fin x, .fin y => if y.isZero then (if x.isZero then .nan else .inf x.isNeg) else .fin (x.div y)

/-- A square root by R286. -/
def Fp.sqrt (a : Fp) : Fp :=
  match a with
  | .nan => .nan
  | .inf neg => if neg then .nan else .inf false
  | .fin x => if x.isNeg then .nan else .fin x.sqrt

/-- The value of an F4 code (R272). -/
def f4Read (c : Nat) : Fp :=
  let m := c % 2
  let e := c / 2 % 4
  let neg := 8 ≤ c % 16
  if c % 16 = 8 then .nan
  else if e = 0 then .fin (Q.int 0)
  else
    let v : Q := { num := (2 ^ (e - 1) * (2 + m) : Nat), den := 2 }
    .fin (if neg then v.neg else v)

/-- A value rounded into F4, with whether it saturated (R275, R285): ±6 at the ends, NaN 0b1000. -/
def f4Write (x : Fp) : Nat × Bool :=
  match x with
  | .nan => (8, false)
  | .inf neg => (if neg then 15 else 7, true)
  | .fin v =>
    let sgn := if v.isNeg then 8 else 0
    if v.abs.le { num := 1, den := 2 } then (0, false)
    else if v.abs.lt (Q.int 1) then (2 + sgn, false)
    else
      let r := v.abs.round 2 .near
      if (Q.int 6).lt r then (7 + sgn, true)
      else
        let e := r.log2
        let half := r.mul (Q.pow2 (1 - e))
        ((e.toNat + 1) * 2 + (half.num.natAbs / half.den - 2) + sgn, false)

/-- A value rounded into an integer range, with whether it saturated (R275, R285): NaN gives 0. -/
def intWrite (lo hi : Int) (x : Fp) : Int × Bool :=
  match x with
  | .nan => (0, false)
  | .inf neg => (if neg then lo else hi, true)
  | .fin v => let r := v.rint; if r < lo then (lo, true) else if hi < r then (hi, true) else (r, false)

/-- The signed value of the low `n` bits of a number. -/
def signedOf (n v : Nat) : Int := if v % 2 ^ n < 2 ^ (n - 1) then (v % 2 ^ n : Nat) else (v % 2 ^ n : Nat) - (2 ^ n : Nat)

/-! ## The unpublished functions of R286

Away from its special values each is the opaque fixed function of Config where that lies within the spec's bound, and
the rounded value elsewhere (assumption log 3). -/

/-- One ulp of a value rounded into FP32. -/
def ulp32 (v : Q) : Q :=
  let r := v.round 24 .near
  if r.isZero then Q.pow2 (-149) else Q.pow2 (max (r.log2 - 23) (-149))

/-- `FRCP`. -/
def fRcp (x : Fp) : Word :=
  match x with
  | .nan => nan32
  | .inf _ => 0
  | .fin v =>
    if v.isZero then inf32
    else
      let e := (Q.int 1).div v
      let own := rn32 e
      let c := Config.frcp (rn32 v)
      match f32 own, f32 c with
      | .fin _, .fin y => if (y.sub e).abs.le (ulp32 e) then toF32 (.fin y) else own
      | _, _ => own

/-- `FRSQ`. -/
def fRsq (x : Fp) : Word :=
  match x with
  | .nan => nan32
  | .inf neg => if neg then nan32 else 0
  | .fin v =>
    if v.isZero then inf32
    else if v.isNeg then nan32
    else
      let e := ((Q.int 1).div v).sqrt
      let own := rn32 e
      match f32 (Config.frsq (rn32 v)) with
      | .fin y => if (y.sub e).abs.le (ulp32 e) then toF32 (.fin y) else own
      | .nan | .inf _ => own

/-- 2^(2^−i) to 80 fraction bits, for i = 1, 2, …, 64: each the root of the one before. -/
def exp2Consts : Nat → Nat → List Nat
  | 0, _ => []
  | k + 1, c => let r := isqrt (c * 2 ^ 80); r :: exp2Consts k r

/-- A lower bound of 2^x within one part in 2^60. -/
def exp2Low (x : Q) : Q :=
  let n := x.floor
  let f := (x.sub (Q.int n)).mul (Q.pow2 64)
  let fi := (f.floor).toNat
  let cs := exp2Consts 64 (2 ^ 81)
  let m : Nat := (cs.zipIdx).foldl (fun acc c => if fi.testBit (63 - c.2) then acc * c.1 / 2 ^ 80 else acc) (2 ^ 80)
  (Q.int m).mul (Q.pow2 (n - 80))

/-- Its upper bound. -/
def exp2High (x : Q) : Q := (exp2Low x).mul { num := 2 ^ 60 + 1, den := 2 ^ 60 }

/-- `FEXP2`. -/
def fExp2 (x : Fp) : Word :=
  match x with
  | .nan => nan32
  | .inf neg => if neg then 0 else inf32
  | .fin v =>
    if v.lt (Q.int (-200)) then 0
    else if (Q.int 200).lt v then inf32
    else
      let lo := exp2Low v
      let hi := exp2High v
      let own := if (Q.int v.floor).eq v then rn32 (Q.pow2 v.floor) else rn32 lo
      let u := (ulp32 lo).mul (Q.int 2)
      match f32 own, f32 (Config.fexp2 (rn32 v)) with
      | .fin _, .fin y => if (lo.sub u).le y && y.le (hi.add u) then toF32 (.fin y) else own
      | _, _ => own

/-- log₂ of a value from 1 up to 2, to `k` fraction bits, by repeated squaring in 90 fraction bits. -/
def log2Frac : Nat → Nat → Nat
  | 0, _ => 0
  | k + 1, y =>
    let s := y * y / 2 ^ 90
    if 2 ^ 91 ≤ s then 2 ^ k + log2Frac k (s / 2) else log2Frac k s

/-- `FLOG2`. -/
def fLog2 (x : Fp) : Word :=
  match x with
  | .nan => nan32
  | .inf neg => if neg then nan32 else inf32
  | .fin v =>
    if v.isZero then negInf32
    else if v.isNeg then nan32
    else
      let e := v.log2
      let s := v.mul (Q.pow2 (90 - e))
      let l := (Q.int e).add { num := log2Frac 40 (s.num.natAbs / s.den), den := 2 ^ 40 }
      let own := rn32 l
      let b := Q.max ((ulp32 l).mul (Q.int 2)) (Q.pow2 (-22))
      match f32 (Config.flog2 (rn32 v)) with
      | .fin y => if (exp2Low (y.sub b)).le v && v.le (exp2High (y.add b)) then toF32 (.fin y) else own
      | .nan | .inf _ => own

end Sys2Proof.Machine
end

