-- ==== Sys2Proof/Machine/Operands.lean ====
section
/-! DEFINITION. Operand forms of core instructions (R235, R236, R513, R514): the instruction word, thread and uniform registers,
the sources a field names, the destination, and which encodings are legal. -/

namespace Sys2Proof.Machine

/-! ## The instruction word (R235) -/

/-- The word of an instruction with a class, an operation and the fields below them. -/
def insWord (cls op : Nat) (f : Fields) : BitVec 64 :=
  BitVec.ofNat 64 (f.imm.toNat + 2 ^ 16 * f.sc.toNat + 2 ^ 24 * f.sb.toNat + 2 ^ 32 * f.sa.toNat + 2 ^ 40 * f.dst.toNat
    + 2 ^ 48 * b2n f.ud + 2 ^ 49 * b2n f.ib + 2 ^ 50 * b2n f.ua + 2 ^ 51 * f.typ.toNat + 2 ^ 54 * op + 2 ^ 60 * cls)

/-! ## Registers (R220) -/

/-- Thread register `r` of thread `t`: 255 reads as zero (R236); below v32 a register nothing has filled reads zero, above it
holds an undefined value (R230, R232). -/
def Group.vreg (g : Group) (t r : Nat) : Word :=
  if r = 255 then 0
  else match SMap.find g.vregs (t * 256 + r) with
    | some w => w
    | none => if r < 32 then 0 else Config.undefReg g.seed t r

/-- Thread register `r` of thread `t` written; 255 discards (R236). -/
def Group.setV (g : Group) (t r : Nat) (w : Word) : Group :=
  if r = 255 then g else { g with vregs := SMap.put g.vregs (t * 256 + r) w }

/-- Uniform register `r`: a field names it with its low 6 bits (R236); u16 upward hold undefined values at launch (R230). -/
def Group.ureg (g : Group) (r : Nat) : Word :=
  match SMap.find g.uregs (r % 64) with
  | some w => w
  | none => Config.undefReg g.seed 64 (r % 64)

/-- A uniform register written. -/
def Group.setU (g : Group) (r : Nat) (w : Word) : Group := { g with uregs := SMap.put g.uregs (r % 64) w }

/-- Registers `r` up of a thread written with words. -/
def Group.setVs (g : Group) (t r : Nat) : List Word → Group
  | [] => g
  | w :: ws => (g.setV t r w).setVs t (r + 1) ws

/-- Uniform registers `r` up written with words. -/
def Group.setUs (g : Group) (r : Nat) : List Word → Group
  | [] => g
  | w :: ws => (g.setU r w).setUs (r + 1) ws

/-! ## Active threads -/

/-- The active threads, lowest first. -/
def Group.threads (g : Group) : List Nat := maskBits g.active

/-- The lowest-numbered active thread, 0 where there is none. -/
def Group.lowest (g : Group) : Nat := g.threads.headD 0

/-! ## Sources and destinations -/

/-- Word `k` of source A for a thread: register `SA` + k, or uniform register `SA` + k (R514). -/
def Group.srcA (g : Group) (f : Fields) (t : Nat) (k : Nat := 0) : Word :=
  if f.ua then g.ureg (f.sa.toNat + k) else g.vreg t (f.sa.toNat + k)

/-- Source B of an integer operation: register `SB`, or `IMM16` sign-extended (R236). -/
def Group.srcB (g : Group) (f : Fields) (t : Nat) : Word :=
  if f.ib then f.imm.signExtend 32 else g.vreg t f.sb.toNat

/-- Source B of a floating operation: with `IB`, the BF16 pattern of FP32, or the constant in each half (R236). -/
def Group.srcBF (g : Group) (f : Fields) (t : Nat) : Word :=
  if f.ib then (if f.typ = 0 then BitVec.ofNat 32 (f.imm.toNat * 2 ^ 16) else BitVec.ofNat 32 (f.imm.toNat * 2 ^ 16 + f.imm.toNat))
  else g.vreg t f.sb.toNat

/-- Source C: register `SC`. -/
def Group.srcC (g : Group) (f : Fields) (t : Nat) : Word := g.vreg t f.sc.toNat

/-- The words of a result put where the destination says: for each active thread its own, or with `UD` the lowest active
thread's into uniform registers (R236). -/
def Group.putLanes (g : Group) (f : Fields) (val : Nat → List Word) : Group :=
  if f.ud then (if g.active = 0 then g else g.setUs f.dst.toNat (val g.lowest))
  else g.threads.foldl (fun h t => h.setVs t f.dst.toNat (val t)) g

/-! ## Legal encodings (R236, R237, R513, R514) -/

/-- The fields of an instruction that name registers: how many registers from each field, 0 where the instruction does not use
the field; and the values of `TYPE` and `IB` it takes. -/
structure Form where
  typs : List Nat
  ib   : Bool
  dst  : Nat
  a    : Nat
  b    : Nat
  c    : Nat
  /-- The destination is read as well (a pack, R513). -/
  rd   : Bool := false
  /-- Source B is a run of up to 28 registers (the payload of `SEND`, R258). -/
  run  : Bool := false
  deriving DecidableEq, Repr

/-- `n` thread registers from `r` are names the instruction may use: aligned, and each below NREG or 255 (R236). -/
def Group.regsOk (g : Group) (r n : Nat) : Bool :=
  decide (n ≤ 1 ∨ r % n = 0) && (List.range n).all (fun k => decide (r + k = 255) || decide (r + k < g.nreg))

/-- The registers of a `SEND` payload: at most 28, none past `v`(NREG − 1) (R236, R258). -/
def Group.runOk (g : Group) (r n : Nat) : Bool := decide (n ≤ 28) && (decide (n = 0) || decide (r + n ≤ g.nreg))

/-- `n` uniform registers from a field are aligned. -/
def uregsOk (r n : Nat) : Bool := decide (n ≤ 1 ∨ r % 64 % n = 0)

/-- The operands and the mode of an encoding fit a form. -/
def Group.fits (g : Group) (m : Form) (f : Fields) : Bool :=
  decide (f.typ.toNat ∈ m.typs) && (m.ib || !f.ib)
  && (if f.ud then uregsOk f.dst.toNat m.dst else g.regsOk f.dst.toNat m.dst)
  && (if f.ua then uregsOk f.sa.toNat m.a else g.regsOk f.sa.toNat m.a)
  && (f.ib || (if m.run then g.runOk f.sb.toNat m.b else g.regsOk f.sb.toNat m.b))
  && g.regsOk f.sc.toNat m.c

/-- `n` register numbers from `r`. -/
def regSpan (r n : Nat) : List Nat := (List.range n).map (fun k => r + k)

/-- The thread registers a form reads. -/
def Form.reads (m : Form) (f : Fields) : List Nat :=
  (if f.ua then [] else regSpan f.sa.toNat m.a) ++ (if f.ib then [] else regSpan f.sb.toNat m.b) ++ regSpan f.sc.toNat m.c
    ++ (if m.rd && !f.ud then regSpan f.dst.toNat m.dst else [])

/-- The thread registers a form writes. -/
def Form.writes (m : Form) (f : Fields) : List Nat := if f.ud then [] else regSpan f.dst.toNat m.dst

/-! ## The form of every operation (R513, R514) -/

/-- One source, two, three, or none, with `TYPE` 0. -/
def form1 : Form := { typs := [0], ib := false, dst := 1, a := 1, b := 0, c := 0 }
def form2 : Form := { typs := [0], ib := true, dst := 1, a := 1, b := 1, c := 0 }
def form3 : Form := { typs := [0], ib := true, dst := 1, a := 1, b := 1, c := 1 }
def form0 : Form := { typs := [0], ib := false, dst := 0, a := 0, b := 0, c := 0 }

/-- Class INT. -/
def formInt (op : Nat) : Form :=
  match op with
  | 0x03 => { form2 with typs := [0, 1] }
  | 0x0E => form3
  | 0x0F | 0x10 => form1
  | 0x11 => { form2 with a := 0 }
  | _ => form2

/-- Class FLT by its number of sources; every operation takes `IB` 0 or 1. -/
def formF (n : Nat) : Form := { typs := [0, 1, 2], ib := true, dst := 1, a := 1, b := if 2 ≤ n then 1 else 0, c := if 3 ≤ n then 1 else 0 }

/-- Class FLT. -/
def formFlt (op : Nat) : Form :=
  match op with
  | 0x00 | 0x01 | 0x02 | 0x04 | 0x05 | 0x0B => formF 2
  | 0x03 => formF 3
  | _ => formF 1

/-- Class CVT by the greatest `TYPE` (R513). -/
def formC (top : Nat) : Form := { typs := List.range (top + 1), ib := false, dst := 1, a := 1, b := 0, c := 0 }

/-- A pack reads the destination as well. -/
def formPk (top : Nat) : Form := { formC top with rd := true }

/-- Class CVT. -/
def formCvt (op : Nat) : Form :=
  match op with
  | 0x00 | 0x01 | 0x02 | 0x03 => formC 0
  | 0x04 | 0x05 => formC 1
  | 0x06 => { formC 0 with dst := 2 }
  | 0x07 => { formC 0 with a := 2 }
  | 0x08 | 0x09 => formPk 3
  | 0x0A | 0x0B | 0x0C => formPk 7
  | 0x0D | 0x0E => formC 3
  | _ => formC 7

/-- Class CMP: comparisons, and predicate logic. -/
def formCmp (op : Nat) : Form := if op ≤ 2 then { form0 with a := 1, b := 1 } else form0

/-- Bytes of a `TYPE`, and registers that hold them (R237, R514). -/
def memBytes (typ : Nat) : Nat := 2 ^ typ
def memRegs (typ : Nat) : Nat := if typ ≤ 2 then 1 else 2 ^ (typ - 2)

/-- Class MEM: loads and stores, with `a` address registers. -/
def formLoad (f : Fields) (a : Nat) : Form := { typs := [0, 1, 2, 3, 4], ib := false, dst := memRegs f.typ.toNat, a := a, b := 0, c := 0 }
def formStore (f : Fields) (a : Nat) : Form := { typs := [0, 1, 2, 3, 4], ib := false, dst := 0, a := a, b := memRegs f.typ.toNat, c := 0 }

/-- Class MEM. -/
def formMem (op : Nat) (f : Fields) : Form :=
  match op with
  | 0 => formLoad f 1
  | 1 => formStore f 1
  | 3 => { form0 with a := 2, b := 1 }
  | 5 => formStore f 2
  | _ => formLoad f 2

/-- Class MTX (R254): source A only. -/
def formMtx (op : Nat) : Form := { form0 with typs := if op = 2 then [0, 1, 2, 3] else [0], a := 1 }

/-- Class MSG: `SC`[4:0] of `SEND` counts the payload registers from `SB` (R258). -/
def formMsg (op : Nat) (f : Fields) : Form := if op = 0 then { form0 with dst := 1, a := 1, b := f.sc.toNat % 32, run := true } else form0

/-- The words a slot access moves: `IMM16`[1:0], or all four (R321). -/
def slotWord (f : Fields) : Nat := if f.typ.toNat = 4 then 0 else f.imm.toNat % 4
def slotCount (f : Fields) : Nat := if f.typ.toNat = 4 then 4 else 1

/-- Class WLK. -/
def formWlk (op : Nat) (f : Fields) : Form :=
  match op with
  | 1 => { form0 with typs := [2, 4], dst := slotCount f }
  | 2 => { form0 with typs := [2, 4], a := slotCount f }
  | _ => form0

/-- Class SPC. -/
def formSpc (op : Nat) : Form :=
  match op with
  | 0 => { form1 with a := 0 }
  | 2 => { form1 with dst := 0 }
  | 3 | 4 => form1
  | _ => form0

/-- The form of an operation of a class. -/
def opForm (cls op : Nat) (f : Fields) : Form :=
  match cls with
  | 0 => formInt op
  | 1 => formFlt op
  | 2 => formCvt op
  | 3 => formCmp op
  | 5 => formMem op f
  | 6 => formMtx op
  | 7 => formMsg op f
  | 8 => formWlk op f
  | 9 => formSpc op
  | _ => form0

/-- A legal size of `FILL.L` (R248). -/
def fillSizeOk (n : Nat) : Bool := decide (n ≠ 0) && decide (n ≤ 4096) && decide (n % 64 = 0)

/-- Whether an encoding is legal: it fits its form; `AMASK` and `VOTE` name a uniform pair, `FILL.L` a legal size, and `DST` and `SA` of `RECV`
registers of the group (R236, R248, R260). -/
def Group.legal (g : Group) (cls op : Nat) (f : Fields) : Bool :=
  g.fits (opForm cls op f) f && (match cls, op with
    | 5, 3 => fillSizeOk f.imm.toNat
    | 7, 1 => g.regsOk f.dst.toNat 1 && g.regsOk f.sa.toNat 1
    | 9, 1 | 9, 5 => uregsOk f.dst.toNat 2
    | _, _ => true)

/-- The uniform registers an operation names beyond its form: u63 of calls and `RET`, the target of `CALLR` (R234, R237), the destinations of
`AMASK`, `V2U` and `VOTE` (R514). -/
def ownUregs (cls op : Nat) (f : Fields) : List Nat :=
  match cls, op with
  | 4, 4 | 4, 6 => [63]
  | 4, 5 => [f.sa.toNat, 63]
  | 9, 1 | 9, 5 => regSpan f.dst.toNat 2
  | 9, 2 => [f.dst.toNat]
  | _, _ => []

/-- Every uniform register an operation reads or writes. -/
def opUregs (cls op : Nat) (f : Fields) : List Nat :=
  let m := opForm cls op f
  ((if f.ua then regSpan f.sa.toNat m.a else []) ++ (if f.ud then regSpan f.dst.toNat m.dst else []) ++ ownUregs cls op f).map (· % 64)

/-! ## Words -/

/-- The operations each class lists (R237). -/
def knownOp (cls op : Nat) : Bool :=
  match cls with
  | 0 => decide (op ≤ 0x14)
  | 1 => decide (op ≤ 0x0F)
  | 2 => decide (op ≤ 0x11)
  | 3 => decide (op ≤ 2) || (decide (8 ≤ op) && decide (op ≤ 0xB))
  | 4 => decide (op ≤ 6) || (decide (8 ≤ op) && decide (op ≤ 0xC)) || (decide (0x10 ≤ op) && decide (op ≤ 0x12)) || decide (op = 0x18)
      || decide (op = 0x19) || decide (op = 0x1F)
  | 5 => decide (op ≤ 5)
  | 6 => decide (op ≤ 2)
  | 7 => decide (op ≤ 1)
  | 8 => decide (op ≤ 3)
  | 9 => decide (op ≤ 5)
  | _ => false

/-- Whether the instructions of a class are unit instructions; the others are lane instructions (R225, R237). -/
def unitClass (cls : Nat) : Bool := decide (5 ≤ cls) && decide (cls ≤ 8)

/-- `CLASS`, `OP` and the fields of a word (R235). -/
def wordClass (w : BitVec 64) : Nat := w.toNat / 2 ^ 60
def wordOp (w : BitVec 64) : Nat := w.toNat / 2 ^ 54 % 64
def wordFields (w : BitVec 64) : Fields :=
  { typ := w.extractLsb' 51 3, ua := w.getLsbD 50, ib := w.getLsbD 49, ud := w.getLsbD 48, dst := w.extractLsb' 40 8, sa := w.extractLsb' 32 8,
    sb := w.extractLsb' 24 8, sc := w.extractLsb' 16 8, imm := w.extractLsb' 0 16 }

end Sys2Proof.Machine
end

