-- ==== Sys2Proof/Machine/Flags.lean ====
section
/-! DEFINITION. Predicates and conditions of core programs (R220, R237, R289, R514), and the masks of the mask stack (R240). The
core has no flags register: predicates p0 to p7 are its flags. -/

namespace Sys2Proof.Machine

/-! ## Predicates -/

/-- A predicate by the low 3 bits of a field: p7 reads as the launch mask (R220, R236). What the others hold at launch is not
stated (a free value). -/
def Group.pred (g : Group) (p : Nat) : Mask :=
  if p % 8 = 7 then g.launch
  else match SMap.find g.preds (p % 8) with
    | some m => m
    | none => Config.undefReg g.seed 66 (p % 8) ++ Config.undefReg g.seed 65 (p % 8)

/-- A predicate written for the active threads; writes to p7 are discarded (R220, R237). -/
def Group.setPred (g : Group) (p : Nat) (m : Mask) : Group :=
  if p % 8 = 7 then g else { g with preds := SMap.put g.preds (p % 8) ((g.pred p &&& ~~~g.active) ||| (m &&& g.active)) }

/-- A mask from a test of each thread. -/
def laneMask (p : Nat → Bool) : Mask := (List.range 64).foldl (fun m t => if p t then m ||| maskOne t else m) 0

/-! ## Conditions (R514) -/

/-- A condition on integers: ordered is always true, unordered always false. -/
def intCond (c : Nat) (eq lt : Bool) : Bool :=
  match c with
  | 0 => eq
  | 1 => !eq
  | 2 => lt
  | 3 => lt || eq
  | 4 => !(lt || eq)
  | 5 => !lt
  | 6 => true
  | _ => false

/-- A condition on floating values: a NaN makes each false but NE and unordered (R289). -/
def fpCond (c : Nat) (a b : Fp) : Bool :=
  if a.isNan || b.isNan then decide (c = 1) || decide (c = 7)
  else intCond c (a.eq b) (a.lt b)

/-- `IMM16`[2:0]. -/
def condOf (f : Fields) : Nat := f.imm.toNat % 8

end Sys2Proof.Machine
end

