-- ==== Sys2Proof/Machine/Formats.lean ====
section
/-! DEFINITION. Scene records as bytes give them: treelet headers (R92), ray-tree nodes (R94 to R105), link, triangle,
instance, custom and neural records (R106 to R112), index headers, probe nodes and probe leaves (R114 to R118), and
ray and query records (R61 to R63, R197). -/

namespace Sys2Proof.Machine

/-- A scene address field with its alignment applied (R76, R77). -/
def sceneField (bs : List Byte) (o align : Nat) : Nat := bytesLe bs o 8 % 2 ^ 40 / align * align

/-- Three FP32 words from an offset. -/
def bytesV3 (bs : List Byte) (o : Nat) : V3 := { x := bytesWord bs o, y := bytesWord bs (o + 4), z := bytesWord bs (o + 8) }

/-- A component of three. -/
def V3.at (v : V3) (a : Nat) : Word := if a = 0 then v.x else if a = 1 then v.y else v.z

/-- Three zeros. -/
def V3.zero : V3 := { x := 0, y := 0, z := 0 }

/-! ## Treelets -/

/-- The units of a treelet that count (R92): a `TL_LEN` below 2 or above 1,024 acts as 1,024. -/
def tlLen (hdr : List Byte) : Nat := let n := bytesLe hdr 0 2 % 2048; if n < 2 ∨ 1024 < n then 1024 else n

/-- `TL_KIND`. -/
def tlKind (hdr : List Byte) : Nat := bytesLe hdr 2 1

/-! ## Nodes -/

/-- `NCLASS` of a node (R94). -/
def nodeClass (bs : List Byte) : Nat := bytesLe bs 0x0F 1 / 64

/-- Whether a ray node is fine. -/
def nodeFine (bs : List Byte) : Bool := decide (nodeClass bs = 2)

/-- `NFLAGS.EXACT`. -/
def nodeExact (bs : List Byte) : Bool := decide (bytesLe bs 0x0F 1 % 2 = 1)

/-- The units a node of a class takes (R101, R102); a probe node's by `NCHILD` and `DIM` (R115). -/
def nodeUnits (cls : Nat) : Nat := if cls = 2 then 2 else 1

/-- The frame origin of a ray node. -/
def nodeOrigin (bs : List Byte) : V3 := bytesV3 bs 0

/-- A frame exponent (R95). -/
def nodeExp (bs : List Byte) (a : Nat) : Int := signedOf 8 (bytesLe bs (0x0C + a) 1)

/-- `NCHILD` of a ray node. -/
def nodeChildren (bs : List Byte) : Nat := bytesLe bs (if nodeFine bs then 0x4A else 0x32) 1 % 16

/-- `CBASE` of a ray node. -/
def nodeCbase (bs : List Byte) : Nat := bytesLe bs (if nodeFine bs then 0x48 else 0x30) 2 % 1024

/-- `CKIND` and `CCOUNT` of a child (R101). -/
def childKind (bs : List Byte) (c : Nat) : Nat := bytesLe bs ((if nodeFine bs then 0x40 else 0x28) + c) 1 / 32
def childCount (bs : List Byte) (c : Nat) : Nat := bytesLe bs ((if nodeFine bs then 0x40 else 0x28) + c) 1 % 32

/-- Units per record of a kind (R101). -/
def kindUnits (k : Nat) : Nat := if k = 0 then 0 else if k = 2 ∨ k = 5 ∨ k = 7 then 2 else 1

/-- A child is empty (R102). -/
def childEmpty (bs : List Byte) (c : Nat) : Bool := decide (childKind bs c = 0) || decide (childCount bs c = 0)

/-- The units a child takes. -/
def childUnits (bs : List Byte) (c : Nat) : Nat :=
  if childEmpty bs c then 0 else childCount bs c * kindUnits (childKind bs c)

/-- The unit at which a child's records begin (R102). -/
def childUnit (bs : List Byte) (c : Nat) : Nat :=
  nodeCbase bs + ((List.range c).map (childUnits bs)).foldl (· + ·) 0

/-- `CMASK` and `CFLAGS` of a child (R104, R105). -/
def childMask (bs : List Byte) (c : Nat) : Nat := if nodeFine bs then bytesLe bs (0x50 + 2 * c) 2 else 0xFFFF
def childFlags (bs : List Byte) (c : Nat) : Nat := if nodeFine bs then bytesLe bs (0x60 + c) 1 else 0

/-- A node record that is malformed by its own content (R95, R98): its origin, exponents and `NCHILD`. -/
def nodeBad (bs : List Byte) : Bool :=
  decide (8 < nodeChildren bs)
  || (List.range 3).any (fun a => decide (nodeExp bs a < -126) || !(f32 ((nodeOrigin bs).at a)).isFin)

/-- The records of a present child that are not malformed (R101, R102): the first of them and how many, none where a count above 1
stands for one record. A record is malformed at unit 0 or past `TL_LEN`. -/
def childGood (bs : List Byte) (len c : Nat) : Nat × Nat :=
  let k := childKind bs c
  if decide (1 < childCount bs c) && (decide (k = 1) || decide (k = 2) || decide (k = 3) || decide (k = 7)) then (0, 0)
  else
    let lo := if childUnit bs c = 0 then 1 else 0
    (lo, min (childCount bs c) ((len - childUnit bs c) / kindUnits k) - lo)

/-- Whether a present child is malformed: it has no record that is not. -/
def childBad (bs : List Byte) (len c : Nat) : Bool := decide ((childGood bs len c).2 = 0)

/-- The format violations of a present child (R119; DEDUCED, assumption log 96): one for each record out of place, one for a count above 1
where one record is allowed. -/
def childViols (bs : List Byte) (len c : Nat) : Nat :=
  let k := childKind bs c
  if decide (1 < childCount bs c) && (decide (k = 1) || decide (k = 2) || decide (k = 3) || decide (k = 7)) then 1
  else childCount bs c - (childGood bs len c).2

/-- The children of kinds 4 to 7 that have an exact-box entry (R103), in child order. -/
def exactChildren (bs : List Byte) : List Nat :=
  (List.range (nodeChildren bs)).filter (fun c => decide (4 ≤ childKind bs c) && !childEmpty bs c)

/-- The unit at which the exact-box table begins, and its units. -/
def exactUnit (bs : List Byte) : Nat := childUnit bs (nodeChildren bs)
def exactUnits (bs : List Byte) : Nat := ((exactChildren bs).length * 32 + 63) / 64

/-- A code of a child's box: planes 0 to 2 are lo, 3 to 5 hi (R97). -/
def childCode (bs : List Byte) (plane c : Nat) : Nat :=
  if nodeFine bs then bytesLe bs (0x10 + 8 * plane + c) 1 else bits (bytesLe bs (0x10 + 4 * plane) 4) (4 * c + 3) (4 * c)

/-- The codes and exponent of a child on an axis: as stored, or through the 4-bit view of a fine node (R99). -/
def childCodes (bs : List Byte) (view : Bool) (c a : Nat) : Nat × Nat × Int :=
  if view && nodeFine bs then (childCode bs a c / 16, childCode bs (3 + a) c / 16, nodeExp bs a + 4)
  else (childCode bs a c, childCode bs (3 + a) c, nodeExp bs a)

/-- Whether a child's box is empty (R98): by its codes as stored, whatever view is tested. -/
def childBoxEmpty (bs : List Byte) (c : Nat) : Bool :=
  (List.range 3).any (fun a => decide (childCode bs (3 + a) c < childCode bs a c))

/-- The lower and the upper face of a child's decoded box on an axis (R98). -/
def childFace (bs : List Byte) (view : Bool) (c a : Nat) : Q × Q :=
  let k := childCodes bs view c a
  let o := v32 ((nodeOrigin bs).at a)
  (o.add ((Q.int k.1).mul (Q.pow2 k.2.2)), o.add ((Q.int (k.2.1 + 1)).mul (Q.pow2 k.2.2)))

/-- A box of six FP32 faces (R103, R112): lo.xyz, hi.xyz from an offset. -/
def boxFaces (bs : List Byte) (o : Nat) : V3 × V3 := (bytesV3 bs o, bytesV3 bs (o + 12))

/-- Such a box is malformed: a NaN or infinite face, or lo above hi. -/
def boxBad (b : V3 × V3) : Bool :=
  (List.range 3).any (fun a => !(f32 (b.1.at a)).isFin || !(f32 (b.2.at a)).isFin || (v32 (b.2.at a)).lt (v32 (b.1.at a)))

/-! ## Link, triangle, instance, custom and neural records -/

/-- A link record's target and expected class (R106). -/
def linkTarget (bs : List Byte) : Nat := sceneField bs 0 64
def linkClass (bs : List Byte) : Nat := bytesLe bs 8 1 % 4

/-- The vertices of triangle `j` in its order, where it is present (R107, R108). -/
def triVerts (bs : List Byte) (j : Nat) : Option (V3 × V3 × V3) :=
  let t := bits (bytesLe bs 0x34 2) (4 * j + 3) (4 * j)
  if t / 8 % 2 = 0 then none
  else
    let v (i : Nat) : V3 := bytesV3 bs (12 * i)
    let om := t % 4
    let a := v (if om = 0 then 1 else 0)
    let b := v (if om ≤ 1 then 2 else 1)
    let c := v (if om ≤ 2 then 3 else 2)
    if t / 4 % 2 = 1 then some (a, c, b) else some (a, b, c)

/-- The flag nibble of triangle `j`. -/
def triFlags (bs : List Byte) (j : Nat) : Nat := bits (bytesLe bs 0x36 2) (4 * j + 3) (4 * j)

/-- Whether three vertices have a coordinate that is not finite. -/
def vertsBad (v : V3 × V3 × V3) : Bool :=
  [v.1, v.2.1, v.2.2].any (fun p => (List.range 3).any (fun a => !(f32 (p.at a)).isFin))

/-- An element of `XFORM`, row `a`, column `b`, as its FP64 code (R110). -/
def xformAt (bs : List Byte) (a b : Nat) : Nat := bytesLe bs (32 * a + 8 * b) 8

/-- An instance record that is malformed by its own content (R110). -/
def instanceBad (bs : List Byte) : Bool :=
  (List.range 12).any (fun i => !(fmt64.read (bytesLe bs (8 * i) 8)).isFin)
  || decide (bytesLe bs 0x70 1 % 4 = 0) || decide (bytesLe bs 0x70 1 % 4 = 3)

/-- A custom or neural leaf that is malformed (R112). -/
def leafBad (neural : Bool) (bs : List Byte) : Bool :=
  let width (v : Nat) : Bool := decide (v % 32 = 0) && decide (32 ≤ v) && decide (v ≤ 1024)
  decide (bytesLe bs 0x18 2 = 0) || boxBad (boxFaces bs 0)
  || (neural && (decide (1 < bytesLe bs 0x30 1) || decide (bytesLe bs 0x31 1 = 0) || decide (8 < bytesLe bs 0x31 1)
    || !width (bytesLe bs 0x32 2)
    || (List.range (bytesLe bs 0x31 1)).any (fun l => !width (bytesLe bs (0x34 + 2 * l) 2))))

/-! ## Probe trees -/

/-- An index header (R114) is malformed. -/
def indexBad (bs : List Byte) : Bool :=
  let dim := bytesLe bs 0 2
  decide (dim % 32 ≠ 0) || decide (dim < 32) || decide (2048 < dim) || decide (1 < bytesLe bs 2 1)
  || (match f32 (bytesWord bs 4) with
    | .fin q => q.le (Q.int 0)
    | .nan | .inf _ => true)

/-- The size of a probe node in units (R115). -/
def probeUnits (nchild dim : Nat) : Nat := 2 + (nchild * dim / 2 + 63) / 64

/-- A probe node is malformed by its own content (R115). -/
def probeNodeBad (bs : List Byte) (dim : Nat) : Bool :=
  decide (nodeClass bs ≠ 3) || decide (16 < bytesLe bs 0 1 % 32) || decide (bytesLe bs 2 2 ≠ dim)
  || (match f32 (bytesWord bs 4) with
    | .fin q => q.le (Q.int 0)
    | .nan | .inf _ => true)

/-- The kind and the unit of a probe node's child. -/
def probeKind (bs : List Byte) (c : Nat) : Nat := bits (bytesLe bs 8 4) (2 * c + 1) (2 * c)
def probeUnit (bs : List Byte) (c : Nat) : Nat := bytesLe bs (0x10 + 2 * c) 2 % 1024

/-- A 4-bit code of a packed row, the lower-indexed element in the low nibble (R115, R118). -/
def nibbleAt (bs : List Byte) (o i : Nat) : Nat := if i % 2 = 0 then bytesLe bs (o + i / 2) 1 % 16 else bytesLe bs (o + i / 2) 1 / 16

/-- A centroid code (R115). -/
def centroidCode (bs : List Byte) (dim c i : Nat) : Int := signedOf 4 (nibbleAt bs (0x80 + c * dim / 2) i)

/-- A radius (R116): a NaN or negative radius is treated as +∞. -/
def probeRadius (bs : List Byte) (o c : Nat) : Fp :=
  match fmt16.read (bytesLe bs (o + 2 * c) 2) with
  | .nan => .inf false
  | .inf _ => .inf false
  | .fin q => if q.isNeg then .inf false else .fin q

/-- The malformed radii of a present child: of `RADIUS` and `ERADIUS` those that are NaN or negative (R116, R119). -/
def badRadii (bs : List Byte) (c : Nat) : Nat :=
  ([0x40, 0x60].filter (fun o => match fmt16.read (bytesLe bs (o + 2 * c) 2) with
    | .nan => true
    | .inf neg => neg
    | .fin q => q.isNeg)).length

/-- Bytes of a vector's codes and group data (R118). -/
def vectorBytes (dim vfmt expand : Nat) (blkexp : Bool) : Nat :=
  (if vfmt % 2 = 1 then dim / 2 else dim) + (if expand = 2 then dim / 32 * 4 else if blkexp then dim / 32 else 0)

/-- A probe leaf record with vectors is malformed (R117, R118). -/
def probeLeafBad (bs : List Byte) (dim : Nat) : Bool :=
  let vf := bytesLe bs 0x18 1
  let ex := bytesLe bs 0x19 1
  decide (3 < vf) || decide (ex % 4 = 3) || (decide (ex % 4 = 1) && decide (vf % 2 = 0))
  || (decide (ex / 4 % 2 = 1) && decide (ex % 4 ≠ 0)) || decide (bytesLe bs 0x1C 2 ≠ dim)
  || decide (bytesLe bs 0x1A 2 < vectorBytes dim vf (ex % 4) (decide (ex / 4 % 2 = 1)))

/-- The value of element `i` of a vector, before `IX_SCALE` (R118). -/
def vectorElem (leaf vec : List Byte) (dim i : Nat) : Fp :=
  let vf := bytesLe leaf 0x18 1
  let ex := bytesLe leaf 0x19 1
  let raw := if vf % 2 = 1 then nibbleAt vec 0 i else bytesLe vec i 1
  let code : Int := match vf with
    | 0 => signedOf 8 raw
    | 1 => signedOf 4 raw
    | _ => raw
  let data := if vf % 2 = 1 then dim / 2 else dim
  match ex % 4 with
  | 1 => fmt16.read (bytesLe leaf (0x20 + 2 * raw) 2)
  | 2 => (fmt16.read (bytesLe vec (data + i / 32 * 4) 2)).mul
      ((Fp.fin (Q.int code)).add (fmt16.read (bytesLe vec (data + i / 32 * 4 + 2) 2)).neg)
  | _ =>
    if ex / 4 % 2 = 1 then
      (let b := bytesLe vec (data + i / 32) 1
       if b = 0 then .fin (Q.int 0) else if b = 255 then .nan else .fin ((Q.int code).mul (Q.pow2 ((b : Int) - 127))))
    else .fin (Q.int code)

/-! ## Ray records -/

/-- A ray record by its format `REC` (R61 to R63). -/
def rayOf (rec0 : Nat) (bs : List Byte) : Ray :=
  let w (o : Nat) : Word := bytesWord bs o
  let z (o : Nat) : BitVec 64 := BitVec.ofNat 64 (bytesLe bs o 4)
  match rec0 with
  | 0 => { long := false, ox := z 0, oy := z 4, oz := z 8, dir := bytesV3 bs 0x0C, tmin := 0, tmax := w 0x18, user := 0,
           mask := BitVec.ofNat 16 (bytesLe bs 0x1E 1), flags := BitVec.ofNat 16 (bytesLe bs 0x1C 2), slot := 0 }
  | 1 => { long := false, ox := z 0, oy := z 4, oz := z 8, dir := bytesV3 bs 0x0C, tmin := w 0x18, tmax := w 0x1C,
           user := w 0x20, mask := BitVec.ofNat 16 (bytesLe bs 0x24 2), flags := BitVec.ofNat 16 (bytesLe bs 0x26 2),
           slot := w 0x28 }
  | _ => { long := true, ox := BitVec.ofNat 64 (bytesLe bs 0 8), oy := BitVec.ofNat 64 (bytesLe bs 8 8),
           oz := BitVec.ofNat 64 (bytesLe bs 0x10 8), dir := bytesV3 bs 0x18, tmin := w 0x24, tmax := w 0x28,
           user := w 0x2C, mask := BitVec.ofNat 16 (bytesLe bs 0x30 2), flags := BitVec.ofNat 16 (bytesLe bs 0x32 2),
           slot := w 0x34 }

/-- A ray that no record has given yet. -/
def Ray.none : Ray :=
  { long := false, ox := 0, oy := 0, oz := 0, dir := V3.zero, tmin := 0, tmax := 0, user := 0, mask := 0, flags := 0, slot := 0 }

/-- Ray flags (R63). -/
def Ray.inactive (r : Ray) : Bool := r.flags.getLsbD 6
def Ray.skipCustom (r : Ray) : Bool := r.flags.getLsbD 5
def Ray.skipTri (r : Ray) : Bool := r.flags.getLsbD 4
def Ray.forceAnyhit (r : Ray) : Bool := r.flags.getLsbD 3
def Ray.opq (r : Ray) : Bool := r.flags.getLsbD 2
def Ray.cullFront (r : Ray) : Bool := r.flags.getLsbD 1
def Ray.cullBack (r : Ray) : Bool := r.flags.getLsbD 0

/-- A component of a ray's origin as an exact value (R130). -/
def Ray.origin (r : Ray) (a : Nat) : Fp :=
  let c := if a = 0 then r.ox else if a = 1 then r.oy else r.oz
  if r.long then fmt64.read c.toNat else fmt32.read (c.toNat % 2 ^ 32)

/-- A record is invalid (R64): it completes as a miss. A direction that flushes to zero counts as zero (R130). -/
def Ray.invalid (r : Ray) : Bool :=
  (List.range 3).any (fun a => !(r.origin a).isFin || !(f32 (r.dir.at a)).isFin)
  || (List.range 3).all (fun a => (v32 (r.dir.at a)).isZero)
  || (f32 r.tmin).isNan || (f32 r.tmax).isNan || (f32 r.tmax).lt (f32 r.tmin)

/-! ## Query records -/

/-- Bytes of a query vector (R197); 0 where `QFMT` is malformed. -/
def queryBytes (qfmt dim : Nat) : Nat :=
  match qfmt with
  | 0 => dim
  | 1 | 2 => dim / 2
  | 3 => 2 * dim
  | _ => 0

/-- Heap chunks of a probe (R209). -/
def heapChunks (k q : Nat) : Nat := (k + 7) / 8 + (q + 127) / 128

/-- The value of element `i` of a query before `QSCALE` (R198). -/
def queryElem (qfmt : Nat) (vec : List Byte) (i : Nat) : Fp :=
  match qfmt with
  | 0 => .fin (Q.int (signedOf 8 (bytesLe vec i 1)))
  | 1 => .fin (Q.int (signedOf 4 (nibbleAt vec 0 i)))
  | 2 => f4Read (nibbleAt vec 0 i)
  | _ => fmtB.read (bytesLe vec (2 * i) 2)

end Sys2Proof.Machine
end

