-- ==== Sys2Proof/Machine/RegMap.lean ====
section
/-! DEFINITION. The register window (R460, R461, R480 to R501): its pages, where every register stands, its reset
value, which of its bits the host writes (RW) and which a read clears (RC), and every field by name. -/

namespace Sys2Proof.Machine

/-- The kinds of pages (R460). -/
inductive PageKind where
  | blk | lnk | twn | ch | tly | ten | map | pwr | stk | err | ctr | dst | que
  deriving DecidableEq, Repr

/-- What the model must know of a register: its reset value, its RW bits, its RC bits. Every other bit is RO, TR,
WO or reserved, and a write leaves it (R8, R466). -/
structure RegInfo where
  reset : Word
  rw    : Word
  rc    : Word
  deriving DecidableEq, Repr

/-- The page kind that occupies a 4 KiB page of the window, with its instance (R460). -/
def pageOf (pg : Nat) : Option (PageKind × Nat) :=
  match pg with
  | 0 => some (.blk, 0) | 1 => some (.lnk, 0) | 2 => some (.twn, 0) | 3 => some (.ch, 0)
  | 4 => some (.tly, 0) | 5 => some (.ten, 0) | 6 => some (.map, 0) | 7 => some (.pwr, 0)
  | 14 => some (.err, 0) | 15 => some (.ctr, 0)
  | _ =>
    if 8 ≤ pg ∧ pg < 14 then some (.stk, pg - 8)
    else if 0x40 ≤ pg ∧ pg < 0xC0 then some (.dst, pg - 0x40)
    else if 0xC0 ≤ pg ∧ pg < 0x100 then some (.que, pg - 0xC0)
    else none

/-- `PG_ID.KIND` (R460). -/
def PageKind.code : PageKind → Nat
  | .blk => 0x0001 | .lnk => 0x0002 | .twn => 0x0003 | .ch => 0x0004 | .tly => 0x0005 | .ten => 0x0006
  | .map => 0x0007 | .pwr => 0x0008 | .stk => 0x0009 | .err => 0x000A | .ctr => 0x000B | .dst => 0x0010
  | .que => 0x0011

/-- The first page of a kind, in the window. -/
def PageKind.first : PageKind → Nat
  | .blk => 0 | .lnk => 1 | .twn => 2 | .ch => 3 | .tly => 4 | .ten => 5 | .map => 6 | .pwr => 7
  | .stk => 8 | .err => 14 | .ctr => 15 | .dst => 0x40 | .que => 0xC0

/-- How many pages of a kind there are (R460). -/
def PageKind.count : PageKind → Nat
  | .stk => 6 | .dst => 128 | .que => 64
  | .blk | .lnk | .twn | .ch | .tly | .ten | .map | .pwr | .err | .ctr => 1

/-- Every page kind, in window order. -/
def PageKind.all : List PageKind :=
  [.blk, .lnk, .twn, .ch, .tly, .ten, .map, .pwr, .stk, .err, .ctr, .dst, .que]

/-- Whether a page is a district page (R460). -/
def PageKind.district (k : PageKind) : Bool := decide (k = .dst)

/-- The page-specific bits of `PG_STATUS` (R482). -/
def PageKind.statusBits : PageKind → Word
  | .blk => 0xF
  | .lnk => 0x1F
  | .twn => 0x0
  | .ch => 0x7
  | .tly => 0xF
  | .ten => 0x1
  | .map => 0x1
  | .pwr => 0x1F
  | .stk => 0x3F
  | .err => 0x0
  | .ctr => 0x1
  | .dst => 0x7F
  | .que => 0xF

/-- The arms a page's `PG_INJECT` has (R509, R510). -/
def PageKind.armBits : PageKind → Word
  | .blk => 0x80000000
  | .lnk => 0x80000007
  | .twn => 0x80000003
  | .ch => 0x80000001
  | .tly => 0x80000007
  | .ten => 0x80000001
  | .map => 0x80000001
  | .pwr => 0x80000001
  | .stk => 0x8000001F
  | .err => 0x80000007
  | .ctr => 0x80000000
  | .dst => 0x8007FFFF
  | .que => 0x80000000

/-- The registers of a `BLK` page from offset 0x040 (R480 to R501). -/
def regsBlk : List (Nat × RegInfo) :=
  [ (0x040, ⟨0x7E010103, 0x0, 0x0⟩) /- BLK_VERSION -/
  , (0x044, ⟨0x0, 0x0, 0x0⟩) /- BLK_CONFIG -/
  , (0x048, ⟨0x0, 0x0, 0x0⟩) /- BLK_CTL -/
  , (0x04C, ⟨0x0, 0x0, 0x0⟩) /- BLK_STATUS -/
  , (0x050, ⟨0x0, 0x7, 0x0⟩) /- BLK_RUNG -/
  , (0x054, ⟨0x0, 0x7F, 0x20000⟩) /- BLK_RST_CMD -/
  , (0x060, ⟨0xFF, 0xFF, 0x800000⟩) /- BLK_CACHE_CTL -/
  , (0x064, ⟨0x0, 0xFFFFFFC0, 0x0⟩) /- BLK_MOP_BASE_LO -/
  , (0x068, ⟨0x0, 0xFF, 0x0⟩) /- BLK_MOP_BASE_HI -/
  , (0x06C, ⟨0x0, 0xFFFFFFFF, 0x0⟩) /- BLK_MOP_LEN -/
  , (0x070, ⟨0x0, 0xF00, 0x20000⟩) /- BLK_MOP_CMD -/ ]

/-- The registers of a `LNK` page from offset 0x040 (R480 to R501). -/
def regsLnk : List (Nat × RegInfo) :=
  [ (0x040, ⟨0x0, 0xFFFFFFC0, 0x0⟩) /- LNK_FRING_LO -/
  , (0x044, ⟨0x0, 0xFFFFF, 0x0⟩) /- LNK_FRING_HI -/
  , (0x048, ⟨0x0, 0x1FFFF, 0xFF000000⟩) /- LNK_FRING_CTL -/
  , (0x04C, ⟨0x0, 0x0, 0x0⟩) /- LNK_FRING_TAIL -/
  , (0x050, ⟨0x0, 0x1FFFF, 0x0⟩) /- LNK_FRING_HEAD -/
  , (0x054, ⟨0x0, 0xFFFF0000, 0x0⟩) /- LNK_PTROOT_LO -/
  , (0x058, ⟨0x0, 0xFFFFF, 0x0⟩) /- LNK_PTROOT_HI -/
  , (0x05C, ⟨0x0, 0xFFFFFF01, 0x0⟩) /- LNK_STAMP_BASE -/
  , (0x060, ⟨0x0, 0xFFFFF000, 0x0⟩) /- LNK_SHOOT_VA_LO -/
  , (0x064, ⟨0x0, 0xFFFFF, 0x0⟩) /- LNK_SHOOT_VA_HI -/
  , (0x068, ⟨0x0, 0xFFFFFFFF, 0x0⟩) /- LNK_SHOOT_LEN -/
  , (0x06C, ⟨0x0, 0x0, 0x20000⟩) /- LNK_SHOOT_CTL -/
  , (0x070, ⟨0x0, 0xFFFFFFFC, 0x0⟩) /- LNK_EVT_LO -/
  , (0x074, ⟨0x0, 0xFFFFF, 0x0⟩) /- LNK_EVT_HI -/
  , (0x078, ⟨0x0, 0xFFFFFFFF, 0x0⟩) /- LNK_EVT_DATA -/
  , (0x07C, ⟨0x0, 0x0, 0x0⟩) /- LNK_LINK -/
  , (0x080, ⟨0xB729, 0xFFFF, 0x0⟩) /- LNK_WATCH -/ ]

/-- The registers of a `TWN` page from offset 0x040 (R480 to R501). -/
def regsTwn : List (Nat × RegInfo) :=
  [ (0x040, ⟨0x0, 0x13, 0x0⟩) /- TWN_CTL -/
  , (0x044, ⟨0x0, 0xFFFFFFFF, 0x0⟩) /- TWN_CHECK -/
  , (0x048, ⟨0x0, 0xFFFFFFF8, 0x0⟩) /- TWN_OWNER_LO -/
  , (0x04C, ⟨0x0, 0xFFFFF, 0x0⟩) /- TWN_OWNER_HI -/
  , (0x050, ⟨0xB7299285, 0xFFFFFFFF, 0x0⟩) /- TWN_WATCH0 -/
  , (0x054, ⟨0x2714, 0xFFFF, 0x0⟩) /- TWN_WATCH1 -/
  , (0x058, ⟨0x0, 0x0, 0x0⟩) /- TWN_PEER_VER -/
  , (0x05C, ⟨0x0, 0x0, 0x0⟩) /- TWN_STATUS -/
  , (0x060, ⟨0x0, 0x0, 0xFF⟩) /- TWN_EVENT -/ ]

/-- The registers of a `CH` page from offset 0x040 (R480 to R501). -/
def regsCh : List (Nat × RegInfo) :=
  [ (0x040, ⟨0x20002004, 0x3FFFFF07, 0x0⟩) /- CH_ROUTE_CTL -/
  , (0x044, ⟨0x0, 0x0, 0x0⟩) /- CH_ROUTE_EPOCH -/
  , (0x048, ⟨0x0, 0xFFFFFF01, 0x0⟩) /- CH_LEDGER_BASE -/
  , (0x04C, ⟨0x0, 0xFFFFFF01, 0x0⟩) /- CH_PACK_BASE -/
  , (0x050, ⟨0x0, 0xFFFFFFFF, 0x0⟩) /- CH_GRANT_AMT -/
  , (0x054, ⟨0x0, 0x60000FFF, 0x0⟩) /- CH_GRANT_CMD -/
  , (0x058, ⟨0x0, 0x80000FFF, 0x0⟩) /- CH_BAL_SEL -/
  , (0x05C, ⟨0x0, 0x0, 0x0⟩) /- CH_BAL_LO -/
  , (0x060, ⟨0x0, 0x0, 0x0⟩) /- CH_BAL_HI -/
  , (0x064, ⟨0x0, 0x0, 0x0⟩) /- CH_CMT_LO -/
  , (0x068, ⟨0x0, 0x0, 0x0⟩) /- CH_CMT_HI -/
  , (0x06C, ⟨0x10000, 0xFFFFFFFF, 0x0⟩) /- CH_DEBT_LIMIT -/
  , (0x070, ⟨0x1000, 0xFFFFFF, 0x0⟩) /- CH_QUANTUM -/
  , (0x074, ⟨0x80000, 0x80FF0000, 0x0⟩) /- CH_CLASS_CTL0 -/
  , (0x078, ⟨0x0, 0x80000000, 0x0⟩) /- CH_CLASS_CTL1 -/
  , (0x07C, ⟨0x0, 0x80000000, 0x0⟩) /- CH_CLASS_CTL2 -/
  , (0x080, ⟨0x0, 0x80000000, 0x0⟩) /- CH_CLASS_CTL3 -/
  , (0x084, ⟨0x0, 0x0, 0x0⟩) /- CH_STATUS -/ ]

/-- The registers of a `TLY` page from offset 0x040 (R480 to R501). -/
def regsTly : List (Nat × RegInfo) :=
  [ (0x040, ⟨0x0, 0x0, 0x0⟩) /- TLY_STATUS -/
  , (0x044, ⟨0x0, 0x3FFF, 0x0⟩) /- TLY_INDEX -/ ]

/-- The registers of a `TEN` page from offset 0x040 (R480 to R501). -/
def regsTen : List (Nat × RegInfo) :=
  [ (0x040, ⟨0x0, 0xFFF, 0x0⟩) /- TEN_INDEX -/
  , (0x044, ⟨0x0, 0x0, 0x8000⟩) /- TEN_ERR -/ ]

/-- The registers of a `MAP` page from offset 0x040 (R480 to R501). -/
def regsMap : List (Nat × RegInfo) :=
  [ (0x040, ⟨0x0, 0xFFFF, 0x0⟩) /- MAP_INDEX -/
  , (0x044, ⟨0x0, 0xFFFFFF, 0x0⟩) /- MAP_HASH_IN -/
  , (0x048, ⟨0x0, 0x0, 0x0⟩) /- MAP_HASH_OUT -/
  , (0x04C, ⟨0x0, 0x0, 0x10000⟩) /- MAP_ERR -/ ]

/-- The registers of a `PWR` page from offset 0x040 (R480 to R501). -/
def regsPwr : List (Nat × RegInfo) :=
  [ (0x040, ⟨0x528, 0x7F0F7F, 0x0⟩) /- PWR_VSET -/
  , (0x044, ⟨0x28280000, 0x0, 0x0⟩) /- PWR_VSTATUS -/
  , (0x048, ⟨0x69625C03, 0xFFFFFF0F, 0x0⟩) /- PWR_THERM -/
  , (0x04C, ⟨0x0, 0x0, 0x0⟩) /- PWR_TEMP -/
  , (0x050, ⟨0x2714B729, 0xFFFFFFFF, 0x0⟩) /- PWR_WATCH -/ ]

/-- The registers of a `STK` page from offset 0x040 (R480 to R501). -/
def regsStk : List (Nat × RegInfo) :=
  [ (0x040, ⟨0x10000000, 0x0, 0x80000⟩) /- STK_STATUS -/
  , (0x044, ⟨0x0, 0x0, 0x0⟩) /- STK_ID0 -/
  , (0x048, ⟨0x0, 0x0, 0x0⟩) /- STK_ID1 -/
  , (0x04C, ⟨0x0, 0x0, 0x0⟩) /- STK_CAP -/
  , (0x050, ⟨0x0, 0x0, 0x0⟩) /- STK_UE_ADDR -/
  , (0x054, ⟨0x4, 0xFF, 0x0⟩) /- STK_SCRUB -/
  , (0x058, ⟨0x4, 0xF, 0x0⟩) /- STK_PF -/
  , (0x05C, ⟨0xFFFFFFFF, 0xFFFFFFFF, 0x0⟩) /- STK_WAYM_DG01 -/
  , (0x060, ⟨0xFFFFFFFF, 0xFFFFFFFF, 0x0⟩) /- STK_WAYM_DG23 -/
  , (0x064, ⟨0xFFFFFFFF, 0xFFFFFFFF, 0x0⟩) /- STK_WAYM_DG45 -/
  , (0x068, ⟨0xFFFFFFFF, 0xFFFFFFFF, 0x0⟩) /- STK_WAYM_DG67 -/
  , (0x06C, ⟨0xFFFFFFFF, 0xFFFFFFFF, 0x0⟩) /- STK_WAYM_LH -/
  , (0x070, ⟨0xFFFFFFFF, 0xFFFFFFFF, 0x0⟩) /- STK_WAYM_ST -/
  , (0x074, ⟨0x0, 0xF000FFFF, 0x0⟩) /- STK_LOCK -/
  , (0x078, ⟨0x9285, 0xFFFF, 0x0⟩) /- STK_WATCH -/ ]

/-- The registers of a `ERR` page from offset 0x040 (R480 to R501). -/
def regsErr : List (Nat × RegInfo) :=
  [ (0x040, ⟨0x0, 0x0, 0x1FFFFF⟩) /- ERR_STATUS -/
  , (0x044, ⟨0x0, 0x0, 0x0⟩) /- ERR_LOCK_ADDR -/
  , (0x048, ⟨0x0, 0x0, 0x0⟩) /- ERR_PAR_ADDR -/
  , (0x04C, ⟨0x0, 0x0, 0x8000⟩) /- ERR_FIRST -/ ]

/-- The registers of a `CTR` page from offset 0x040 (R480 to R501). -/
def regsCtr : List (Nat × RegInfo) :=
  [ (0x040, ⟨0x0, 0x0, 0x0⟩) /- CTR_SNAP -/
  , (0x044, ⟨0x0, 0xFFFF, 0x0⟩) /- CTR_SEL -/
  , (0x058, ⟨0x0, 0x0, 0x0⟩) /- CTR_HOLD_SEQ -/ ]

/-- The registers of a `DST` page from offset 0x040 (R480 to R501). -/
def regsDst : List (Nat × RegInfo) :=
  [ (0x040, ⟨0x0, 0x1, 0x0⟩) /- DST_CTL -/
  , (0x044, ⟨0x310, 0x0, 0x0⟩) /- DST_STATE -/
  , (0x048, ⟨0x0, 0xFFFFFF01, 0x0⟩) /- DST_SIDE_BASE -/
  , (0x04C, ⟨0x1004004, 0xFFFFFFF, 0x0⟩) /- DST_SQ_CTL -/
  , (0x050, ⟨0x4, 0xF, 0x0⟩) /- DST_HEAP_CTL -/
  , (0x054, ⟨0x14, 0x36, 0x0⟩) /- DST_CORE_CTL -/
  , (0x058, ⟨0x1000000, 0x0, 0x0⟩) /- DST_CORE_STATUS -/
  , (0x05C, ⟨0x0, 0xFFFFFF01, 0x0⟩) /- DST_PARK_BASE -/
  , (0x060, ⟨0x0, 0x0, 0x0⟩) /- DST_TRAP_CMD -/
  , (0x064, ⟨0x0, 0x0, 0x0⟩) /- DST_TEMP -/
  , (0x068, ⟨0x4, 0x7, 0x0⟩) /- DST_RUNG -/
  , (0x06C, ⟨0x92859285, 0xFFFFFFFF, 0x0⟩) /- DST_WATCH -/ ]

/-- The registers of a `QUE` page from offset 0x040 (R480 to R501). -/
def regsQue : List (Nat × RegInfo) :=
  [ (0x040, ⟨0x0, 0xFFFFFFC0, 0x0⟩) /- QUE_BASE_LO -/
  , (0x044, ⟨0x0, 0xFFFFF, 0x0⟩) /- QUE_BASE_HI -/
  , (0x048, ⟨0x0, 0x1FFFF, 0x0⟩) /- QUE_DEPTH -/
  , (0x04C, ⟨0x0, 0x1FFFF, 0x0⟩) /- QUE_TAIL -/
  , (0x050, ⟨0x0, 0x0, 0x0⟩) /- QUE_HEAD -/
  , (0x054, ⟨0x11000, 0x13FFF, 0x0⟩) /- QUE_CLASS_TENANT -/
  , (0x058, ⟨0x0, 0xFFFFFFC0, 0x0⟩) /- QUE_COMPL_BASE -/
  , (0x05C, ⟨0x0, 0xFFFFFFF8, 0x0⟩) /- QUE_SEAL_ADDR -/
  , (0x060, ⟨0x0, 0x0, 0x0⟩) /- QUE_RESUME -/
  , (0x064, ⟨0x0, 0x100, 0xF000⟩) /- QUE_STATE -/
  , (0x068, ⟨0x0, 0xFFFF0000, 0x0⟩) /- QUE_PTROOT_LO -/
  , (0x06C, ⟨0x0, 0xFFFFF, 0x0⟩) /- QUE_PTROOT_HI -/
  , (0x070, ⟨0x1000, 0xFFFFFFFF, 0x0⟩) /- QUE_EST -/
  , (0x074, ⟨0x0, 0xFFFFFFFC, 0x0⟩) /- QUE_IRQ_LO -/
  , (0x078, ⟨0x0, 0xFFFFF, 0x0⟩) /- QUE_IRQ_HI -/
  , (0x07C, ⟨0x0, 0xFFFFFFFF, 0x0⟩) /- QUE_IRQ_DATA -/
  , (0x080, ⟨0x0, 0x0, 0x0⟩) /- QUE_SEQ -/
  , (0x084, ⟨0x0, 0x0, 0x0⟩) /- QUE_UNSEALED -/ ]

/-- The registers of a page from offset 0x040, by kind. -/
def PageKind.regs : PageKind → List (Nat × RegInfo)
  | .blk => regsBlk
  | .lnk => regsLnk
  | .twn => regsTwn
  | .ch => regsCh
  | .tly => regsTly
  | .ten => regsTen
  | .map => regsMap
  | .pwr => regsPwr
  | .stk => regsStk
  | .err => regsErr
  | .ctr => regsCtr
  | .dst => regsDst
  | .que => regsQue

/-- What a register is, by page kind, instance and page offset: the header of R461, then the page's own list.
An offset that is not listed is reserved: it reads as zero and writes to it are discarded (R460, R480). -/
def regInfo (k : PageKind) (inst o : Nat) : RegInfo :=
  if o = 0x000 then ⟨BitVec.ofNat 32 (0x01000000 + inst * 0x10000 + k.code), 0, 0⟩
  else if o = 0x004 then ⟨0x2, 0, 0⟩
  else if o = 0x008 then ⟨0, 0, 0x80000000 ||| k.statusBits⟩
  else if o = 0x00C then ⟨0, 0xFFFFFFFF, 0⟩
  else if o = 0x010 then ⟨0, k.armBits, 0⟩
  else if o = 0x014 then (if k.district then ⟨0, 0xFFFFFFFF, 0⟩ else ⟨0, 0, 0⟩)
  else (SMap.find k.regs o).getD ⟨0, 0, 0⟩

/-- The register at a window offset. -/
def regAt (off : Nat) : RegInfo :=
  match pageOf (off / 0x1000) with
  | some (k, n) => regInfo k n (off % 0x1000)
  | none => ⟨0, 0, 0⟩

/-- The window offset of a page's register. -/
def pageReg (k : PageKind) (n o : Nat) : Nat := (k.first + n) * 0x1000 + o

/-! ## Fields by name -/

/-- A field of a register: window offset, first and last bit. -/
structure Fld where
  off : Nat
  hi  : Nat
  lo  : Nat
  deriving DecidableEq, Repr

/-- `BLK_VERSION.VENDOR`. -/ def Fld.blkVersionVendor : Fld := ⟨0x00000 + 0x040, 31, 24⟩
/-- `BLK_VERSION.PRODUCT`. -/ def Fld.blkVersionProduct : Fld := ⟨0x00000 + 0x040, 23, 16⟩
/-- `BLK_VERSION.MAJOR`. -/ def Fld.blkVersionMajor : Fld := ⟨0x00000 + 0x040, 15, 8⟩
/-- `BLK_VERSION.MINOR`. -/ def Fld.blkVersionMinor : Fld := ⟨0x00000 + 0x040, 7, 0⟩
/-- `BLK_CONFIG.TWIN_PHY`. -/ def Fld.blkConfigTwinPhy : Fld := ⟨0x00000 + 0x044, 4, 4⟩
/-- `BLK_CONFIG.HL_GEN`. -/ def Fld.blkConfigHlGen : Fld := ⟨0x00000 + 0x044, 3, 3⟩
/-- `BLK_CONFIG.NC_WAYS`. -/ def Fld.blkConfigNcWays : Fld := ⟨0x00000 + 0x044, 1, 0⟩
/-- `BLK_CTL.WARM`. -/ def Fld.blkCtlWarm : Fld := ⟨0x00000 + 0x048, 0, 0⟩
/-- `BLK_STATUS.BIST_DIST`. -/ def Fld.blkStatusBistDist : Fld := ⟨0x00000 + 0x04C, 31, 24⟩
/-- `BLK_STATUS.CAUSE`. -/ def Fld.blkStatusCause : Fld := ⟨0x00000 + 0x04C, 23, 20⟩
/-- `BLK_STATUS.STEP`. -/ def Fld.blkStatusStep : Fld := ⟨0x00000 + 0x04C, 19, 16⟩
/-- `BLK_STATUS.STRIP_FAIL`. -/ def Fld.blkStatusStripFail : Fld := ⟨0x00000 + 0x04C, 9, 9⟩
/-- `BLK_STATUS.TALLY_LIVE`. -/ def Fld.blkStatusTallyLive : Fld := ⟨0x00000 + 0x04C, 8, 8⟩
/-- `BLK_STATUS.READY`. -/ def Fld.blkStatusReady : Fld := ⟨0x00000 + 0x04C, 0, 0⟩
/-- `BLK_RUNG.CURRENT`. -/ def Fld.blkRungCurrent : Fld := ⟨0x00000 + 0x050, 18, 16⟩
/-- `BLK_RUNG.WAITING`. -/ def Fld.blkRungWaiting : Fld := ⟨0x00000 + 0x050, 8, 8⟩
/-- `BLK_RUNG.TARGET`. -/ def Fld.blkRungTarget : Fld := ⟨0x00000 + 0x050, 2, 0⟩
/-- `BLK_RST_CMD.OVERRUN`. -/ def Fld.blkRstCmdOverrun : Fld := ⟨0x00000 + 0x054, 17, 17⟩
/-- `BLK_RST_CMD.BUSY`. -/ def Fld.blkRstCmdBusy : Fld := ⟨0x00000 + 0x054, 16, 16⟩
/-- `BLK_RST_CMD.SCOPE`. -/ def Fld.blkRstCmdScope : Fld := ⟨0x00000 + 0x054, 10, 8⟩
/-- `BLK_RST_CMD.INDEX`. -/ def Fld.blkRstCmdIndex : Fld := ⟨0x00000 + 0x054, 6, 0⟩
/-- `BLK_CACHE_CTL.ENABLE_REFUSED`. -/ def Fld.blkCacheCtlEnableRefused : Fld := ⟨0x00000 + 0x060, 23, 23⟩
/-- `BLK_CACHE_CTL.SC_INV`. -/ def Fld.blkCacheCtlScInv : Fld := ⟨0x00000 + 0x060, 15, 10⟩
/-- `BLK_CACHE_CTL.DC_INV`. -/ def Fld.blkCacheCtlDcInv : Fld := ⟨0x00000 + 0x060, 9, 9⟩
/-- `BLK_CACHE_CTL.NC_INV`. -/ def Fld.blkCacheCtlNcInv : Fld := ⟨0x00000 + 0x060, 8, 8⟩
/-- `BLK_CACHE_CTL.SC_EN`. -/ def Fld.blkCacheCtlScEn : Fld := ⟨0x00000 + 0x060, 7, 2⟩
/-- `BLK_CACHE_CTL.DC_EN`. -/ def Fld.blkCacheCtlDcEn : Fld := ⟨0x00000 + 0x060, 1, 1⟩
/-- `BLK_CACHE_CTL.NC_EN`. -/ def Fld.blkCacheCtlNcEn : Fld := ⟨0x00000 + 0x060, 0, 0⟩
/-- `BLK_MOP_BASE_LO.BASE`. -/ def Fld.blkMopBaseLoBase : Fld := ⟨0x00000 + 0x064, 31, 6⟩
/-- `BLK_MOP_BASE_HI.BASE`. -/ def Fld.blkMopBaseHiBase : Fld := ⟨0x00000 + 0x068, 7, 0⟩
/-- `BLK_MOP_LEN.LEN`. -/ def Fld.blkMopLenLen : Fld := ⟨0x00000 + 0x06C, 31, 0⟩
/-- `BLK_MOP_CMD.OVERRUN`. -/ def Fld.blkMopCmdOverrun : Fld := ⟨0x00000 + 0x070, 17, 17⟩
/-- `BLK_MOP_CMD.BUSY`. -/ def Fld.blkMopCmdBusy : Fld := ⟨0x00000 + 0x070, 16, 16⟩
/-- `BLK_MOP_CMD.TARGET`. -/ def Fld.blkMopCmdTarget : Fld := ⟨0x00000 + 0x070, 11, 8⟩
/-- `BLK_MOP_CMD.OP`. -/ def Fld.blkMopCmdOp : Fld := ⟨0x00000 + 0x070, 2, 0⟩
/-- `LNK_FRING_LO.ADDR_LO`. -/ def Fld.lnkFringLoAddrLo : Fld := ⟨0x01000 + 0x040, 31, 6⟩
/-- `LNK_FRING_HI.ADDR_HI`. -/ def Fld.lnkFringHiAddrHi : Fld := ⟨0x01000 + 0x044, 19, 0⟩
/-- `LNK_FRING_CTL.LOST`. -/ def Fld.lnkFringCtlLost : Fld := ⟨0x01000 + 0x048, 31, 24⟩
/-- `LNK_FRING_CTL.FULL`. -/ def Fld.lnkFringCtlFull : Fld := ⟨0x01000 + 0x048, 17, 17⟩
/-- `LNK_FRING_CTL.DEPTH`. -/ def Fld.lnkFringCtlDepth : Fld := ⟨0x01000 + 0x048, 16, 0⟩
/-- `LNK_FRING_TAIL.PHASE`. -/ def Fld.lnkFringTailPhase : Fld := ⟨0x01000 + 0x04C, 16, 16⟩
/-- `LNK_FRING_TAIL.INDEX`. -/ def Fld.lnkFringTailIndex : Fld := ⟨0x01000 + 0x04C, 15, 0⟩
/-- `LNK_FRING_HEAD.PHASE`. -/ def Fld.lnkFringHeadPhase : Fld := ⟨0x01000 + 0x050, 16, 16⟩
/-- `LNK_FRING_HEAD.INDEX`. -/ def Fld.lnkFringHeadIndex : Fld := ⟨0x01000 + 0x050, 15, 0⟩
/-- `LNK_PTROOT_LO.ADDR`. -/ def Fld.lnkPtrootLoAddr : Fld := ⟨0x01000 + 0x054, 31, 16⟩
/-- `LNK_PTROOT_HI.ADDR`. -/ def Fld.lnkPtrootHiAddr : Fld := ⟨0x01000 + 0x058, 19, 0⟩
/-- `LNK_STAMP_BASE.BASE`. -/ def Fld.lnkStampBaseBase : Fld := ⟨0x01000 + 0x05C, 31, 8⟩
/-- `LNK_STAMP_BASE.EN`. -/ def Fld.lnkStampBaseEn : Fld := ⟨0x01000 + 0x05C, 0, 0⟩
/-- `LNK_SHOOT_VA_LO.VA`. -/ def Fld.lnkShootVaLoVa : Fld := ⟨0x01000 + 0x060, 31, 12⟩
/-- `LNK_SHOOT_VA_HI.VA`. -/ def Fld.lnkShootVaHiVa : Fld := ⟨0x01000 + 0x064, 19, 0⟩
/-- `LNK_SHOOT_LEN.PAGES`. -/ def Fld.lnkShootLenPages : Fld := ⟨0x01000 + 0x068, 31, 0⟩
/-- `LNK_SHOOT_CTL.OVERRUN`. -/ def Fld.lnkShootCtlOverrun : Fld := ⟨0x01000 + 0x06C, 17, 17⟩
/-- `LNK_SHOOT_CTL.BUSY`. -/ def Fld.lnkShootCtlBusy : Fld := ⟨0x01000 + 0x06C, 16, 16⟩
/-- `LNK_SHOOT_CTL.GO`. -/ def Fld.lnkShootCtlGo : Fld := ⟨0x01000 + 0x06C, 0, 0⟩
/-- `LNK_EVT_LO.ADDR`. -/ def Fld.lnkEvtLoAddr : Fld := ⟨0x01000 + 0x070, 31, 2⟩
/-- `LNK_EVT_HI.ADDR`. -/ def Fld.lnkEvtHiAddr : Fld := ⟨0x01000 + 0x074, 19, 0⟩
/-- `LNK_EVT_DATA.DATA`. -/ def Fld.lnkEvtDataData : Fld := ⟨0x01000 + 0x078, 31, 0⟩
/-- `LNK_LINK.MODULES`. -/ def Fld.lnkLinkModules : Fld := ⟨0x01000 + 0x07C, 23, 20⟩
/-- `LNK_LINK.RATE`. -/ def Fld.lnkLinkRate : Fld := ⟨0x01000 + 0x07C, 19, 16⟩
/-- `LNK_LINK.RETRAINS`. -/ def Fld.lnkLinkRetrains : Fld := ⟨0x01000 + 0x07C, 15, 8⟩
/-- `LNK_LINK.LSTATE`. -/ def Fld.lnkLinkLstate : Fld := ⟨0x01000 + 0x07C, 2, 0⟩
/-- `LNK_WATCH.HOST`. -/ def Fld.lnkWatchHost : Fld := ⟨0x01000 + 0x080, 15, 0⟩
/-- `TWN_CTL.TAKEOVER`. -/ def Fld.twnCtlTakeover : Fld := ⟨0x02000 + 0x040, 8, 8⟩
/-- `TWN_CTL.WALKER`. -/ def Fld.twnCtlWalker : Fld := ⟨0x02000 + 0x040, 4, 4⟩
/-- `TWN_CTL.MODE`. -/ def Fld.twnCtlMode : Fld := ⟨0x02000 + 0x040, 1, 0⟩
/-- `TWN_CHECK.CHECK`. -/ def Fld.twnCheckCheck : Fld := ⟨0x02000 + 0x044, 31, 0⟩
/-- `TWN_OWNER_LO.ADDR`. -/ def Fld.twnOwnerLoAddr : Fld := ⟨0x02000 + 0x048, 31, 3⟩
/-- `TWN_OWNER_HI.ADDR`. -/ def Fld.twnOwnerHiAddr : Fld := ⟨0x02000 + 0x04C, 19, 0⟩
/-- `TWN_WATCH0.TAKE`. -/ def Fld.twnWatch0Take : Fld := ⟨0x02000 + 0x050, 31, 16⟩
/-- `TWN_WATCH0.FENCE`. -/ def Fld.twnWatch0Fence : Fld := ⟨0x02000 + 0x050, 15, 0⟩
/-- `TWN_WATCH1.BEACON`. -/ def Fld.twnWatch1Beacon : Fld := ⟨0x02000 + 0x054, 15, 0⟩
/-- `TWN_PEER_VER.VER`. -/ def Fld.twnPeerVerVer : Fld := ⟨0x02000 + 0x058, 31, 0⟩
/-- `TWN_STATUS.MIRROR`. -/ def Fld.twnStatusMirror : Fld := ⟨0x02000 + 0x05C, 30, 16⟩
/-- `TWN_STATUS.REASON`. -/ def Fld.twnStatusReason : Fld := ⟨0x02000 + 0x05C, 15, 12⟩
/-- `TWN_STATUS.LENT`. -/ def Fld.twnStatusLent : Fld := ⟨0x02000 + 0x05C, 11, 11⟩
/-- `TWN_STATUS.HOLDING`. -/ def Fld.twnStatusHolding : Fld := ⟨0x02000 + 0x05C, 10, 10⟩
/-- `TWN_STATUS.FENCED`. -/ def Fld.twnStatusFenced : Fld := ⟨0x02000 + 0x05C, 9, 9⟩
/-- `TWN_STATUS.SIDE`. -/ def Fld.twnStatusSide : Fld := ⟨0x02000 + 0x05C, 8, 8⟩
/-- `TWN_STATUS.STATE`. -/ def Fld.twnStatusState : Fld := ⟨0x02000 + 0x05C, 2, 0⟩
/-- `TWN_EVENT.HELD_IRQ`. -/ def Fld.twnEventHeldIrq : Fld := ⟨0x02000 + 0x060, 7, 7⟩
/-- `TWN_EVENT.LINK_DOWN`. -/ def Fld.twnEventLinkDown : Fld := ⟨0x02000 + 0x060, 6, 6⟩
/-- `TWN_EVENT.PAIRED`. -/ def Fld.twnEventPaired : Fld := ⟨0x02000 + 0x060, 5, 5⟩
/-- `TWN_EVENT.FENCED`. -/ def Fld.twnEventFenced : Fld := ⟨0x02000 + 0x060, 4, 4⟩
/-- `TWN_EVENT.CLAIMED`. -/ def Fld.twnEventClaimed : Fld := ⟨0x02000 + 0x060, 3, 3⟩
/-- `TWN_EVENT.TOOK_OVER`. -/ def Fld.twnEventTookOver : Fld := ⟨0x02000 + 0x060, 2, 2⟩
/-- `TWN_EVENT.LENT`. -/ def Fld.twnEventLent : Fld := ⟨0x02000 + 0x060, 1, 1⟩
/-- `TWN_EVENT.RETURNED`. -/ def Fld.twnEventReturned : Fld := ⟨0x02000 + 0x060, 0, 0⟩
/-- `CH_ROUTE_CTL.STAY_WALKERS`. -/ def Fld.chRouteCtlStayWalkers : Fld := ⟨0x03000 + 0x040, 29, 16⟩
/-- `CH_ROUTE_CTL.STAY_GRANULES`. -/ def Fld.chRouteCtlStayGranules : Fld := ⟨0x03000 + 0x040, 15, 8⟩
/-- `CH_ROUTE_CTL.TOP_SLOTS`. -/ def Fld.chRouteCtlTopSlots : Fld := ⟨0x03000 + 0x040, 2, 0⟩
/-- `CH_ROUTE_EPOCH.EPOCH`. -/ def Fld.chRouteEpochEpoch : Fld := ⟨0x03000 + 0x044, 15, 0⟩
/-- `CH_LEDGER_BASE.BASE`. -/ def Fld.chLedgerBaseBase : Fld := ⟨0x03000 + 0x048, 31, 8⟩
/-- `CH_LEDGER_BASE.EN`. -/ def Fld.chLedgerBaseEn : Fld := ⟨0x03000 + 0x048, 0, 0⟩
/-- `CH_PACK_BASE.BASE`. -/ def Fld.chPackBaseBase : Fld := ⟨0x03000 + 0x04C, 31, 8⟩
/-- `CH_PACK_BASE.EN`. -/ def Fld.chPackBaseEn : Fld := ⟨0x03000 + 0x04C, 0, 0⟩
/-- `CH_GRANT_AMT.AMT`. -/ def Fld.chGrantAmtAmt : Fld := ⟨0x03000 + 0x050, 31, 0⟩
/-- `CH_GRANT_CMD.GO`. -/ def Fld.chGrantCmdGo : Fld := ⟨0x03000 + 0x054, 31, 31⟩
/-- `CH_GRANT_CMD.SET`. -/ def Fld.chGrantCmdSet : Fld := ⟨0x03000 + 0x054, 30, 30⟩
/-- `CH_GRANT_CMD.KIND`. -/ def Fld.chGrantCmdKind : Fld := ⟨0x03000 + 0x054, 29, 29⟩
/-- `CH_GRANT_CMD.INDEX`. -/ def Fld.chGrantCmdIndex : Fld := ⟨0x03000 + 0x054, 11, 0⟩
/-- `CH_BAL_SEL.KIND`. -/ def Fld.chBalSelKind : Fld := ⟨0x03000 + 0x058, 31, 31⟩
/-- `CH_BAL_SEL.INDEX`. -/ def Fld.chBalSelIndex : Fld := ⟨0x03000 + 0x058, 11, 0⟩
/-- `CH_BAL_LO.BAL`. -/ def Fld.chBalLoBal : Fld := ⟨0x03000 + 0x05C, 31, 0⟩
/-- `CH_BAL_HI.BAL`. -/ def Fld.chBalHiBal : Fld := ⟨0x03000 + 0x060, 15, 0⟩
/-- `CH_CMT_LO.CMT`. -/ def Fld.chCmtLoCmt : Fld := ⟨0x03000 + 0x064, 31, 0⟩
/-- `CH_CMT_HI.CMT`. -/ def Fld.chCmtHiCmt : Fld := ⟨0x03000 + 0x068, 15, 0⟩
/-- `CH_DEBT_LIMIT.LIMIT`. -/ def Fld.chDebtLimitLimit : Fld := ⟨0x03000 + 0x06C, 31, 0⟩
/-- `CH_QUANTUM.QUANTUM`. -/ def Fld.chQuantumQuantum : Fld := ⟨0x03000 + 0x070, 23, 0⟩
/-- `CH_CLASS_CTL0.REFUSE`. -/ def Fld.chClassCtl0Refuse : Fld := ⟨0x03000 + 0x074, 31, 31⟩
/-- `CH_CLASS_CTL0.RESERVE`. -/ def Fld.chClassCtl0Reserve : Fld := ⟨0x03000 + 0x074, 23, 16⟩
/-- `CH_CLASS_CTL1.REFUSE`. -/ def Fld.chClassCtl1Refuse : Fld := ⟨0x03000 + 0x078, 31, 31⟩
/-- `CH_CLASS_CTL2.REFUSE`. -/ def Fld.chClassCtl2Refuse : Fld := ⟨0x03000 + 0x07C, 31, 31⟩
/-- `CH_CLASS_CTL3.REFUSE`. -/ def Fld.chClassCtl3Refuse : Fld := ⟨0x03000 + 0x080, 31, 31⟩
/-- `CH_STATUS.TOP_USED`. -/ def Fld.chStatusTopUsed : Fld := ⟨0x03000 + 0x084, 26, 24⟩
/-- `CH_STATUS.HELD`. -/ def Fld.chStatusHeld : Fld := ⟨0x03000 + 0x084, 19, 0⟩
/-- `TLY_STATUS.WAITING`. -/ def Fld.tlyStatusWaiting : Fld := ⟨0x04000 + 0x040, 16, 16⟩
/-- `TLY_STATUS.USED`. -/ def Fld.tlyStatusUsed : Fld := ⟨0x04000 + 0x040, 14, 0⟩
/-- `TLY_INDEX.INDEX`. -/ def Fld.tlyIndexIndex : Fld := ⟨0x04000 + 0x044, 13, 0⟩
/-- `TEN_INDEX.INDEX`. -/ def Fld.tenIndexIndex : Fld := ⟨0x05000 + 0x040, 11, 0⟩
/-- `TEN_ERR.VALID`. -/ def Fld.tenErrValid : Fld := ⟨0x05000 + 0x044, 15, 15⟩
/-- `TEN_ERR.TENANT`. -/ def Fld.tenErrTenant : Fld := ⟨0x05000 + 0x044, 11, 0⟩
/-- `MAP_INDEX.INDEX`. -/ def Fld.mapIndexIndex : Fld := ⟨0x06000 + 0x040, 15, 0⟩
/-- `MAP_HASH_IN.TID`. -/ def Fld.mapHashInTid : Fld := ⟨0x06000 + 0x044, 23, 0⟩
/-- `MAP_HASH_OUT.OWNER`. -/ def Fld.mapHashOutOwner : Fld := ⟨0x06000 + 0x048, 30, 24⟩
/-- `MAP_HASH_OUT.LOT`. -/ def Fld.mapHashOutLot : Fld := ⟨0x06000 + 0x048, 23, 14⟩
/-- `MAP_HASH_OUT.SET`. -/ def Fld.mapHashOutSet : Fld := ⟨0x06000 + 0x048, 12, 0⟩
/-- `MAP_ERR.VALID`. -/ def Fld.mapErrValid : Fld := ⟨0x06000 + 0x04C, 16, 16⟩
/-- `MAP_ERR.ENTRY`. -/ def Fld.mapErrEntry : Fld := ⟨0x06000 + 0x04C, 15, 0⟩
/-- `PWR_VSET.VMIN`. -/ def Fld.pwrVsetVmin : Fld := ⟨0x07000 + 0x040, 22, 16⟩
/-- `PWR_VSET.STEP`. -/ def Fld.pwrVsetStep : Fld := ⟨0x07000 + 0x040, 11, 8⟩
/-- `PWR_VSET.TARGET`. -/ def Fld.pwrVsetTarget : Fld := ⟨0x07000 + 0x040, 6, 0⟩
/-- `PWR_VSTATUS.ACKED`. -/ def Fld.pwrVstatusAcked : Fld := ⟨0x07000 + 0x044, 30, 24⟩
/-- `PWR_VSTATUS.REQUEST`. -/ def Fld.pwrVstatusRequest : Fld := ⟨0x07000 + 0x044, 22, 16⟩
/-- `PWR_VSTATUS.PENDING`. -/ def Fld.pwrVstatusPending : Fld := ⟨0x07000 + 0x044, 15, 15⟩
/-- `PWR_VSTATUS.ROWS_MASKED`. -/ def Fld.pwrVstatusRowsMasked : Fld := ⟨0x07000 + 0x044, 10, 8⟩
/-- `PWR_VSTATUS.DIM`. -/ def Fld.pwrVstatusDim : Fld := ⟨0x07000 + 0x044, 7, 0⟩
/-- `PWR_THERM.TRIP`. -/ def Fld.pwrThermTrip : Fld := ⟨0x07000 + 0x048, 31, 24⟩
/-- `PWR_THERM.HIGH`. -/ def Fld.pwrThermHigh : Fld := ⟨0x07000 + 0x048, 23, 16⟩
/-- `PWR_THERM.WARM`. -/ def Fld.pwrThermWarm : Fld := ⟨0x07000 + 0x048, 15, 8⟩
/-- `PWR_THERM.HYST`. -/ def Fld.pwrThermHyst : Fld := ⟨0x07000 + 0x048, 3, 0⟩
/-- `PWR_TEMP.MAX`. -/ def Fld.pwrTempMax : Fld := ⟨0x07000 + 0x04C, 25, 16⟩
/-- `PWR_TEMP.MAX_DIST`. -/ def Fld.pwrTempMaxDist : Fld := ⟨0x07000 + 0x04C, 6, 0⟩
/-- `PWR_WATCH.SENSOR`. -/ def Fld.pwrWatchSensor : Fld := ⟨0x07000 + 0x050, 31, 16⟩
/-- `PWR_WATCH.VACK`. -/ def Fld.pwrWatchVack : Fld := ⟨0x07000 + 0x050, 15, 0⟩
/-- `STK_STATUS.REASON`. -/ def Fld.stkStatusReason (n : Nat) : Fld := ⟨0x08000 + n * 0x1000 + 0x040, 31, 28⟩
/-- `STK_STATUS.UE_VALID`. -/ def Fld.stkStatusUeValid (n : Nat) : Fld := ⟨0x08000 + n * 0x1000 + 0x040, 19, 19⟩
/-- `STK_STATUS.SC_DIRTY`. -/ def Fld.stkStatusScDirty (n : Nat) : Fld := ⟨0x08000 + n * 0x1000 + 0x040, 18, 18⟩
/-- `STK_STATUS.PRESENT`. -/ def Fld.stkStatusPresent (n : Nat) : Fld := ⟨0x08000 + n * 0x1000 + 0x040, 16, 16⟩
/-- `STK_ID0.VENDOR`. -/ def Fld.stkId0Vendor (n : Nat) : Fld := ⟨0x08000 + n * 0x1000 + 0x044, 31, 16⟩
/-- `STK_ID0.GEN`. -/ def Fld.stkId0Gen (n : Nat) : Fld := ⟨0x08000 + n * 0x1000 + 0x044, 15, 13⟩
/-- `STK_ID0.HEIGHT`. -/ def Fld.stkId0Height (n : Nat) : Fld := ⟨0x08000 + n * 0x1000 + 0x044, 12, 8⟩
/-- `STK_ID0.DENSITY`. -/ def Fld.stkId0Density (n : Nat) : Fld := ⟨0x08000 + n * 0x1000 + 0x044, 7, 0⟩
/-- `STK_ID1.GRADE`. -/ def Fld.stkId1Grade (n : Nat) : Fld := ⟨0x08000 + n * 0x1000 + 0x048, 23, 16⟩
/-- `STK_ID1.RATE`. -/ def Fld.stkId1Rate (n : Nat) : Fld := ⟨0x08000 + n * 0x1000 + 0x048, 15, 8⟩
/-- `STK_ID1.ODECC`. -/ def Fld.stkId1Odecc (n : Nat) : Fld := ⟨0x08000 + n * 0x1000 + 0x048, 3, 1⟩
/-- `STK_ID1.ECC`. -/ def Fld.stkId1Ecc (n : Nat) : Fld := ⟨0x08000 + n * 0x1000 + 0x048, 0, 0⟩
/-- `STK_CAP.CAP`. -/ def Fld.stkCapCap (n : Nat) : Fld := ⟨0x08000 + n * 0x1000 + 0x04C, 31, 0⟩
/-- `STK_UE_ADDR.ADDR`. -/ def Fld.stkUeAddrAddr (n : Nat) : Fld := ⟨0x08000 + n * 0x1000 + 0x050, 31, 0⟩
/-- `STK_SCRUB.DONE`. -/ def Fld.stkScrubDone (n : Nat) : Fld := ⟨0x08000 + n * 0x1000 + 0x054, 31, 16⟩
/-- `STK_SCRUB.RATE`. -/ def Fld.stkScrubRate (n : Nat) : Fld := ⟨0x08000 + n * 0x1000 + 0x054, 7, 0⟩
/-- `STK_PF.DEPTH`. -/ def Fld.stkPfDepth (n : Nat) : Fld := ⟨0x08000 + n * 0x1000 + 0x058, 3, 0⟩
/-- `STK_WAYM_DG01.HI`. -/ def Fld.stkWaymDg01Hi (n : Nat) : Fld := ⟨0x08000 + n * 0x1000 + 0x05C, 31, 16⟩
/-- `STK_WAYM_DG01.LO`. -/ def Fld.stkWaymDg01Lo (n : Nat) : Fld := ⟨0x08000 + n * 0x1000 + 0x05C, 15, 0⟩
/-- `STK_WAYM_DG23.HI`. -/ def Fld.stkWaymDg23Hi (n : Nat) : Fld := ⟨0x08000 + n * 0x1000 + 0x060, 31, 16⟩
/-- `STK_WAYM_DG23.LO`. -/ def Fld.stkWaymDg23Lo (n : Nat) : Fld := ⟨0x08000 + n * 0x1000 + 0x060, 15, 0⟩
/-- `STK_WAYM_DG45.HI`. -/ def Fld.stkWaymDg45Hi (n : Nat) : Fld := ⟨0x08000 + n * 0x1000 + 0x064, 31, 16⟩
/-- `STK_WAYM_DG45.LO`. -/ def Fld.stkWaymDg45Lo (n : Nat) : Fld := ⟨0x08000 + n * 0x1000 + 0x064, 15, 0⟩
/-- `STK_WAYM_DG67.HI`. -/ def Fld.stkWaymDg67Hi (n : Nat) : Fld := ⟨0x08000 + n * 0x1000 + 0x068, 31, 16⟩
/-- `STK_WAYM_DG67.LO`. -/ def Fld.stkWaymDg67Lo (n : Nat) : Fld := ⟨0x08000 + n * 0x1000 + 0x068, 15, 0⟩
/-- `STK_WAYM_LH.HI`. -/ def Fld.stkWaymLhHi (n : Nat) : Fld := ⟨0x08000 + n * 0x1000 + 0x06C, 31, 16⟩
/-- `STK_WAYM_LH.LO`. -/ def Fld.stkWaymLhLo (n : Nat) : Fld := ⟨0x08000 + n * 0x1000 + 0x06C, 15, 0⟩
/-- `STK_WAYM_ST.HI`. -/ def Fld.stkWaymStHi (n : Nat) : Fld := ⟨0x08000 + n * 0x1000 + 0x070, 31, 16⟩
/-- `STK_WAYM_ST.LO`. -/ def Fld.stkWaymStLo (n : Nat) : Fld := ⟨0x08000 + n * 0x1000 + 0x070, 15, 0⟩
/-- `STK_LOCK.OWNER`. -/ def Fld.stkLockOwner (n : Nat) : Fld := ⟨0x08000 + n * 0x1000 + 0x074, 31, 28⟩
/-- `STK_LOCK.WAYS`. -/ def Fld.stkLockWays (n : Nat) : Fld := ⟨0x08000 + n * 0x1000 + 0x074, 15, 0⟩
/-- `STK_WATCH.REQ`. -/ def Fld.stkWatchReq (n : Nat) : Fld := ⟨0x08000 + n * 0x1000 + 0x078, 15, 0⟩
/-- `ERR_STATUS.LOCK_WRITE`. -/ def Fld.errStatusLockWrite : Fld := ⟨0x0E000 + 0x040, 0, 0⟩
/-- `ERR_STATUS.ABSENT`. -/ def Fld.errStatusAbsent : Fld := ⟨0x0E000 + 0x040, 20, 20⟩
/-- `ERR_STATUS.XLATE`. -/ def Fld.errStatusXlate : Fld := ⟨0x0E000 + 0x040, 19, 19⟩
/-- `ERR_STATUS.NAN`. -/ def Fld.errStatusNan : Fld := ⟨0x0E000 + 0x040, 18, 18⟩
/-- `ERR_STATUS.WATCH`. -/ def Fld.errStatusWatch : Fld := ⟨0x0E000 + 0x040, 17, 17⟩
/-- `ERR_STATUS.DEBT`. -/ def Fld.errStatusDebt : Fld := ⟨0x0E000 + 0x040, 16, 16⟩
/-- `ERR_STATUS.THERM_TRIP`. -/ def Fld.errStatusThermTrip : Fld := ⟨0x0E000 + 0x040, 15, 15⟩
/-- `ERR_STATUS.THERM_HIGH`. -/ def Fld.errStatusThermHigh : Fld := ⟨0x0E000 + 0x040, 14, 14⟩
/-- `ERR_STATUS.SEAL_CAS`. -/ def Fld.errStatusSealCas : Fld := ⟨0x0E000 + 0x040, 13, 13⟩
/-- `ERR_STATUS.TALLY_MISMATCH`. -/ def Fld.errStatusTallyMismatch : Fld := ⟨0x0E000 + 0x040, 12, 12⟩
/-- `ERR_STATUS.TWIN_SILENCE`. -/ def Fld.errStatusTwinSilence : Fld := ⟨0x0E000 + 0x040, 11, 11⟩
/-- `ERR_STATUS.TWIN_LINK`. -/ def Fld.errStatusTwinLink : Fld := ⟨0x0E000 + 0x040, 10, 10⟩
/-- `ERR_STATUS.AVENUE`. -/ def Fld.errStatusAvenue : Fld := ⟨0x0E000 + 0x040, 9, 9⟩
/-- `ERR_STATUS.SC_NIBBLE`. -/ def Fld.errStatusScNibble : Fld := ⟨0x0E000 + 0x040, 8, 8⟩
/-- `ERR_STATUS.SC_UE`. -/ def Fld.errStatusScUe : Fld := ⟨0x0E000 + 0x040, 7, 7⟩
/-- `ERR_STATUS.SC_CE`. -/ def Fld.errStatusScCe : Fld := ⟨0x0E000 + 0x040, 6, 6⟩
/-- `ERR_STATUS.IDENT`. -/ def Fld.errStatusIdent : Fld := ⟨0x0E000 + 0x040, 5, 5⟩
/-- `ERR_STATUS.HL_PROTOCOL`. -/ def Fld.errStatusHlProtocol : Fld := ⟨0x0E000 + 0x040, 4, 4⟩
/-- `ERR_STATUS.ENABLE_REFUSED`. -/ def Fld.errStatusEnableRefused : Fld := ⟨0x0E000 + 0x040, 3, 3⟩
/-- `ERR_STATUS.CRC`. -/ def Fld.errStatusCrc : Fld := ⟨0x0E000 + 0x040, 2, 2⟩
/-- `ERR_STATUS.PARITY`. -/ def Fld.errStatusParity : Fld := ⟨0x0E000 + 0x040, 1, 1⟩
/-- `ERR_LOCK_ADDR.OFFSET`. -/ def Fld.errLockAddrOffset : Fld := ⟨0x0E000 + 0x044, 19, 2⟩
/-- `ERR_PAR_ADDR.OFFSET`. -/ def Fld.errParAddrOffset : Fld := ⟨0x0E000 + 0x048, 19, 2⟩
/-- `ERR_FIRST.BIT`. -/ def Fld.errFirstBit : Fld := ⟨0x0E000 + 0x04C, 20, 16⟩
/-- `ERR_FIRST.VALID`. -/ def Fld.errFirstValid : Fld := ⟨0x0E000 + 0x04C, 15, 15⟩
/-- `ERR_FIRST.UNIT`. -/ def Fld.errFirstUnit : Fld := ⟨0x0E000 + 0x04C, 7, 0⟩
/-- `CTR_SNAP.SEQ`. -/ def Fld.ctrSnapSeq : Fld := ⟨0x0F000 + 0x040, 31, 16⟩
/-- `CTR_SNAP.SNAP`. -/ def Fld.ctrSnapSnap : Fld := ⟨0x0F000 + 0x040, 0, 0⟩
/-- `CTR_SEL.UNIT`. -/ def Fld.ctrSelUnit : Fld := ⟨0x0F000 + 0x044, 15, 8⟩
/-- `CTR_SEL.INDEX`. -/ def Fld.ctrSelIndex : Fld := ⟨0x0F000 + 0x044, 7, 0⟩
/-- `CTR_HOLD_SEQ.SEQ`. -/ def Fld.ctrHoldSeqSeq : Fld := ⟨0x0F000 + 0x058, 15, 0⟩
/-- `DST_CTL.REOPEN`. -/ def Fld.dstCtlReopen (n : Nat) : Fld := ⟨0x40000 + n * 0x1000 + 0x040, 1, 1⟩
/-- `DST_CTL.CLOSE`. -/ def Fld.dstCtlClose (n : Nat) : Fld := ⟨0x40000 + n * 0x1000 + 0x040, 0, 0⟩
/-- `DST_STATE.SPILLED`. -/ def Fld.dstStateSpilled (n : Nat) : Fld := ⟨0x40000 + n * 0x1000 + 0x044, 31, 16⟩
/-- `DST_STATE.DRAINED`. -/ def Fld.dstStateDrained (n : Nat) : Fld := ⟨0x40000 + n * 0x1000 + 0x044, 9, 9⟩
/-- `DST_STATE.CLOSED`. -/ def Fld.dstStateClosed (n : Nat) : Fld := ⟨0x40000 + n * 0x1000 + 0x044, 8, 8⟩
/-- `DST_STATE.ISOLATED`. -/ def Fld.dstStateIsolated (n : Nat) : Fld := ⟨0x40000 + n * 0x1000 + 0x044, 5, 5⟩
/-- `DST_STATE.NO_SIDE`. -/ def Fld.dstStateNoSide (n : Nat) : Fld := ⟨0x40000 + n * 0x1000 + 0x044, 4, 4⟩
/-- `DST_STATE.FAULT`. -/ def Fld.dstStateFault (n : Nat) : Fld := ⟨0x40000 + n * 0x1000 + 0x044, 3, 3⟩
/-- `DST_STATE.RUNG`. -/ def Fld.dstStateRung (n : Nat) : Fld := ⟨0x40000 + n * 0x1000 + 0x044, 2, 2⟩
/-- `DST_STATE.HEAT`. -/ def Fld.dstStateHeat (n : Nat) : Fld := ⟨0x40000 + n * 0x1000 + 0x044, 1, 1⟩
/-- `DST_STATE.HOST`. -/ def Fld.dstStateHost (n : Nat) : Fld := ⟨0x40000 + n * 0x1000 + 0x044, 0, 0⟩
/-- `DST_SIDE_BASE.BASE`. -/ def Fld.dstSideBaseBase (n : Nat) : Fld := ⟨0x40000 + n * 0x1000 + 0x048, 31, 8⟩
/-- `DST_SIDE_BASE.EN`. -/ def Fld.dstSideBaseEn (n : Nat) : Fld := ⟨0x40000 + n * 0x1000 + 0x048, 0, 0⟩
/-- `DST_SQ_CTL.FILL`. -/ def Fld.dstSqCtlFill (n : Nat) : Fld := ⟨0x40000 + n * 0x1000 + 0x04C, 27, 16⟩
/-- `DST_SQ_CTL.HEAT`. -/ def Fld.dstSqCtlHeat (n : Nat) : Fld := ⟨0x40000 + n * 0x1000 + 0x04C, 15, 4⟩
/-- `DST_SQ_CTL.AGE_SHIFT`. -/ def Fld.dstSqCtlAgeShift (n : Nat) : Fld := ⟨0x40000 + n * 0x1000 + 0x04C, 3, 0⟩
/-- `DST_HEAP_CTL.USED`. -/ def Fld.dstHeapCtlUsed (n : Nat) : Fld := ⟨0x40000 + n * 0x1000 + 0x050, 28, 16⟩
/-- `DST_HEAP_CTL.SLOTS`. -/ def Fld.dstHeapCtlSlots (n : Nat) : Fld := ⟨0x40000 + n * 0x1000 + 0x050, 3, 0⟩
/-- `DST_CORE_CTL.SPLIT_DEF`. -/ def Fld.dstCoreCtlSplitDef (n : Nat) : Fld := ⟨0x40000 + n * 0x1000 + 0x054, 5, 4⟩
/-- `DST_CORE_CTL.PREEMPT`. -/ def Fld.dstCoreCtlPreempt (n : Nat) : Fld := ⟨0x40000 + n * 0x1000 + 0x054, 2, 2⟩
/-- `DST_CORE_CTL.HALT`. -/ def Fld.dstCoreCtlHalt (n : Nat) : Fld := ⟨0x40000 + n * 0x1000 + 0x054, 1, 1⟩
/-- `DST_CORE_STATUS.SPLIT`. -/ def Fld.dstCoreStatusSplit (n : Nat) : Fld := ⟨0x40000 + n * 0x1000 + 0x058, 25, 24⟩
/-- `DST_CORE_STATUS.PARKED_TRAP`. -/ def Fld.dstCoreStatusParkedTrap (n : Nat) : Fld := ⟨0x40000 + n * 0x1000 + 0x058, 22, 16⟩
/-- `DST_CORE_STATUS.PARKED_PRE`. -/ def Fld.dstCoreStatusParkedPre (n : Nat) : Fld := ⟨0x40000 + n * 0x1000 + 0x058, 13, 8⟩
/-- `DST_CORE_STATUS.RESIDENT`. -/ def Fld.dstCoreStatusResident (n : Nat) : Fld := ⟨0x40000 + n * 0x1000 + 0x058, 5, 0⟩
/-- `DST_PARK_BASE.BASE`. -/ def Fld.dstParkBaseBase (n : Nat) : Fld := ⟨0x40000 + n * 0x1000 + 0x05C, 31, 8⟩
/-- `DST_PARK_BASE.EN`. -/ def Fld.dstParkBaseEn (n : Nat) : Fld := ⟨0x40000 + n * 0x1000 + 0x05C, 0, 0⟩
/-- `DST_TRAP_CMD.ACTION`. -/ def Fld.dstTrapCmdAction (n : Nat) : Fld := ⟨0x40000 + n * 0x1000 + 0x060, 9, 8⟩
/-- `DST_TRAP_CMD.HANDLE`. -/ def Fld.dstTrapCmdHandle (n : Nat) : Fld := ⟨0x40000 + n * 0x1000 + 0x060, 6, 0⟩
/-- `DST_TEMP.TEMP`. -/ def Fld.dstTempTemp (n : Nat) : Fld := ⟨0x40000 + n * 0x1000 + 0x064, 9, 0⟩
/-- `DST_RUNG.CURRENT`. -/ def Fld.dstRungCurrent (n : Nat) : Fld := ⟨0x40000 + n * 0x1000 + 0x068, 5, 4⟩
/-- `DST_RUNG.AUTO_QUIET`. -/ def Fld.dstRungAutoQuiet (n : Nat) : Fld := ⟨0x40000 + n * 0x1000 + 0x068, 2, 2⟩
/-- `DST_RUNG.TARGET`. -/ def Fld.dstRungTarget (n : Nat) : Fld := ⟨0x40000 + n * 0x1000 + 0x068, 1, 0⟩
/-- `DST_WATCH.STEP`. -/ def Fld.dstWatchStep (n : Nat) : Fld := ⟨0x40000 + n * 0x1000 + 0x06C, 31, 16⟩
/-- `DST_WATCH.CORE`. -/ def Fld.dstWatchCore (n : Nat) : Fld := ⟨0x40000 + n * 0x1000 + 0x06C, 15, 0⟩
/-- `QUE_BASE_LO.ADDR`. -/ def Fld.queBaseLoAddr (n : Nat) : Fld := ⟨0xC0000 + n * 0x1000 + 0x040, 31, 6⟩
/-- `QUE_BASE_HI.ADDR`. -/ def Fld.queBaseHiAddr (n : Nat) : Fld := ⟨0xC0000 + n * 0x1000 + 0x044, 19, 0⟩
/-- `QUE_DEPTH.DEPTH`. -/ def Fld.queDepthDepth (n : Nat) : Fld := ⟨0xC0000 + n * 0x1000 + 0x048, 16, 0⟩
/-- `QUE_TAIL.PHASE`. -/ def Fld.queTailPhase (n : Nat) : Fld := ⟨0xC0000 + n * 0x1000 + 0x04C, 16, 16⟩
/-- `QUE_TAIL.INDEX`. -/ def Fld.queTailIndex (n : Nat) : Fld := ⟨0xC0000 + n * 0x1000 + 0x04C, 15, 0⟩
/-- `QUE_HEAD.PHASE`. -/ def Fld.queHeadPhase (n : Nat) : Fld := ⟨0xC0000 + n * 0x1000 + 0x050, 16, 16⟩
/-- `QUE_HEAD.INDEX`. -/ def Fld.queHeadIndex (n : Nat) : Fld := ⟨0xC0000 + n * 0x1000 + 0x050, 15, 0⟩
/-- `QUE_CLASS_TENANT.TENANT_LOCK`. -/ def Fld.queClassTenantTenantLock (n : Nat) : Fld := ⟨0xC0000 + n * 0x1000 + 0x054, 16, 16⟩
/-- `QUE_CLASS_TENANT.CLASS`. -/ def Fld.queClassTenantClass (n : Nat) : Fld := ⟨0xC0000 + n * 0x1000 + 0x054, 13, 12⟩
/-- `QUE_CLASS_TENANT.TENANT`. -/ def Fld.queClassTenantTenant (n : Nat) : Fld := ⟨0xC0000 + n * 0x1000 + 0x054, 11, 0⟩
/-- `QUE_COMPL_BASE.ADDR`. -/ def Fld.queComplBaseAddr (n : Nat) : Fld := ⟨0xC0000 + n * 0x1000 + 0x058, 31, 6⟩
/-- `QUE_SEAL_ADDR.ADDR`. -/ def Fld.queSealAddrAddr (n : Nat) : Fld := ⟨0xC0000 + n * 0x1000 + 0x05C, 31, 3⟩
/-- `QUE_RESUME.RESUME`. -/ def Fld.queResumeResume (n : Nat) : Fld := ⟨0xC0000 + n * 0x1000 + 0x060, 0, 0⟩
/-- `QUE_STATE.ERR`. -/ def Fld.queStateErr (n : Nat) : Fld := ⟨0xC0000 + n * 0x1000 + 0x064, 15, 12⟩
/-- `QUE_STATE.CANCEL`. -/ def Fld.queStateCancel (n : Nat) : Fld := ⟨0xC0000 + n * 0x1000 + 0x064, 9, 9⟩
/-- `QUE_STATE.RUN`. -/ def Fld.queStateRun (n : Nat) : Fld := ⟨0xC0000 + n * 0x1000 + 0x064, 8, 8⟩
/-- `QUE_STATE.STATE`. -/ def Fld.queStateState (n : Nat) : Fld := ⟨0xC0000 + n * 0x1000 + 0x064, 2, 0⟩
/-- `QUE_PTROOT_LO.ADDR`. -/ def Fld.quePtrootLoAddr (n : Nat) : Fld := ⟨0xC0000 + n * 0x1000 + 0x068, 31, 16⟩
/-- `QUE_PTROOT_HI.ADDR`. -/ def Fld.quePtrootHiAddr (n : Nat) : Fld := ⟨0xC0000 + n * 0x1000 + 0x06C, 19, 0⟩
/-- `QUE_EST.EST`. -/ def Fld.queEstEst (n : Nat) : Fld := ⟨0xC0000 + n * 0x1000 + 0x070, 31, 0⟩
/-- `QUE_IRQ_LO.ADDR`. -/ def Fld.queIrqLoAddr (n : Nat) : Fld := ⟨0xC0000 + n * 0x1000 + 0x074, 31, 2⟩
/-- `QUE_IRQ_HI.ADDR`. -/ def Fld.queIrqHiAddr (n : Nat) : Fld := ⟨0xC0000 + n * 0x1000 + 0x078, 19, 0⟩
/-- `QUE_IRQ_DATA.DATA`. -/ def Fld.queIrqDataData (n : Nat) : Fld := ⟨0xC0000 + n * 0x1000 + 0x07C, 31, 0⟩
/-- `QUE_SEQ.SEQ`. -/ def Fld.queSeqSeq (n : Nat) : Fld := ⟨0xC0000 + n * 0x1000 + 0x080, 31, 0⟩
/-- `QUE_UNSEALED.COUNT`. -/ def Fld.queUnsealedCount (n : Nat) : Fld := ⟨0xC0000 + n * 0x1000 + 0x084, 16, 0⟩
/-- `PG_INJECT.CFG`. -/ def Fld.blkInjectCfg : Fld := ⟨0x00000 + 0x010, 31, 31⟩
/-- `PG_INJECT.CFG`. -/ def Fld.lnkInjectCfg : Fld := ⟨0x01000 + 0x010, 31, 31⟩
/-- `PG_INJECT.HOST`. -/ def Fld.lnkInjectHost : Fld := ⟨0x01000 + 0x010, 2, 2⟩
/-- `PG_INJECT.SEAL_CAS`. -/ def Fld.lnkInjectSealCas : Fld := ⟨0x01000 + 0x010, 1, 1⟩
/-- `PG_INJECT.XLATE`. -/ def Fld.lnkInjectXlate : Fld := ⟨0x01000 + 0x010, 0, 0⟩
/-- `PG_INJECT.CFG`. -/ def Fld.twnInjectCfg : Fld := ⟨0x02000 + 0x010, 31, 31⟩
/-- `PG_INJECT.SILENCE`. -/ def Fld.twnInjectSilence : Fld := ⟨0x02000 + 0x010, 1, 1⟩
/-- `PG_INJECT.LINK`. -/ def Fld.twnInjectLink : Fld := ⟨0x02000 + 0x010, 0, 0⟩
/-- `PG_INJECT.CFG`. -/ def Fld.chInjectCfg : Fld := ⟨0x03000 + 0x010, 31, 31⟩
/-- `PG_INJECT.DEBT`. -/ def Fld.chInjectDebt : Fld := ⟨0x03000 + 0x010, 0, 0⟩
/-- `PG_INJECT.CFG`. -/ def Fld.tlyInjectCfg : Fld := ⟨0x04000 + 0x010, 31, 31⟩
/-- `PG_INJECT.MISMATCH`. -/ def Fld.tlyInjectMismatch : Fld := ⟨0x04000 + 0x010, 2, 2⟩
/-- `PG_INJECT.CODE`. -/ def Fld.tlyInjectCode : Fld := ⟨0x04000 + 0x010, 1, 0⟩
/-- `PG_INJECT.CFG`. -/ def Fld.tenInjectCfg : Fld := ⟨0x05000 + 0x010, 31, 31⟩
/-- `PG_INJECT.TBL`. -/ def Fld.tenInjectTbl : Fld := ⟨0x05000 + 0x010, 0, 0⟩
/-- `PG_INJECT.CFG`. -/ def Fld.mapInjectCfg : Fld := ⟨0x06000 + 0x010, 31, 31⟩
/-- `PG_INJECT.TBL`. -/ def Fld.mapInjectTbl : Fld := ⟨0x06000 + 0x010, 0, 0⟩
/-- `PG_INJECT.CFG`. -/ def Fld.pwrInjectCfg : Fld := ⟨0x07000 + 0x010, 31, 31⟩
/-- `PG_INJECT.VACK`. -/ def Fld.pwrInjectVack : Fld := ⟨0x07000 + 0x010, 0, 0⟩
/-- `PG_INJECT.CFG`. -/ def Fld.stkInjectCfg (n : Nat) : Fld := ⟨0x08000 + n * 0x1000 + 0x010, 31, 31⟩
/-- `PG_INJECT.REQ`. -/ def Fld.stkInjectReq (n : Nat) : Fld := ⟨0x08000 + n * 0x1000 + 0x010, 4, 4⟩
/-- `PG_INJECT.IDENT`. -/ def Fld.stkInjectIdent (n : Nat) : Fld := ⟨0x08000 + n * 0x1000 + 0x010, 3, 3⟩
/-- `PG_INJECT.SC_PAR`. -/ def Fld.stkInjectScPar (n : Nat) : Fld := ⟨0x08000 + n * 0x1000 + 0x010, 2, 2⟩
/-- `PG_INJECT.STACK`. -/ def Fld.stkInjectStack (n : Nat) : Fld := ⟨0x08000 + n * 0x1000 + 0x010, 1, 0⟩
/-- `PG_INJECT.CFG`. -/ def Fld.errInjectCfg : Fld := ⟨0x0E000 + 0x010, 31, 31⟩
/-- `PG_INJECT.HL_PROTOCOL`. -/ def Fld.errInjectHlProtocol : Fld := ⟨0x0E000 + 0x010, 2, 2⟩
/-- `PG_INJECT.ENABLE_REFUSED`. -/ def Fld.errInjectEnableRefused : Fld := ⟨0x0E000 + 0x010, 1, 1⟩
/-- `PG_INJECT.LOCK_WRITE`. -/ def Fld.errInjectLockWrite : Fld := ⟨0x0E000 + 0x010, 0, 0⟩
/-- `PG_INJECT.CFG`. -/ def Fld.ctrInjectCfg : Fld := ⟨0x0F000 + 0x010, 31, 31⟩
/-- `PG_INJECT.CFG`. -/ def Fld.dstInjectCfg (n : Nat) : Fld := ⟨0x40000 + n * 0x1000 + 0x010, 31, 31⟩
/-- `PG_INJECT.ABSENT`. -/ def Fld.dstInjectAbsent (n : Nat) : Fld := ⟨0x40000 + n * 0x1000 + 0x010, 18, 18⟩
/-- `PG_INJECT.NAN`. -/ def Fld.dstInjectNan (n : Nat) : Fld := ⟨0x40000 + n * 0x1000 + 0x010, 17, 17⟩
/-- `PG_INJECT.AV_CLOSE`. -/ def Fld.dstInjectAvClose (n : Nat) : Fld := ⟨0x40000 + n * 0x1000 + 0x010, 16, 16⟩
/-- `PG_INJECT.AV_CRC`. -/ def Fld.dstInjectAvCrc (n : Nat) : Fld := ⟨0x40000 + n * 0x1000 + 0x010, 15, 15⟩
/-- `PG_INJECT.SENSOR`. -/ def Fld.dstInjectSensor (n : Nat) : Fld := ⟨0x40000 + n * 0x1000 + 0x010, 14, 14⟩
/-- `PG_INJECT.TRIP`. -/ def Fld.dstInjectTrip (n : Nat) : Fld := ⟨0x40000 + n * 0x1000 + 0x010, 13, 13⟩
/-- `PG_INJECT.HIGH`. -/ def Fld.dstInjectHigh (n : Nat) : Fld := ⟨0x40000 + n * 0x1000 + 0x010, 12, 12⟩
/-- `PG_INJECT.TILE`. -/ def Fld.dstInjectTile (n : Nat) : Fld := ⟨0x40000 + n * 0x1000 + 0x010, 11, 11⟩
/-- `PG_INJECT.CORE`. -/ def Fld.dstInjectCore (n : Nat) : Fld := ⟨0x40000 + n * 0x1000 + 0x010, 10, 10⟩
/-- `PG_INJECT.STEP`. -/ def Fld.dstInjectStep (n : Nat) : Fld := ⟨0x40000 + n * 0x1000 + 0x010, 9, 9⟩
/-- `PG_INJECT.NC`. -/ def Fld.dstInjectNc (n : Nat) : Fld := ⟨0x40000 + n * 0x1000 + 0x010, 8, 8⟩
/-- `PG_INJECT.RF`. -/ def Fld.dstInjectRf (n : Nat) : Fld := ⟨0x40000 + n * 0x1000 + 0x010, 7, 6⟩
/-- `PG_INJECT.DESK`. -/ def Fld.dstInjectDesk (n : Nat) : Fld := ⟨0x40000 + n * 0x1000 + 0x010, 5, 4⟩
/-- `PG_INJECT.WQ`. -/ def Fld.dstInjectWq (n : Nat) : Fld := ⟨0x40000 + n * 0x1000 + 0x010, 3, 2⟩
/-- `PG_INJECT.PLOT`. -/ def Fld.dstInjectPlot (n : Nat) : Fld := ⟨0x40000 + n * 0x1000 + 0x010, 1, 0⟩
/-- `PG_INJECT.CFG`. -/ def Fld.queInjectCfg (n : Nat) : Fld := ⟨0xC0000 + n * 0x1000 + 0x010, 31, 31⟩
/-- `PG_STATUS.RUNG` of `BLK`. -/ def Fld.blkStRung : Fld := ⟨0x00000 + 0x008, 3, 3⟩
/-- `PG_STATUS.RST_DONE` of `BLK`. -/ def Fld.blkStRstDone : Fld := ⟨0x00000 + 0x008, 2, 2⟩
/-- `PG_STATUS.MOP_DONE` of `BLK`. -/ def Fld.blkStMopDone : Fld := ⟨0x00000 + 0x008, 1, 1⟩
/-- `PG_STATUS.READY` of `BLK`. -/ def Fld.blkStReady : Fld := ⟨0x00000 + 0x008, 0, 0⟩
/-- `PG_STATUS.LOST` of `LNK`. -/ def Fld.lnkStLost : Fld := ⟨0x01000 + 0x008, 4, 4⟩
/-- `PG_STATUS.LINK` of `LNK`. -/ def Fld.lnkStLink : Fld := ⟨0x01000 + 0x008, 3, 3⟩
/-- `PG_STATUS.FRING_FULL` of `LNK`. -/ def Fld.lnkStFringFull : Fld := ⟨0x01000 + 0x008, 2, 2⟩
/-- `PG_STATUS.SHOOT_DONE` of `LNK`. -/ def Fld.lnkStShootDone : Fld := ⟨0x01000 + 0x008, 1, 1⟩
/-- `PG_STATUS.FRECORD` of `LNK`. -/ def Fld.lnkStFrecord : Fld := ⟨0x01000 + 0x008, 0, 0⟩
/-- `PG_STATUS.LEDGER_FULL` of `CH`. -/ def Fld.chStLedgerFull : Fld := ⟨0x03000 + 0x008, 2, 2⟩
/-- `PG_STATUS.DIM` of `CH`. -/ def Fld.chStDim : Fld := ⟨0x03000 + 0x008, 1, 1⟩
/-- `PG_STATUS.DEBT` of `CH`. -/ def Fld.chStDebt : Fld := ⟨0x03000 + 0x008, 0, 0⟩
/-- `PG_STATUS.WAITING` of `TLY`. -/ def Fld.tlyStWaiting : Fld := ⟨0x04000 + 0x008, 3, 3⟩
/-- `PG_STATUS.MISMATCH` of `TLY`. -/ def Fld.tlyStMismatch : Fld := ⟨0x04000 + 0x008, 2, 2⟩
/-- `PG_STATUS.UE` of `TLY`. -/ def Fld.tlyStUe : Fld := ⟨0x04000 + 0x008, 1, 1⟩
/-- `PG_STATUS.CE` of `TLY`. -/ def Fld.tlyStCe : Fld := ⟨0x04000 + 0x008, 0, 0⟩
/-- `PG_STATUS.TBL_ERR` of `TEN`. -/ def Fld.tenStTblErr : Fld := ⟨0x05000 + 0x008, 0, 0⟩
/-- `PG_STATUS.TBL_ERR` of `MAP`. -/ def Fld.mapStTblErr : Fld := ⟨0x06000 + 0x008, 0, 0⟩
/-- `PG_STATUS.RUNG` of `PWR`. -/ def Fld.pwrStRung : Fld := ⟨0x07000 + 0x008, 4, 4⟩
/-- `PG_STATUS.SENSOR` of `PWR`. -/ def Fld.pwrStSensor : Fld := ⟨0x07000 + 0x008, 3, 3⟩
/-- `PG_STATUS.TRIP` of `PWR`. -/ def Fld.pwrStTrip : Fld := ⟨0x07000 + 0x008, 2, 2⟩
/-- `PG_STATUS.HIGH` of `PWR`. -/ def Fld.pwrStHigh : Fld := ⟨0x07000 + 0x008, 1, 1⟩
/-- `PG_STATUS.VACK_STUCK` of `PWR`. -/ def Fld.pwrStVackStuck : Fld := ⟨0x07000 + 0x008, 0, 0⟩
/-- `PG_STATUS.WATCH` of `STK`. -/ def Fld.stkStWatch (n : Nat) : Fld := ⟨0x08000 + n * 0x1000 + 0x008, 5, 5⟩
/-- `PG_STATUS.ABSENT` of `STK`. -/ def Fld.stkStAbsent (n : Nat) : Fld := ⟨0x08000 + n * 0x1000 + 0x008, 4, 4⟩
/-- `PG_STATUS.IDENT` of `STK`. -/ def Fld.stkStIdent (n : Nat) : Fld := ⟨0x08000 + n * 0x1000 + 0x008, 3, 3⟩
/-- `PG_STATUS.NIBBLE` of `STK`. -/ def Fld.stkStNibble (n : Nat) : Fld := ⟨0x08000 + n * 0x1000 + 0x008, 2, 2⟩
/-- `PG_STATUS.UE` of `STK`. -/ def Fld.stkStUe (n : Nat) : Fld := ⟨0x08000 + n * 0x1000 + 0x008, 1, 1⟩
/-- `PG_STATUS.CE` of `STK`. -/ def Fld.stkStCe (n : Nat) : Fld := ⟨0x08000 + n * 0x1000 + 0x008, 0, 0⟩
/-- `PG_STATUS.WAVE_DONE` of `CTR`. -/ def Fld.ctrStWaveDone : Fld := ⟨0x0F000 + 0x008, 0, 0⟩
/-- `PG_STATUS.DRAINED` of `DST`. -/ def Fld.dstStDrained (n : Nat) : Fld := ⟨0x40000 + n * 0x1000 + 0x008, 6, 6⟩
/-- `PG_STATUS.SC_UE` of `DST`. -/ def Fld.dstStScUe (n : Nat) : Fld := ⟨0x40000 + n * 0x1000 + 0x008, 5, 5⟩
/-- `PG_STATUS.SC_CE` of `DST`. -/ def Fld.dstStScCe (n : Nat) : Fld := ⟨0x40000 + n * 0x1000 + 0x008, 4, 4⟩
/-- `PG_STATUS.THERM` of `DST`. -/ def Fld.dstStTherm (n : Nat) : Fld := ⟨0x40000 + n * 0x1000 + 0x008, 3, 3⟩
/-- `PG_STATUS.WATCH` of `DST`. -/ def Fld.dstStWatch (n : Nat) : Fld := ⟨0x40000 + n * 0x1000 + 0x008, 2, 2⟩
/-- `PG_STATUS.TRAP` of `DST`. -/ def Fld.dstStTrap (n : Nat) : Fld := ⟨0x40000 + n * 0x1000 + 0x008, 1, 1⟩
/-- `PG_STATUS.CLOSE_CHANGE` of `DST`. -/ def Fld.dstStCloseChange (n : Nat) : Fld := ⟨0x40000 + n * 0x1000 + 0x008, 0, 0⟩
/-- `PG_STATUS.CANCELLED` of `QUE`. -/ def Fld.queStCancelled (n : Nat) : Fld := ⟨0xC0000 + n * 0x1000 + 0x008, 3, 3⟩
/-- `PG_STATUS.DRAINED` of `QUE`. -/ def Fld.queStDrained (n : Nat) : Fld := ⟨0xC0000 + n * 0x1000 + 0x008, 2, 2⟩
/-- `PG_STATUS.PARKED` of `QUE`. -/ def Fld.queStParked (n : Nat) : Fld := ⟨0xC0000 + n * 0x1000 + 0x008, 1, 1⟩
/-- `PG_STATUS.ERR` of `QUE`. -/ def Fld.queStErr (n : Nat) : Fld := ⟨0xC0000 + n * 0x1000 + 0x008, 0, 0⟩

/-- A bit of a page's `PG_STATUS`. -/ def Fld.status (pg n : Nat) : Fld := ⟨pg * 0x1000 + 0x008, n, n⟩
/-- `PG_STATUS.CFG_ERR` of a page. -/ def Fld.cfgErr (pg : Nat) : Fld := ⟨pg * 0x1000 + 0x008, 31, 31⟩
/-- `PG_IRQEN` of a page. -/ def Fld.irqen (pg : Nat) : Fld := ⟨pg * 0x1000 + 0x00C, 31, 0⟩
/-- `PG_CTL.CRC_CHECK` of a page. -/ def Fld.crcCheck (pg : Nat) : Fld := ⟨pg * 0x1000 + 0x004, 0, 0⟩
/-- `PG_CTL.PAR_CHECK` of a page. -/ def Fld.parCheck (pg : Nat) : Fld := ⟨pg * 0x1000 + 0x004, 1, 1⟩
/-- `PG_CRCREF` of a page. -/ def Fld.crcRef (pg : Nat) : Fld := ⟨pg * 0x1000 + 0x014, 31, 0⟩
/-- `PG_LOCK` of a page. -/ def Fld.pgLock (pg : Nat) : Fld := ⟨pg * 0x1000 + 0x01C, 31, 0⟩
/-- `PG_SNAP.SEQ` of a page. -/ def Fld.snapSeq (pg : Nat) : Fld := ⟨pg * 0x1000 + 0x020, 31, 16⟩

end Sys2Proof.Machine
end

