-- ==== Sys2Proof/Machine/Ops.lean ====
section
/-! DEFINITION. The named operations over the state that every family shares: registers and their fields, counters,
the event interrupt and detector reports (R502), host memory, districts, ports and batches. -/

namespace Sys2Proof.Machine

/-- What a command's meaning answers. -/
abbrev Res := Host.Outcome State Fault Refusal

/-! ## Registers -/

/-- The stored value of the register at a window offset. -/
def State.reg (s : State) (off : Nat) : Word := (SMap.find s.regs off).getD (regAt off).reset

/-- A register store with one register set: a register at its reset value is not listed. -/
def regsSet (m : SMap Word) (off : Nat) (v : Word) : SMap Word :=
  if v = (regAt off).reset then SMap.del m off else SMap.put m off v

/-- A register set by hardware. -/
def State.setReg (s : State) (off : Nat) (v : Word) : State := { s with regs := regsSet s.regs off v }

/-- A field's value. -/
def State.rd (s : State) (f : Fld) : Nat := field (s.reg f.off) f.hi f.lo

/-- Whether a field is not zero. -/
def State.flag (s : State) (f : Fld) : Bool := decide (s.rd f ≠ 0)

/-- A field set by hardware. -/
def State.wr (s : State) (f : Fld) (v : Nat) : State := s.setReg f.off (putField (s.reg f.off) f.hi f.lo v)

/-- The page a window offset lies on. -/
def offPage (off : Nat) : Nat := off / 0x1000

/-- The register's RW, M and WL bits: what the page's CRC or the register's parity covers (R470, R472). -/
def regCover (off : Nat) : Word :=
  if off % 0x1000 = 0x004 then 0xFFFF else if off % 0x1000 = 0x01C then 0xFFFFFFFF else (regAt off).rw

/-- Whether some register of a page fails parity. -/
def State.pageBad (s : State) (pg : Nat) : Bool := s.parBad.any (fun o => decide (offPage o = pg))

/-- Whether the function of a block page is halted (R472, R473). -/
def State.halted (s : State) (k : PageKind) (n : Nat := 0) : Bool :=
  s.pageBad (k.first + n) && s.flag (Fld.parCheck (k.first + n))

/-! ## Counters (R474, R497) -/

/-- Unit codes (R496). -/
def unitGate : Nat := 0x88
def unitCh : Nat := 0x89
def unitTly : Nat := 0x8A
def unitTwn : Nat := 0x8B
def unitPwr : Nat := 0x8C
def unitStk (p : Nat) : Nat := 0x80 + p
def unitNone : Nat := 0xFF

/-- How many counters a unit has (R497). -/
def unitCounters (u : Nat) : Nat :=
  if u < 0x80 then 28 else if u < 0x86 then 12 else if u = 0x88 then 12 else if u = 0x89 then 9
  else if u = 0x8A then 4 else if u = 0x8B then 4 else if u = 0x8C then 3 else 0

/-- A counter advanced, modulo 2^64. -/
def State.count (s : State) (u i n : Nat) : State :=
  { s with live := SMap.set 0 s.live (u * 256 + i) (SMap.get 0 s.live (u * 256 + i) + BitVec.ofNat 64 n) }

/-- The page of a unit code (R496). -/
def unitPage (u : Nat) : Nat :=
  if u < 0x80 then 0x40 + u else if u < 0x86 then 8 + (u - 0x80) else if u = 0x88 then 1 else if u = 0x89 then 3
  else if u = 0x8A then 4 else if u = 0x8B then 2 else if u = 0x8C then 7 else 0

/-- The unit code of a page, 0xFF for a page without one (R468, R494, R496). -/
def pageUnit (pg : Nat) : Nat :=
  if 0x40 ≤ pg ∧ pg < 0xC0 then pg - 0x40 else if 8 ≤ pg ∧ pg < 14 then 0x80 + (pg - 8)
  else if pg = 1 then 0x88 else if pg = 3 then 0x89 else if pg = 4 then 0x8A else if pg = 2 then 0x8B
  else if pg = 7 then 0x8C else 0xFF

/-! ## Status bits, the event interrupt, detector reports -/

/-- The event interrupt is asked for; requests merge (R447). -/
def State.askEvent (s : State) : State := { s with gate := { s.gate with evtWant := true } }

/-- Whether `PG_IRQEN` of a page enables bit `n` (R461). The `ERR` and `CTR` pages' enables act as zero while their
page is halted (R473). -/
def State.irqOn (s : State) (pg n : Nat) : Bool :=
  bit (s.rd (Fld.irqen pg)) n && !((decide (pg = 14) || decide (pg = 15)) && s.pageBad pg && s.flag (Fld.parCheck pg))

/-- A status bit set: the event it stands for occurred (R461, R482). -/
def State.setBit (s : State) (f : Fld) (pg : Nat) : State :=
  let t := s.wr f 1
  if s.irqOn pg f.lo then t.askEvent else t

/-- A bit of `PG_STATUS` set, with its interrupt. -/
def State.status (s : State) (pg n : Nat) : State := s.setBit (Fld.status pg n) pg

/-- An event of `TWN_EVENT` (R418, R461). -/
def State.twnEvent (s : State) (f : Fld) : State := s.setBit f 2

/-- Every bit of `ERR_STATUS`, and `ERR_FIRST.VALID`, reads 0 (R494). -/
def State.errClear (s : State) : Bool := decide (s.reg 0x0E040 = 0) && !s.flag Fld.errFirstValid

/-- Steps 2 and 3 of a report (R502): the bit of `ERR_STATUS`, and the `ERR_FIRST` capture when R494 allows one. -/
def State.errBit (s : State) (n unit : Nat) : State :=
  let t := s.setBit ⟨0x0E040, n, n⟩ 14
  if s.errClear then ((t.wr Fld.errFirstBit n).wr Fld.errFirstValid 1).wr Fld.errFirstUnit unit else t

/-- A detector report (R502): the page bit, the `ERR_STATUS` bit with its capture, and the unit's counter. The
interrupts go with the bits; records and the response are the caller's. -/
def State.report (s : State) (page : Option (Nat × Nat)) (err : Option Nat) (unit : Nat) (ctr : Option Nat) : State :=
  let s1 := match page with
    | some (pg, n) => s.status pg n
    | none => s
  let s2 := match err with
    | some n => s1.errBit n unit
    | none => s1
  match ctr with
  | some i => s2.count unit i 1
  | none => s2

/-! ## Injection arms (R506) -/

/-- Whether an arm is set. -/
def State.armed (s : State) (f : Fld) : Bool := s.flag f

/-- An arm that has acted clears itself. -/
def State.disarm (s : State) (f : Fld) : State := s.wr f 0

/-- The error pattern of a 2-bit code arm on the 72-bit word (R508); data bits lowest. -/
def armPattern (v : Nat) : BitVec 72 :=
  if v = 1 then 0x1 else if v = 2 then 0x11 else if v = 3 then 0xF else 0

/-! ## Districts, ports, batches -/

/-- A district's state. -/
def State.dist (s : State) (d : Nat) : District := SMap.get District.reset s.dists d

/-- A district's state set. -/
def State.setDist (s : State) (d : Nat) (x : District) : State :=
  { s with dists := SMap.set District.reset s.dists d x }

/-- A district's state changed. -/
def State.updDist (s : State) (d : Nat) (f : District → District) : State := s.setDist d (f (s.dist d))

/-- A stack port's state. -/
def State.port (s : State) (p : Nat) : StackPort := SMap.get StackPort.reset s.stk p

/-- A stack port's state set. -/
def State.setPort (s : State) (p : Nat) (x : StackPort) : State :=
  { s with stk := SMap.set StackPort.reset s.stk p x }

/-- A stack port's state changed. -/
def State.updPort (s : State) (p : Nat) (f : StackPort → StackPort) : State := s.setPort p (f (s.port p))

/-- An accepted, unretired batch. -/
def State.batch (s : State) (b : Bid) : Option Batch := s.batches.find? (fun x => decide (x.bid = b))

/-- A batch changed. -/
def State.updBatch (s : State) (b : Bid) (f : Batch → Batch) : State :=
  { s with batches := updFirst (fun x => decide (x.bid = b)) f s.batches }

/-- A walker changed: the first of its batch with this index and generation that `p` holds of. -/
def State.updWalker (s : State) (p : Walker → Bool) (f : Walker → Walker) : State :=
  { s with walkers := updFirst p f s.walkers }

/-- The next value of the state's event order. -/
def State.tick (s : State) : State := { s with clock := s.clock + 1 }

/-- A message awaits a replay (R16). -/
def Msg.bad (m : Msg) : Bool := m.via.isSome

/-- Bytes that the spec leaves undefined, from the state's counter of draws. -/
def State.freeBytes (s : State) (base n : Nat) : List Byte := (List.range n).map (fun i => Config.freeByte s.freeCtr (base + i))

/-! ## Resets wanted -/

/-- A warm reset is triggered with a cause (R451, R457); WARM_RESET carries it out. -/
def State.wantWarm (s : State) (cause : Nat) : State :=
  State.wr { s with phase := .warmWanted } Fld.blkStatusCause cause

/-! ## Host memory over the coherent link -/

/-- Bytes of host memory read by the block (counted in `HL_RD_BYTES`). -/
def State.hostBytes (s : State) (pa n : Nat) : List Byte := Memory.bytes s.host pa n

/-- Bytes the block read over the host link counted (R497). -/
def State.countRead (s : State) (n : Nat) : State := s.count unitGate 3 n

/-- The counters and holding registers of a unit and the remainder of its meter at zero (R413, R458). -/
def State.zeroUnit (s : State) (u : Nat) : State :=
  { s with
    live := s.live.filter (fun p => decide (p.1 / 256 ≠ u)), hold := s.hold.filter (fun p => decide (p.1 / 256 ≠ u))
    house := { s.house with rems := SMap.set 0 s.house.rems u 0 } }

/-- A port reset, or a reset of the host link asked for by register, is under way: an operation of the register path and a shootdown
wait for its end (R456). -/
def State.resetHolds (s : State) : Bool := (List.range 6).any (fun p => (s.port p).inResetP) || decide (s.gate.rst = some (3, 0))

/-- The armed host watch ring acts on the next transfer issued (R510): warm reset with cause 10 (R505). -/
def State.hostArm (s : State) : State :=
  if s.armed Fld.lnkInjectHost then
    ((s.disarm Fld.lnkInjectHost).report none (some 17) unitGate none).wantWarm 10
  else s

/-- A host write issued: host memory takes the bytes, and the write waits for its acknowledgement (log 9). -/
def State.hostWrite (s : State) (pa : Nat) (data : List Byte) (fr : AckFor) : State :=
  State.hostArm (State.count { s with
    host := Memory.store s.host pa data
    hostWr := s.hostWr ++ [{ pa := pa, data := data, fr := fr, old := false }] } unitGate 4 data.length)

/-- A host read issued: the bytes, counted. -/
def State.hostRead (s : State) (n : Nat) : State := (s.countRead n).hostArm

end Sys2Proof.Machine
end

