-- ==== Sys2Proof/Machine/Mesh.lean ====
section
/-! DEFINITION. The avenue mesh: routers, links, next hops and detours (R10, R14, R186), the attachments of the block-level units
(R18, R19), what happens to a message on its links (R16, R497, R509), closing and opening of districts as the open set and the
route epoch see it (R158, R162, R163, R187 to R189, R192, R193), and dead routers (R164, R186). -/

namespace Sys2Proof.Machine

/-! ## Routers and links -/

/-- Every district. -/
def allDists : List Nat := List.range 128

/-- A district is open: no reason bit (R188). -/
def State.isOpen (s : State) (d : Nat) : Bool := decide ((s.dist d).reasons = 0)

/-- The directions in the order in which R186 prefers them among equals. -/
def allDirs : List Dir := [.east, .west, .north, .south]

/-- The neighbour of a router in a direction (R10). -/
def neighbour (d : Nat) : Dir → Option Nat
  | .east => if d % 16 < 15 then some (d + 1) else none
  | .west => if 0 < d % 16 then some (d - 1) else none
  | .north => if 16 ≤ d then some (d - 16) else none
  | .south => if d < 112 then some (d + 16) else none

/-- Whether the link between two routers is open. -/
def State.linkOpen (s : State) (a b : Nat) : Bool :=
  decide ((min a b, max a b) ∉ s.links) && !(s.dist a).routerDead && !(s.dist b).routerDead

/-- The step of dimension order (R14): along the row to the column, then along the column. -/
def dimStep (a dst : Nat) : Option Dir :=
  if a % 16 < dst % 16 then some .east
  else if dst % 16 < a % 16 then some .west
  else if dst / 16 < a / 16 then some .north
  else if a / 16 < dst / 16 then some .south
  else none

/-- The routers that dimension order passes after `a`, the destination last; 22 links at most. -/
def dimPath (dst : Nat) : (fuel a : Nat) → List Nat
  | 0, _ => []
  | k + 1, a =>
    match (dimStep a dst).bind (neighbour a) with
    | none => []
    | some b => b :: dimPath dst k b

/-- Whether the dimension-order route runs over open links and avoids closed districts (R14, R186). -/
def State.dimClear (s : State) (a dst : Nat) : Bool :=
  let p := dimPath dst 22 a
  ((a :: p).zip p).all (fun l => s.linkOpen l.1 l.2) && p.all (fun b => decide (b = dst) || s.isOpen b)

/-- The hops of the dimension-order route. -/
def manhattan (a b : Nat) : Nat :=
  (if a % 16 ≤ b % 16 then b % 16 - a % 16 else a % 16 - b % 16) + (if a / 16 ≤ b / 16 then b / 16 - a / 16 else a / 16 - b / 16)

/-- One wave of a breadth-first search: the routers not yet seen next to the frontier. -/
def State.wave (s : State) (ok : Nat → Bool) (seen frontier : List Nat) : List Nat :=
  frontier.foldl (fun acc a => allDirs.foldl (fun acc2 x =>
    match neighbour a x with
    | some b => if s.linkOpen a b && ok b && !(decide (b ∈ seen)) && !(decide (b ∈ acc2)) then acc2 ++ [b] else acc2
    | none => acc2) acc) []

/-- Distances in hops from a set of routers, over open links through routers that `ok` admits. -/
def State.flood (s : State) (ok : Nat → Bool) : (fuel : Nat) → (n : Nat) → (seen frontier : List Nat) → SMap Nat → SMap Nat
  | 0, _, _, _, acc => acc
  | k + 1, n, seen, frontier, acc =>
    if frontier.isEmpty then acc
    else
      let next := s.wave ok seen frontier
      s.flood ok k (n + 1) (seen ++ next) next (next.foldl (fun m b => SMap.put m b n) acc)

/-- Hops from the routers that `ok` admits to a destination. -/
def State.hopsTo (s : State) (ok : Nat → Bool) (dst : Nat) : SMap Nat := s.flood ok 128 1 [dst] [dst] [(dst, 0)]

/-- The first step of a shortest route and its length, from the hops of the neighbours: dimension order first among equals, then
east, west, north, south (R186). -/
def State.bestHop (s : State) (m : SMap Nat) (a dst : Nat) : Option (Nat × Dir) :=
  let cost (x : Dir) : Option Nat :=
    (neighbour a x).bind (fun b => if s.linkOpen a b then (SMap.find m b).map (· + 1) else none)
  ((dimStep a dst).toList ++ allDirs).foldl (fun acc x => match cost x, acc with
    | some c, none => some (c, x)
    | some c, some (c0, x0) => if c < c0 then some (c, x) else some (c0, x0)
    | none, acc => acc) none

/-- The route of a router to a destination (R186): its length and its first step. A destination that no route avoiding closed
districts reaches is reached through closed districts whose routers are live (DESIGN CHOICE, assumption log 87). -/
def State.route (s : State) (a dst : Nat) : Option (Nat × Dir) :=
  if s.dimClear a dst then (dimStep a dst).map (fun x => (manhattan a dst, x))
  else
    match s.bestHop (s.hopsTo s.isOpen dst) a dst with
    | some r => some r
    | none => s.bestHop (s.hopsTo (fun _ => true) dst) a dst

/-- The next-hop table's entry of a router for a destination (R186). -/
def State.nextHop (s : State) (a dst : Nat) : Option Dir := (s.route a dst).map (·.2)

/-- The hops between two districts (R165, R186); more than any route has where none exists. -/
def State.hops (s : State) (a b : Nat) : Nat := if a = b then 0 else ((s.route a b).map (·.1)).getD 1000

/-- Whether a message can reach a district's router from another: its router is live and a route is left (R186). -/
def State.reaches (s : State) (a b : Nat) : Bool :=
  decide (a = b) || (!(s.dist b).routerDead && (s.route a b).isSome)

/-! ## Attachments (R18, R19) -/

/-- The districts that the Gate attaches to. -/
def gateDoors : List Nat := (List.range 8).map (16 * ·)

/-- The districts that a stack port attaches to: four of the north edge for ports 0 to 2, four of the south edge for 3 to 5. -/
def portDoors (p : Nat) : List Nat :=
  (List.range 4).map (fun i => (if p < 3 then 0 else 112) + 1 + 5 * (p % 3) + i)

/-- The districts that the twin port attaches to. -/
def twinDoors : List Nat := [63, 79]

/-- The attachment of a unit that a message from a district uses (R19): the nearest by hops whose district is open, the lower number
on a tie; with every one closed, the nearest whose router is live (DESIGN CHOICE, assumption log 88). -/
def State.doorFrom (s : State) (doors : List Nat) (d : Nat) : Option Nat :=
  let key (e : Nat) : Nat := s.hops d e * 128 + e
  match leastBy key (doors.filter s.isOpen) with
  | some e => some e
  | none => leastBy key (doors.filter (fun e => !(s.dist e).routerDead))

/-- The Gate's attachment that its walker and response traffic toward a district leaves by (R19): the one in the district's row or,
where the district of that one is closed, the nearest open one. -/
def State.gateDoor (s : State) (d : Nat) : Nat :=
  let row := d / 16 * 16
  if row = d ∨ s.isOpen row then row
  else (leastBy (fun e => s.hops e d * 128 + e) (gateDoors.filter s.isOpen)).getD row

/-! ## The route epoch -/

/-- The present route epoch (R162). -/
def State.epoch (s : State) : BitVec 16 := BitVec.ofNat 16 (s.rd Fld.chRouteEpochEpoch)

/-- Every district's memo discarded (R163). -/
def State.noMemos (s : State) : State :=
  { s with dists := s.dists.foldl (fun m p => if p.2.memo = [] then m else SMap.set District.reset m p.1 { p.2 with memo := [] }) s.dists }

/-- The route epoch incremented (R162): every district discards its memo (R163). -/
def State.bumpEpoch (s : State) : State := (s.wr Fld.chRouteEpochEpoch (s.rd Fld.chRouteEpochEpoch + 1)).noMemos

/-- An admission round is wanted (R389). -/
def State.wantRound (s : State) : State := { s with house := { s.house with wanted := true } }

/-! ## Closing and opening -/

/-- Reason bits (R193). -/
def rsHost : Nat := 0
def rsHeat : Nat := 1
def rsRung : Nat := 2
def rsFault : Nat := 3
def rsNoSide : Nat := 4
def rsIsolated : Nat := 5

/-- The installed top entries' copies asked for in a district that opens (R167, R195). -/
def topSlots (top : SMap TopEntry) (plot : SMap PlotSlot) : SMap PlotSlot :=
  top.foldl (fun m p => SMap.put m (15 - p.1)
    { tid := p.2.tid, st := .loading, cells := [], len := 0, poison := false, top := some p.1, pinned := false,
      loaded := 0, stale := false, ch := none, bid := none, pat := 0 }) plot

/-- Whether a district holds no unparked walker (R193). -/
def State.holdsNone (s : State) (d : Nat) : Bool :=
  s.walkers.all (fun w => !(decide (w.dist = d)) || (match w.st with
    | .parked _ | .inTransit => true
    | .entering | .queued | .inProgram | .inSquare _ | .spilled | .done => false))

/-- `DRAINED` brought up to date, with its status bit (R193, R482). -/
def State.refreshDrained (s : State) (d : Nat) : State :=
  let now := !s.isOpen d && s.holdsNone d
  if now = (s.dist d).drained then s
  else
    let t := s.updDist d (fun x => { x with drained := now })
    if now then t.status (0x40 + d) 6 else t

/-- A district's reason bit set or cleared, without the tables' rewrite. When the district thereby closes or opens,
`CLOSE_CHANGE` is set (R482); a district that opens starts with an empty plot, squares and memo, and walkers still in a square
wait in its queue (R192). -/
def State.reasonRaw (s : State) (d bit : Nat) (on : Bool) : State :=
  let x := s.dist d
  let r := if on then x.reasons ||| BitVec.ofNat 6 (2 ^ bit) else x.reasons &&& ~~~(BitVec.ofNat 6 (2 ^ bit))
  let was := decide (x.reasons = 0)
  let now := decide (r = 0)
  let s1 := s.setDist d { x with
    reasons := r
    squares := if now && !was then [] else x.squares
    memo := if now && !was then [] else x.memo
    plot := if now && !was then topSlots s.house.top [] else x.plot }
  let out (w : Walker) : Walker := match w.st with
    | .inSquare _ => if w.dist = d then { w with st := .queued } else w
    | .entering | .queued | .inProgram | .inTransit | .spilled | .parked _ | .done => w
  let s2 : State := if now && !was then { s1 with walkers := s1.walkers.map out } else s1
  (if now = was then s2 else s2.status (0x40 + d) 0).refreshDrained d

/-- Whether every district is as R187 wants it when all links are open: `ISOLATED` exactly where the router is dead. -/
def State.joined (s : State) : Bool :=
  decide (s.links = []) && s.dists.all (fun p => !p.2.routerDead && !p.2.reasons.getLsbD rsIsolated)

/-- Which districts no route of open links joins to the Gate's attachments (R187): `ISOLATED` set and cleared. -/
def State.isolate (s : State) : State :=
  if s.joined then s
  else
    let m := s.flood (fun _ => true) 128 1 gateDoors gateDoors (gateDoors.map (fun g => (g, 0)))
    allDists.foldl (fun t d =>
      let cut := decide (SMap.find m d = none) || (t.dist d).routerDead
      if cut = (t.dist d).reasons.getLsbD rsIsolated then t else t.reasonRaw d rsIsolated cut) s

/-- The open set changed: the tables follow (they are functions of the state), the epoch rises, an admission round is wanted (R158,
R162, R186, R189, R389). -/
def State.reroute (s : State) : State := (s.isolate.bumpEpoch).wantRound

/-- A reason bit set or cleared, with all that follows when the district closes or opens (R188, R189, R192). -/
def State.setReason (s : State) (d bit : Nat) (on : Bool) : State :=
  if (s.dist d).reasons.getLsbD bit = on then s
  else
    let t := s.reasonRaw d bit on
    if t.isOpen d = s.isOpen d then t else t.reroute

/-- A fault closure begun (R188): the reason, with FAULT_CLOSURE still to carry it out. -/
def State.faultClose (s : State) (d : Nat) : State :=
  (s.updDist d (fun x => { x with faultDone := false, renewed := false })).setReason d rsFault true

/-- A `HEAT` closure, not made where it would leave no district open (R405). -/
def State.heatClose (s : State) (d : Nat) : State :=
  if allDists.any (fun e => decide (e ≠ d) && s.isOpen e) then s.setReason d rsHeat true else s

/-! ## Links that close -/

/-- A router with every link closed is dead (R164, R186; DEDUCED, assumption log 89). -/
def State.cutOff (s : State) (d : Nat) : Bool :=
  allDirs.all (fun x => match neighbour d x with
    | some b => !s.linkOpen d b
    | none => true)

/-- The routers of a closed link dead where it was their last (R164, R186). -/
def State.deadEnds (s : State) (ds : List Nat) : State :=
  ds.foldl (fun t d => if s.cutOff d && !(s.dist d).routerDead then t.updDist d (fun x => { x with routerDead := true }) else t) s

/-- A link closed by both its routers, with what follows (R16, R162, R164, R186, R187, R389): a message that awaits a replay on it is
free to detour; the epoch rises where a router dies or the open set changes. -/
def State.unlink (s : State) (a b : Nat) : State :=
  let free (m : Msg) : Msg :=
    if (decide (m.here = a) && decide (m.via = some b)) || (decide (m.here = b) && decide (m.via = some a)) then { m with via := none, replays := 0 } else m
  let s1 : State := { s with links := addNew s.links (min a b, max a b), msgs := s.msgs.map free }
  let s2 := s1.deadEnds [a, b]
  let s3 := s2.isolate
  let opens := allDists.any (fun d => s.isOpen d != s3.isOpen d)
  let dies := decide ((s2.dist a).routerDead ≠ (s.dist a).routerDead) || decide ((s2.dist b).routerDead ≠ (s.dist b).routerDead)
  let s4 := if opens || dies then s3.bumpEpoch else s3
  if opens then s4.wantRound else s4

/-- A link closed after the third failed replay (R16): the avenue message detector reports. -/
def State.closeLink (s : State) (a b : Nat) : State := (s.unlink a b).report none (some 9) b none

/-- The links of a district's router in use again, and with them the routers that were dead for want of an open link (R164, R186,
R187). -/
def State.relink (s : State) (d : Nat) : State :=
  let near (e : Nat) : Bool := decide (e = d) || allDirs.any (fun x => decide (neighbour d x = some e))
  let back := allDists.filter (fun e => near e && (s.dist e).routerDead)
  let s1 : State := { s with links := s.links.filter (fun l => decide (l.1 ≠ d ∧ l.2 ≠ d)) }
  let s2 := (back.foldl (fun t e => t.updDist e (fun x => { x with routerDead := false })) s1).isolate
  let opens := allDists.any (fun e => s.isOpen e != s2.isOpen e)
  let s3 := if opens || decide (back ≠ []) then s2.bumpEpoch else s2
  if opens then s3.wantRound else s3

/-! ## Messages that cross at once -/

/-- The counter of walker-lane messages a router sends on a link (R497). -/
def outCounter : Dir → Nat
  | .north => 0x15
  | .south => 0x16
  | .east => 0x17
  | .west => 0x18

/-- A message on its way from a router, router by router: a walker-lane message is counted at each link, and any message meets the
arms of the routers that send it on (R16, R497, R509). -/
def State.crossLinks (s : State) (walker : Bool) (dst here : Nat) : (fuel : Nat) → State
  | 0 => s
  | k + 1 =>
    match (if here = dst then none else (s.nextHop here dst).bind (fun x => (neighbour here x).map (fun b => (x, b)))) with
    | none => s
    | some (x, b) =>
      let t := if walker then s.count here (outCounter x) 1 else s
      if t.armed (Fld.dstInjectAvClose here) then
        ((((t.disarm (Fld.dstInjectAvClose here)).disarm (Fld.dstInjectAvCrc here)).count b 0x19 3).closeLink here b).crossLinks walker dst here k
      else if t.armed (Fld.dstInjectAvCrc here) then ((t.disarm (Fld.dstInjectAvCrc here)).count b 0x19 1).crossLinks walker dst b k
      else t.crossLinks walker dst b k

/-- Whether some router's avenue arm is set (R509). -/
def State.avenueArmed (s : State) : Bool :=
  s.regs.any (fun r => decide (0x40 ≤ offPage r.1 ∧ offPage r.1 < 0xC0 ∧ r.1 % 0x1000 = 0x010) && decide (field r.2 16 15 ≠ 0))

/-- A request and its response, on their lanes, between a district and an attachment (R13, R19): the model carries both out at once,
so that they change the state only where a link fails them (assumption log 90). -/
def State.trip (s : State) (d : Nat) (out : Option Nat) (back : Nat) : State :=
  if !s.avenueArmed then s
  else
    match out with
    | none => s
    | some e => (s.crossLinks false e d 256).crossLinks false d back 256

/-- A request of a district to a stack port, with its response (R13, R18, R19). -/
def State.portTrip (s : State) (d p : Nat) : State :=
  if !s.avenueArmed then s
  else
    let e := s.doorFrom (portDoors p) d
    s.trip d e (e.getD d)

/-- A host memory request of a district to the Gate, with its response (R13, R18, R19). -/
def State.gateTrip (s : State) (d : Nat) : State :=
  if s.avenueArmed then s.trip d (s.doorFrom gateDoors d) (s.gateDoor d) else s

/-- The record of a dealt walker sent by the Gate to its entry district, as a walker message (R13, R19). -/
def State.gateMessage (s : State) (d : Nat) : State := s.crossLinks true d (s.gateDoor d) 256

end Sys2Proof.Machine
end

