-- ==== Sys2Proof/Machine/Scene.lean ====
section
/-! DEFINITION. Scene memory behind the stack ports: the interleave (R342, R343), the scene code (R345 to R348), the
stack caches with their way masks, locks and eviction buffers (R350 to R359, R362), and reads and writes through
them. -/

namespace Sys2Proof.Machine

/-! ## Interleave -/

/-- The installed capacity (R76, R342). -/
def State.installed (s : State) : Nat := s.ports.length * s.capC

/-- The port that serves a scene address, with the port-local address (R343). -/
def State.portAt (s : State) (a : Nat) : Option (Nat × Nat) :=
  if s.ports.length = 0 then none
  else (s.ports[(a / 256) % s.ports.length]?).map (fun p => (p, (a / 256) / s.ports.length * 256 + a % 256))

/-- The scene address of a port-local address of a port, the inverse of `portAt`. -/
def State.sceneOf (s : State) (p loc : Nat) : Option Nat :=
  (s.ports.idxOf? p).map (fun i => ((loc / 256) * s.ports.length + i) * 256 + loc % 256)

/-- Whether a port is in use now. -/
def State.present (s : State) (p : Nat) : Bool := s.flag (Fld.stkStatusPresent p)

/-- Whether a port's stack cache is enabled (R360). -/
def State.scOn (s : State) (p : Nat) : Bool := bit (s.rd Fld.blkCacheCtlScEn) p

/-! ## The scene code -/

/-- The outcomes of a read of one 72-bit word (R346). -/
inductive CodeRes where
  | good | corrected | uncorrectable | nibble | miscorrected | missed
  deriving DecidableEq, Repr

/-- The outcome for an error pattern (R346): bits 63 to 0 are data bits, bits 71 to 64 check bits. Which case a
pattern of three or more bits outside one nibble falls into is a free value (assumption log 3). -/
def codeJudge (pat : BitVec 72) : CodeRes :=
  let errs := (List.range 72).filter (fun i => pat.getLsbD i)
  match errs with
  | [] => .good
  | [_] => .corrected
  | a :: rest =>
    if rest.all (fun b => decide (b / 4 = a / 4)) then .nibble
    else if rest.length = 1 then .uncorrectable
    else
      match (Config.codeOutcome pat).toNat with
      | 0 => .missed
      | 1 => .miscorrected
      | _ => .uncorrectable

/-- The data a read delivers for a stored word and its pattern, when the outcome is not poison (R346). -/
def codeData (pat : BitVec 72) (data : BitVec 64) : BitVec 64 :=
  match codeJudge pat with
  | .missed => data ^^^ pat.setWidth 64
  | .miscorrected => data ^^^ pat.setWidth 64 ^^^ Config.codeMiscorrection pat
  | _ => data

/-- Whether the outcome is poison. -/
def codePoison (pat : BitVec 72) : Bool :=
  match codeJudge pat with
  | .uncorrectable | .nibble => true
  | .good | .corrected | .miscorrected | .missed => false

/-- The report of a stack read's outcome by port `p` for a word (R346, R504), with the capture of `STK_UE_ADDR`. -/
def State.codeReport (s : State) (p a : Nat) (r : CodeRes) : State :=
  match r with
  | .good | .missed => s
  | .corrected | .miscorrected => s.report (some (8 + p, 0)) (some 6) (unitStk p) (some 8)
  | .uncorrectable =>
    let t := s.report (some (8 + p, 1)) (some 7) (unitStk p) (some 9)
    if t.flag (Fld.stkStatusUeValid p) then t
    else (t.wr (Fld.stkUeAddrAddr p) (a / 256)).wr (Fld.stkStatusUeValid p) 1
  | .nibble =>
    let t := s.report (some (8 + p, 2)) (some 8) (unitStk p) (some 10)
    if t.flag (Fld.stkStatusUeValid p) then t
    else (t.wr (Fld.stkUeAddrAddr p) (a / 256)).wr (Fld.stkStatusUeValid p) 1

/-- A poison mark put on or taken off a word (by word address, R347, R348). -/
def State.setPoison (s : State) (w : Nat) (on : Bool) : State :=
  { s with poison := if on then addNew s.poison w else s.poison.filter (fun x => decide (x ≠ w)) }

/-- The pattern that the next word a port writes takes from the `STACK` arm (R508, R510). -/
def State.stackArm (s : State) (p w : Nat) : State :=
  let v := s.rd (Fld.stkInjectStack p)
  if v = 0 then s
  else
    let t := s.disarm (Fld.stkInjectStack p)
    { t with codeErr := SMap.set 0 t.codeErr w (SMap.get 0 t.codeErr w ^^^ armPattern v) }

/-- One 64-bit word read from the stack of port `p` (R346): corrected data is written back in place. -/
def State.stackWord (s : State) (p w : Nat) : State × List Byte × Bool :=
  let pat := SMap.get 0 s.codeErr w
  let data : BitVec 64 := BitVec.ofNat 64 (Memory.le s.scene (w * 8) 8)
  let res := codeJudge pat
  let out := leBytes 8 (codeData pat data).toNat
  let s1 := s.codeReport p (w * 8) res
  match res with
  | .good => (s1, out, decide (w ∈ s1.poison))
  | .corrected => (State.stackArm { s1 with codeErr := SMap.del s1.codeErr w } p w, out, decide (w ∈ s1.poison))
  | .miscorrected =>
    (State.stackArm { s1 with codeErr := SMap.del s1.codeErr w, scene := Memory.store s1.scene (w * 8) out } p w, out,
      decide (w ∈ s1.poison))
  | .missed => (s1, out, decide (w ∈ s1.poison))
  | .uncorrectable | .nibble => (s1.setPoison w true, out, true)

/-- `n` consecutive words read from a stack. -/
def State.stackWords (s : State) (p w : Nat) : Nat → State × List Byte × Bool
  | 0 => (s, [], false)
  | n + 1 =>
    let r := s.stackWord p w
    let t := r.1.stackWords p (w + 1) n
    (t.1, r.2.1 ++ t.2.1, r.2.2 || t.2.2)

/-- The watch ring of a request to a stack expires (R505): the port resets, and what waits on it is served after. -/
def State.stackExpiry (s : State) (p : Nat) : State :=
  (s.report (some (8 + p, 5)) (some 17) (unitStk p) none).updPort p (fun x => { x with inResetP := true })

/-- A request queued at a stack, with the `REQ` arm (R510). -/
def State.stackReq (s : State) (p : Nat) : State :=
  if s.armed (Fld.stkInjectReq p) then (s.disarm (Fld.stkInjectReq p)).stackExpiry p else s

/-- A 64-byte sector read from the stack; a port that has become absent delivers poison (R344). -/
def State.stackSector (s : State) (p a : Nat) : State × List Byte × Bool :=
  if s.present p then ((s.stackReq p).count (unitStk p) 1 1).stackWords p (a / 8) 8 else (s, zeroBytes 64, true)

/-- A 64-byte sector written to the stack with valid scene code (R345); discarded by an absent port (R344). -/
def State.stackPut (s : State) (p a : Nat) (data : List Byte) : State :=
  if s.present p then
    let t := s.stackReq p
    State.stackArm (State.count { t with
      scene := Memory.store t.scene a data
      codeErr := (List.range 8).foldl (fun m i => SMap.del m (a / 8 + i)) t.codeErr } (unitStk p) 2 1) p (a / 8)
  else s

/-! ## Stack caches -/

/-- The class of a request stream (R357), in the order of `STK_LOCK.OWNER`. -/
def streamClass (st : Nat) : Nat :=
  if st < 896 then
    (match st % 7 with
     | 4 => 8
     | 5 => 10
     | _ => st / 7 / 16)
  else if st < 992 then 9 else 11

/-- The ways a class may allocate into at a port (R357); every way while the port's registers fail parity
(R473). -/
def State.wayMask (s : State) (p c : Nat) : Nat :=
  if s.halted .stk p then 0xFFFF
  else s.rd ⟨0x08000 + p * 0x1000 + 0x05C + 4 * (c / 2), if c % 2 = 1 then 31 else 15, if c % 2 = 1 then 16 else 0⟩

/-- The locked ways of a port and their owner (R358). -/
def State.lockWays (s : State) (p : Nat) : Nat × Nat :=
  if s.halted .stk p then (0, 15) else (s.rd (Fld.stkLockWays p), s.rd (Fld.stkLockOwner p))

/-- The line of a granule, if the port holds its tag. -/
def StackPort.line (x : StackPort) (g : Nat) : Option SLine := x.lines.find? (fun l => decide (l.addr = g))

/-- An empty sector. -/
def Sector.none : Sector := { valid := false, dirty := false, poison := false, bad := false, data := zeroBytes 64 }

/-- A line's sector, by its index. -/
def SLine.sec (l : SLine) (i : Nat) : Sector := l.secs.getD i Sector.none

/-- A line with one sector replaced. -/
def SLine.setSec (l : SLine) (i : Nat) (x : Sector) : SLine :=
  { l with secs := (List.range 4).map (fun j => if j = i then x else l.sec j) }

/-- Whether any sector of a line is dirty. -/
def SLine.anyDirty (l : SLine) : Bool := l.secs.any (fun x => x.valid && x.dirty)

/-- The line replaced, or added, as the most recently used. -/
def StackPort.putLine (x : StackPort) (l : SLine) : StackPort :=
  { x with lines := dropFirst (fun y => decide (y.addr = l.addr)) x.lines ++ [l] }

/-- A dirty sector that fails parity is lost with its newer data (R34, R353): an uncorrectable event of the port. -/
def State.dirtyLost (s : State) (p a : Nat) : State := s.codeReport p a .uncorrectable

/-- A dirty sector written back to the stack; one that fails parity is lost instead (R353). -/
def State.writeBack (s : State) (p a : Nat) (x : Sector) : State :=
  if x.valid && x.dirty then (if x.bad then s.dirtyLost p a else s.stackPut p a x.data) else s

/-- The dirty sectors of a line written back. -/
def State.lineBack (s : State) (p : Nat) (l : SLine) : State :=
  (List.range 4).foldl (fun u i => u.writeBack p (l.addr + 64 * i) (l.sec i)) s

/-- A sector after its write-back: clean, or gone where its parity failed. -/
def Sector.cleaned (x : Sector) : Sector := if x.valid && x.dirty && x.bad then Sector.none else { x with dirty := false }

/-- The oldest entry of the eviction buffer written to the stack (R359). -/
def State.evictOldest (s : State) (p : Nat) : State :=
  match (s.port p).evict with
  | [] => s
  | l :: rest => (s.updPort p (fun x => { x with evict := rest })).lineBack p l

/-- The eviction buffer with room for one more entry: when it is full the oldest goes out first, which is what an eviction waits for
(R359). -/
def State.evictRoom (s : State) (p : Nat) : State := if (s.port p).evict.length < 32 then s else s.evictOldest p

/-- A line with dirty sectors put into the eviction buffer; when it is full the oldest entry goes out first, which
is what the eviction waits for (R359). -/
def State.evictLine (s : State) (p : Nat) (l : SLine) : State :=
  if l.anyDirty then
    ((s.evictRoom p).updPort p (fun x => { x with evict := x.evict ++ [l] })).count (unitStk p) 6 1
  else s

/-- An entry of a port's buffer holds a dirty sector of the granule and place of an address. -/
def SLine.holds (l : SLine) (a : Nat) : Bool :=
  decide (l.addr = a / 256 * 256) && (l.sec (a % 256 / 64)).valid && (l.sec (a % 256 / 64)).dirty

/-- The sector of an address in a port's eviction buffer (R359): the newest entry's, which leaves last. -/
def StackPort.buffered (x : StackPort) (a : Nat) : Option Sector :=
  (x.evict.reverse.find? (fun l => l.holds a)).map (fun l => l.sec (a % 256 / 64))

/-- A sector of the buffer replaced. -/
def StackPort.rebuffer (x : StackPort) (a : Nat) (y : Sector) : StackPort :=
  { x with evict := (updFirst (fun l => l.holds a) (fun l => l.setSec (a % 256 / 64) y) x.evict.reverse).reverse }

/-- A write on the eviction buffer path (R352, R359): merged into the granule's entry, or in an entry of its own. -/
def State.bufferPut (s : State) (p a : Nat) (y : Sector) : State :=
  let g := a / 256 * 256
  if (s.port p).evict.any (fun l => decide (l.addr = g)) then
    s.updPort p (fun x => { x with evict := updFirst (fun l => decide (l.addr = g)) (fun l => l.setSec (a % 256 / 64) y) x.evict })
  else
    let l : SLine := { addr := g, set := 0, way := 0, secs := List.replicate 4 Sector.none }
    (s.evictRoom p).updPort p (fun x => { x with evict := x.evict ++ [l.setSec (a % 256 / 64) y] })

/-- The way a class may take for a granule of a set: an invalid one first, else the least recently used one that is
not locked (R352, R357, R358). -/
def State.victim (s : State) (p c set : Nat) : Option (Nat × Option SLine) :=
  let lk := s.lockWays p
  let mask := s.wayMask p c
  let inSet := (s.port p).lines.filter (fun l => decide (l.set = set))
  let may := (List.range 16).filter (fun w => bit mask w && (!bit lk.1 w || decide (lk.2 = c)))
  let free := may.filter (fun w => inSet.all (fun l => decide (l.way ≠ w)))
  match free with
  | w :: _ => some (w, none)
  | [] => (inSet.find? (fun l => decide (l.way ∈ may) && !bit lk.1 l.way)).map (fun l => (l.way, some l))

/-- A tag allocated for a granule by a stream of class `c`; `false` where no way may be used (R352). -/
def State.allocLine (s : State) (p c a : Nat) : State × Bool :=
  let g := a / 256 * 256
  match (s.port p).line g with
  | some _ => (s, true)
  | none =>
    match s.portAt a with
    | none => (s, false)
    | some (_, loc) =>
      match s.victim p c (loc / 256 % 2048) with
      | none => (s, false)
      | some (w, v) =>
        let s1 := match v with
          | some l => (s.updPort p (fun x => { x with lines := dropFirst (fun y => decide (y.addr = l.addr)) x.lines })).evictLine p l
          | none => s
        (s1.updPort p (fun x => { x with lines := x.lines ++
            [{ addr := g, set := loc / 256 % 2048, way := w, secs := List.replicate 4 Sector.none }] }), true)

/-- A sector installed in its line, by a class; where it cannot be, `PASS_THROUGH` counts (R352). -/
def State.install (s : State) (p c a : Nat) (x : Sector) : State × Bool :=
  let r := s.allocLine p c a
  if r.2 then
    let bad := r.1.armed (Fld.stkInjectScPar p)
    let t := if bad then r.1.disarm (Fld.stkInjectScPar p) else r.1
    match (t.port p).line (a / 256 * 256) with
    | some l => (t.updPort p (fun y => y.putLine (l.setSec (a % 256 / 64) { x with bad := bad })), true)
    | none => (t, false)
  else (r.1.count (unitStk p) 11 1, false)

/-- The stride detector of a stream told of an access to the sector at a port-local address (R356). While it prefetches, an access one
stride on advances it, one to the same sector leaves it, and any other stops it; otherwise misses train it. -/
def Stride.next (o : Stride) (loc : Nat) (miss : Bool) : Stride :=
  let d : Int := (loc : Int) - (o.last : Int)
  if o.hot && decide (d = 0) then o
  else if o.hot && decide (d = o.stride) then { o with last := loc }
  else if miss then { last := loc, stride := d, hot := decide (d = o.stride ∧ 64 ≤ d.natAbs ∧ d.natAbs ≤ 16384) }
  else { o with hot := false }

/-- The stride detector of a stream told of an access. -/
def State.trainStride (s : State) (p st loc : Nat) (miss : Bool) : State :=
  match SMap.find (s.port p).strides st with
  | none => if miss then s.updPort p (fun x => { x with strides := SMap.put x.strides st { last := loc, stride := 0, hot := false } }) else s
  | some o => s.updPort p (fun x => { x with strides := SMap.put x.strides st (o.next loc miss) })

/-- Whether any word of a sector carries a poison mark. -/
def State.sectorPoison (s : State) (a : Nat) : Bool := s.poison.any (fun w => decide (w / 8 = a / 64))

/-- Whether a sector delivers poison to a read of the bytes from `lo` up to `hi` (R348): where the sector's words carry marks, one of
the words read must carry one. -/
def State.readPoison (s : State) (a lo hi : Nat) (flag : Bool) : Bool :=
  flag && (!s.sectorPoison a || s.poison.any (fun w => decide (w / 8 = a / 64 ∧ lo < w * 8 + 8 ∧ w * 8 < hi)))

/-- What a host read of the aperture receives of the sector it waits for (R355, R363). -/
def ApRead.take (r : ApRead) (a : Nat) (data : List Byte) (bad : Bool) : ApRead :=
  if r.next / 64 * 64 = a ∧ r.next < r.addr + r.len then
    let n := min (a + 64) (r.addr + r.len) - r.next
    { r with next := r.next + n, got := r.got ++ (data.drop (r.next - a)).take n, poison := r.poison || bad }
  else r

/-- A sector delivered to the host reads that wait for it. -/
def State.apDeliver (s : State) (a : Nat) (data : List Byte) (bad : Bool) : State :=
  { s with gate := { s.gate with apWait := s.gate.apWait.map (fun r => r.take a data (s.readPoison a r.next (r.addr + r.len) bad)) } }

/-- A pending miss or prefetch filled (R352, R355, R356, R359, R368): from the eviction buffer where it holds the sector, else from the
stack; installed unless stale or the cache is disabled, and delivered to what waits for it. -/
def State.fill (s : State) (p : Nat) (m : Miss) : State :=
  let t := s.updPort p (fun x => { x with misses := dropFirst (fun y => decide (y = m)) x.misses })
  let held := ((t.port p).buffered m.addr).bind (fun x => if x.bad then none else some x)
  let r : State × List Byte × Bool := match held with
    | some x => (t, x.data, x.poison)
    | none => t.stackSector p m.addr
  let u := if m.stale || !r.1.scOn p then r.1
    else (r.1.install p (streamClass m.stream) m.addr { valid := true, dirty := false, poison := r.2.2, bad := false, data := r.2.1 }).1
  u.apDeliver m.addr r.2.1 r.2.2

/-- A request to a sector whose fill is pending, from any stream, waits for that fill (R355). -/
def State.fillPending (s : State) (p a : Nat) : State :=
  match (s.port p).misses.find? (fun m => decide (m.addr = a)) with
  | some m => s.fill p m
  | none => s

/-- A request of a stream to a port: its messages, and the fill that it waits for (R13, R355). -/
def State.request (s : State) (st p a : Nat) : State := (if st < 896 then s.portTrip (st / 7) p else s).fillPending p a

/-- A sector served from a way or from the eviction buffer, where one of them holds it with good parity; a dirty sector whose parity
fails is lost (R34, R352, R353, R359). -/
def State.sectorHit (s : State) (st p loc a : Nat) : State × Option (List Byte × Bool) :=
  let line := (s.port p).line (a / 256 * 256)
  let sec := (line.map (fun l => l.sec (a % 256 / 64))).getD Sector.none
  let hit := sec.valid && (s.scOn p || sec.dirty)
  let served (x : State) : State := (x.count (unitStk p) 3 1).trainStride p st loc false
  if hit && !sec.bad then
    ((served s).updPort p (fun x => match line with
      | some l => x.putLine l
      | none => x), some (sec.data, sec.poison))
  else
    let s1 := if hit && sec.dirty then
        (s.dirtyLost p a).updPort p (fun x => match line with
          | some l => x.putLine (l.setSec (a % 256 / 64) Sector.none)
          | none => x)
      else if hit then s.report none (some 7) (unitStk p) none else s
    match (s1.port p).buffered a with
    | none => (s1, none)
    | some x =>
      if x.bad then ((s1.dirtyLost p a).updPort p (fun y => y.rebuffer a Sector.none), none)
      else (served s1, some (x.data, x.poison))

/-- A sector that no way and no entry of the buffer serves, read as a miss of a stream (R352). -/
def State.sectorMiss (s : State) (st p loc a : Nat) : State × List Byte × Bool :=
  let r := ((s.count (unitStk p) 4 1).trainStride p st loc true).stackSector p a
  if s.scOn p then
    ((r.1.install p (streamClass st) a { valid := true, dirty := false, poison := r.2.2, bad := false, data := r.2.1 }).1, r.2.1, r.2.2)
  else r

/-- A sector read by a request that its port has taken. -/
def State.sectorGet (s : State) (st p loc a : Nat) : State × List Byte × Bool :=
  match s.sectorHit st p loc a with
  | (t, some x) => (t, x.1, x.2)
  | (t, none) => t.sectorMiss st p loc a

/-- A 64-byte sector of scene memory read by a stream, through the stack cache of its port: a hit in a way, a hit in
the eviction buffer, or a miss that fills the sector (R352, R353, R359, R362). The Bool is poison (R348). -/
def State.sectorRead (s : State) (st a : Nat) : State × List Byte × Bool :=
  match s.portAt a with
  | none => (s, zeroBytes 64, true)
  | some (p, loc) => (s.request st p a).sectorGet st p loc a

/-- The bytes from `lo` up to `hi` read sector by sector; `fuel` bounds the sectors. -/
def State.sceneSectors (s : State) (st lo hi a : Nat) : Nat → State × List Byte × Bool
  | 0 => (s, [], false)
  | k + 1 =>
    let r := s.sectorRead st a
    let t := r.1.sceneSectors st lo hi (a + 64) k
    (t.1, r.2.1 ++ t.2.1, r.1.readPoison a lo hi r.2.2 || t.2.2)

/-- `n` bytes of scene memory read by a stream. -/
def State.sceneRead (s : State) (st a n : Nat) : State × List Byte × Bool :=
  if n = 0 then (s, [], false)
  else
    let first := a / 64 * 64
    let k := (a + n - 1) / 64 - a / 64 + 1
    let r := s.sceneSectors st a (a + n) first k
    (r.1, (r.2.1.drop (a - first)).take n, r.2.2)

/-- The poison marks of the words a write covers wholly are cleared (R347). -/
def State.clearPoison (s : State) (a n : Nat) : State :=
  { s with poison := s.poison.filter (fun w => !(decide (a ≤ w * 8) && decide (w * 8 + 8 ≤ a + n))) }

/-- A sector's new contents placed by a stream (R352, R359, R362): in its way, merged into the eviction buffer, in a way allocated for
it, on the buffer's path where no way may be used, or in the stack where the cache is disabled. -/
def State.sectorPlace (s : State) (st p a : Nat) (x : Sector) : State :=
  let inLine := match (s.port p).line (a / 256 * 256) with
    | some l => (l.sec (a % 256 / 64)).valid && (s.scOn p || (l.sec (a % 256 / 64)).dirty)
    | none => false
  if !inLine && ((s.port p).buffered a).isSome then s.updPort p (fun y => y.rebuffer a x)
  else if inLine || s.scOn p then
    let q := s.install p (streamClass st) a x
    if q.2 then q.1 else q.1.bufferPut p a x
  else s.stackPut p a x.data

/-- Bytes written into one sector by a stream (R347, R352): a write of part of a sector fetches the sector first. -/
def State.sectorWrite (s : State) (st a : Nat) (bs : List Byte) : State :=
  let sa := a / 64 * 64
  match s.portAt sa with
  | none => s
  | some (p, loc) =>
    let s0 := s.request st p sa
    if !s0.present p then s0
    else
      let r : State × List Byte × Bool :=
        if bs.length = 64 then (s0.trainStride p st loc false, bs, false) else s0.sectorGet st p loc sa
      let s1 := r.1.clearPoison a bs.length
      s1.sectorPlace st p sa { valid := true, dirty := true, poison := s1.sectorPoison sa, bad := false, data := bytesPut r.2.1 (a - sa) bs }

/-- Bytes written into scene memory, split at sector ends; `fuel` bounds the sectors. -/
def State.sceneWriteAux (s : State) (st a : Nat) (bs : List Byte) : Nat → State
  | 0 => s
  | k + 1 =>
    if bs.isEmpty then s
    else
      let room := 64 - a % 64
      (s.sectorWrite st a (bs.take room)).sceneWriteAux st (a + room) (bs.drop room) k

/-- Bytes written into scene memory by a stream. -/
def State.sceneWrite (s : State) (st a : Nat) (bs : List Byte) : State :=
  s.sceneWriteAux st a bs (bs.length / 64 + 2)

/-! ## What scene memory holds -/

/-- The byte that a read of a scene address delivers now, whichever copy behind the port holds it: the stack cache's
sector, the eviction buffer's, or the stack's own word. -/
def State.sceneByte (s : State) (a : Nat) : Byte :=
  let own := (leBytes 8 (codeData (SMap.get 0 s.codeErr (a / 8)) (BitVec.ofNat 64 (Memory.le s.scene (a / 8 * 8) 8))).toNat).getD (a % 8) 0
  match s.portAt a with
  | none => own
  | some (p, _) =>
    let sec := (((s.port p).line (a / 256 * 256)).map (fun l => l.sec (a % 256 / 64))).getD Sector.none
    if sec.valid && (s.scOn p || sec.dirty) && !sec.bad then sec.data.getD (a % 64) 0
    else
      match (s.port p).buffered a with
      | some e => if e.bad then own else e.data.getD (a % 64) 0
      | none => own

/-- `STK_STATUS.SC_DIRTY`: the stack cache holds dirty sectors (R341). -/
def State.scDirty (s : State) (p : Nat) : Bool :=
  (s.port p).lines.any SLine.anyDirty || decide ((s.port p).evict ≠ [])

/-- Every entry of a port's eviction buffer written to the stack, oldest first (R359). -/
def State.flushBuffer (s : State) (p : Nat) : State := (List.range (s.port p).evict.length).foldl (fun t _ => t.evictOldest p) s

/-- The pending fills of a port's lines that `f` picks completed (R368). -/
def State.fillAll (s : State) (p : Nat) (f : Nat → Bool) : State :=
  ((s.port p).misses.filter (fun m => f m.addr)).foldl (fun t m => t.fill p m) s

/-- Every dirty sector of a port written to its stack, in line order, the buffer first; lines stay, clean. -/
def State.cleanPort (s : State) (p : Nat) : State :=
  let s1 := s.flushBuffer p
  ((s1.port p).lines.foldl (fun u l => u.lineBack p l) s1).updPort p (fun x =>
    { x with lines := x.lines.map (fun l => { l with secs := l.secs.map Sector.cleaned }) })

/-! ## Streams by requester (R354) -/

def streamPlot (d ch : Nat) : Nat := 7 * d + ch
def streamNode (d : Nat) : Nat := 7 * d + 2
def streamDesk (d : Nat) : Nat := 7 * d + 3
def streamLeaf (d : Nat) : Nat := 7 * d + 4
def streamSide (d : Nat) : Nat := 7 * d + 5
def streamMisc (d : Nat) : Nat := 7 * d + 6
def streamHost (tag : Nat) : Nat := 896 + tag % 96
def streamGate : Nat := 992
def streamPack : Nat := 993
def streamStamp : Nat := 994

/-! ## Records whose layout is internal (R177, R190, R263, R309, R373) -/

/-- `n` bytes of a record whose layout is internal written by a stream: what they hold is free (assumption log 81). -/
def State.recordPut (s : State) (st a n : Nat) : State :=
  State.sceneWrite { s with freeCtr := s.freeCtr + 1 } st a (s.freeBytes 0 n)

/-- Such a record read back; the Bool is poison (R348). -/
def State.recordGet (s : State) (st a n : Nat) : State × Bool := let r := s.sceneRead st a n; (r.1, r.2.2)

/-! ## Node and desk caches (R350, R351) -/

/-- The ways of a node cache, as the straps give them (R351, R440). -/
def State.ncWays (s : State) : Nat := 2 ^ (s.pins.straps.ncw.toNat + 1)

/-- A line put into a set-associative cache of 64-byte lines as the most recently used, the least recently used of
its set leaving when the set is full (R350, R351; the desk caches likewise, PRESUMED, assumption log 10). -/
def linePut (sets ways : Nat) (l : List CLine) (x : CLine) : List CLine :=
  let set := x.addr / 64 % sets
  let l1 := l.filter (fun y => decide (y.addr ≠ x.addr))
  let same := l1.filter (fun y => decide (y.addr / 64 % sets = set))
  if same.length < ways then l1 ++ [x]
  else match same with
    | [] => l1 ++ [x]
    | old :: _ => l1.filter (fun y => decide (y.addr ≠ old.addr)) ++ [x]

/-- A line put into a node cache of W ways, which has 4,096 ÷ W sets (R351). -/
def ncPut (ways : Nat) (l : List CLine) (x : CLine) : List CLine := linePut (4096 / ways) ways l x

/-- A 64-byte line fetched into a district's node cache; poisoned data is not installed (R348, R351), and the `NC` arm acts on the fill
(R509). -/
def State.nodeFill (s : State) (d a : Nat) : State × List Byte × Bool :=
  let r := (s.count d 0x13 1).sectorRead (streamNode d) a
  if r.2.2 then r
  else
    let bad := r.1.armed (Fld.dstInjectNc d)
    let t := if bad then r.1.disarm (Fld.dstInjectNc d) else r.1
    (t.updDist d (fun x => { x with ncache := ncPut s.ncWays x.ncache { addr := a, data := r.2.1, bad := bad, pat := 0 } }), r.2.1, false)

/-- A 64-byte line read by a node step in stay mode, through the district's node cache (R351). A line that fails
parity is a miss, and is reported (R34, R504). -/
def State.nodeLine (s : State) (d a : Nat) : State × List Byte × Bool :=
  if s.flag Fld.blkCacheCtlNcEn then
    match (s.dist d).ncache.find? (fun l => decide (l.addr = a)) with
    | some l =>
      if !l.bad then ((s.count d 0x12 1).updDist d (fun x => { x with ncache := ncPut s.ncWays x.ncache l }), l.data, false)
      else ((s.report none (some 7) d none).updDist d (fun x => { x with ncache := x.ncache.filter (fun y => decide (y.addr ≠ a)) })).nodeFill d a
    | none => s.nodeFill d a
  else s.sectorRead (streamNode d) a

/-- Bytes read through the node cache, line by line. -/
def State.nodeLines (s : State) (d a : Nat) : Nat → State × List Byte × Bool
  | 0 => (s, [], false)
  | k + 1 =>
    let r := s.nodeLine d a
    let t := r.1.nodeLines d (a + 64) k
    (t.1, r.2.1 ++ t.2.1, r.2.2 || t.2.2)

/-- The report of a district store's scene code event (R504): correctable on `SC_CE`, else on `SC_UE`, with the
nibble bit of `ERR_STATUS` for a nibble (R503). -/
def State.dstCode (s : State) (d : Nat) (r : CodeRes) : State :=
  match r with
  | .good | .missed => s
  | .corrected | .miscorrected => s.report (some (0x40 + d, 4)) (some 6) d (some 0x1A)
  | .uncorrectable => s.report (some (0x40 + d, 5)) (some 7) d (some 0x1B)
  | .nibble => s.report (some (0x40 + d, 5)) (some 8) d (some 0x1B)

/-- A 64-byte line read by a core through its desk cache of `room` lines (R250), with the scene code of its share (R504): a line in
error is fetched again. -/
def State.deskLine (s : State) (d a room : Nat) : State × List Byte × Bool :=
  let fill (t : State) : State × List Byte × Bool :=
    let r := t.sectorRead (streamDesk d) a
    if r.2.2 || decide (room < 8) then r
    else
      let v := r.1.rd (Fld.dstInjectDesk d)
      let u := if v = 0 then r.1 else r.1.disarm (Fld.dstInjectDesk d)
      let new : CLine := { addr := a, data := r.2.1, bad := false, pat := armPattern v }
      (u.updDist d (fun x => { x with core := { x.core with desk := linePut (room / 8) 8 x.core.desk new } }), r.2.1, false)
  if s.flag Fld.blkCacheCtlDcEn then
    match (s.dist d).core.desk.find? (fun l => decide (l.addr = a)) with
    | some l =>
      let res := codeJudge l.pat
      let s1 := s.dstCode d res
      if codePoison l.pat then fill s1
      else
        let fix (y : CLine) : CLine := { y with pat := if res = .corrected then 0 else y.pat }
        (s1.updDist d (fun x => { x with core := { x.core with desk := linePut (room / 8) 8 x.core.desk (fix l) } }), l.data, false)
    | none => fill s
  else s.sectorRead (streamDesk d) a

/-- Bytes read through the desk cache, line by line. -/
def State.deskLinesRead (s : State) (d a room : Nat) : Nat → State × List Byte × Bool
  | 0 => (s, [], false)
  | k + 1 =>
    let r := s.deskLine d a room
    let t := r.1.deskLinesRead d (a + 64) room k
    (t.1, r.2.1 ++ t.2.1, r.2.2 || t.2.2)

end Sys2Proof.Machine
end

