-- ==== Sys2Proof/Machine/Gate.lean ====
section
/-! DEFINITION. What the Gate does for every family: descriptors (R50 to R57), the checks of R58, tally headers and
twin messages (R419, R422, R423), translation (R369 to R375), fault records (R333 to R337), parking (R72, R73), and
regions and residency (R76 to R89). -/

namespace Sys2Proof.Machine

/-! ## Twin messages and the right to write -/

/-- The side of the block (R414). -/
def State.side (s : State) : Nat := s.pins.straps.twnSide.val

/-- The mode of the twin page; 3 acts as 0 (R418). -/
def State.twnMode (s : State) : Nat := let m := s.rd Fld.twnCtlMode; if m = 3 then 0 else m

/-- Whether this engine is the standby side of paired-standby (R415). -/
def State.standby (s : State) : Bool := decide (s.twnMode = 2) && decide (s.rd Fld.twnCtlWalker ≠ s.side)

/-- Whether the pair is formed and its link live: `STATE` reads `ACTIVE` or `STANDBY` (R418). -/
def State.paired (s : State) : Bool := let x := s.rd Fld.twnStatusState; decide (x = 2) || decide (x = 3)

/-- Whether this engine's own entries are mirrored: the pair is live and this side walks (R66, R415; in paired-standby too:
DEDUCED, assumption log 45). -/
def State.mirrored (s : State) : Bool := s.paired && !s.standby

/-- A message to the twin, when the link is up (R419); the `LINK` arm makes its CRC fail (R510). -/
def State.twinSend (s : State) (m : TwinMsg) : State :=
  if s.twin.linkUp then
    let arm := s.armed Fld.twnInjectLink
    let t := State.count { s with twin := { s.twin with sent := s.twin.sent ++ [if arm then .garbled m else m], sendNum := s.twin.sendNum + 1 } } unitTwn 0 1
    if arm then t.disarm Fld.twnInjectLink else t
  else s

/-- The right of R427 to write host memory for a batch. -/
def State.mayWrite (s : State) (b : Bid) : Bool :=
  if b.held then
    s.flag Fld.twnStatusHolding || (s.paired && (match s.batch b with
      | some x => x.twinCopy
      | none => false))
  else !s.flag Fld.twnStatusFenced && !s.flag Fld.twnStatusLent && !s.twin.wantFence

/-! ## Queue registers as a batch sees them -/

/-- A queue's registers (R500) or the twin's record of its queue (R417, R430). -/
def State.queRec (s : State) (b : Bid) : QueRec :=
  let q := b.que.val
  if b.held then
    match SMap.find s.twin.qrecs q with
    | some r => r
    | none => { que := b.que, baseLo := 0, baseHi := 0, depth := 0, classTenant := 0, complBase := 0, sealAddr := 0, ptrootLo := 0, ptrootHi := 0 }
  else
    { que := b.que, baseLo := s.reg (pageReg .que q 0x040), baseHi := s.reg (pageReg .que q 0x044),
      depth := s.reg (pageReg .que q 0x048), classTenant := s.reg (pageReg .que q 0x054),
      complBase := s.reg (pageReg .que q 0x058), sealAddr := s.reg (pageReg .que q 0x05C),
      ptrootLo := s.reg (pageReg .que q 0x068), ptrootHi := s.reg (pageReg .que q 0x06C) }

/-- The virtual address of the submission ring (R500, R501). -/
def recBase (r : QueRec) : Nat := field r.baseHi 19 0 * 2 ^ 32 + r.baseLo.toNat / 64 * 64
/-- The virtual address of the completion ring. -/
def recCompl (r : QueRec) : Nat := field r.baseHi 19 0 * 2 ^ 32 + r.complBase.toNat / 64 * 64
/-- The virtual address of the seal word. -/
def recSeal (r : QueRec) : Nat := field r.baseHi 19 0 * 2 ^ 32 + r.sealAddr.toNat / 8 * 8
/-- The physical address of the level 0 table (R369). -/
def recPtroot (r : QueRec) : Nat := field r.ptrootHi 19 0 * 2 ^ 32 + r.ptrootLo.toNat / 65536 * 65536

/-- The page table of a batch (R369, R430). -/
def bidRoot (b : Bid) : Root := if b.held then .twinQue b.que else .que b.que

/-! ## Translation -/

/-- A root's tag in the translation cache. -/
def rootTag : Root → Nat
  | .que q => q.val
  | .twinQue q => 64 + q.val
  | .gate => 128

/-- The physical address of a root's level 0 table (R369). -/
def State.rootAddr (s : State) : Root → Nat
  | .que q => recPtroot (s.queRec { que := q, seq := 0, held := false })
  | .twinQue q => recPtroot (s.queRec { que := q, seq := 0, held := true })
  | .gate => s.rd Fld.lnkPtrootHiAddr * 2 ^ 32 + s.rd Fld.lnkPtrootLoAddr * 65536

/-- What a page walk finds (R371). -/
inductive WalkRes where
  | page (va size pa : Nat) (w : Bool)
  | fault
  deriving DecidableEq, Repr

/-- Sixteen entries that form one 64 KiB page (R371). -/
def contigPage (m : Memory) (t idx : Nat) : Option (Nat × Bool) :=
  let first := idx / 16 * 16
  let e (k : Nat) : Nat := Memory.le m (t + (first + k) * 8) 8
  let base := bits (e 0) 51 12 * 4096
  if (List.range 16).all (fun k => bit (e k) 0 && bit (e k) 1 && bit (e k) 4 && (bit (e k) 2 == bit (e 0) 2)
      && (bit (e k) 3 == bit (e 0) 3) && decide (bits (e k) 51 12 * 4096 = base + k * 4096))
    && decide (base % 65536 = 0) then some (base, bit (e 0) 2) else none

/-- The walk of the four-level table for one address (R369 to R371). -/
def pageWalk (m : Memory) (root va : Nat) : WalkRes :=
  let e0 := Memory.le m (root + bits va 51 39 * 8) 8
  if !(bit e0 0 && bit e0 3) || bit e0 1 then .fault
  else
    let e1 := Memory.le m (bits e0 51 12 * 4096 + bits va 38 30 * 8) 8
    if !(bit e1 0 && bit e1 3) then .fault
    else if bit e1 1 then
      (if bits e1 29 12 ≠ 0 then .fault else .page (va / 2 ^ 30 * 2 ^ 30) (2 ^ 30) (bits e1 51 12 * 4096) (bit e1 2))
    else
      let e2 := Memory.le m (bits e1 51 12 * 4096 + bits va 29 21 * 8) 8
      if !(bit e2 0 && bit e2 3) then .fault
      else if bit e2 1 then
        (if bits e2 20 12 ≠ 0 then .fault else .page (va / 2 ^ 21 * 2 ^ 21) (2 ^ 21) (bits e2 51 12 * 4096) (bit e2 2))
      else
        let t := bits e2 51 12 * 4096
        let e3 := Memory.le m (t + bits va 20 12 * 8) 8
        if !(bit e3 0 && bit e3 3) || !bit e3 1 then .fault
        else
          match contigPage m t (bits va 20 12) with
          | some (pa, w) => .page (va / 65536 * 65536) 65536 pa w
          | none => .page (va / 4096 * 4096) 4096 (bits e3 51 12 * 4096) (bit e3 2)

/-- The Gate walks for a page, and its `XLATE` arm (R510) acts on a walk for a queue root. -/
def State.walk (s : State) (r : Root) (va : Nat) : State × WalkRes :=
  let s1 := (s.count unitGate 7 1).hostRead 32
  let arm := s1.armed Fld.lnkInjectXlate && (match r with
    | .gate => false
    | .que _ | .twinQue _ => true)
  if arm then (s1.disarm Fld.lnkInjectXlate, .fault) else (s1, pageWalk s1.host (s1.rootAddr r) va)

/-- An answer that may fault with an `FCAUSE` and a faulting address (R371). -/
inductive XOut (α : Type) where
  | ok (x : α)
  | fault (cause addr : Nat)
  deriving DecidableEq, Repr

/-- The page of an address through the translation cache of 4,096 entries, least recently used first (R375). -/
def State.xlatePage (s : State) (r : Root) (va : Nat) (write : Bool) : State × XOut (Nat × Nat) :=
  let tag := rootTag r
  let hit (e : XcEntry) : Bool := decide (e.root = tag) && decide (e.va ≤ va) && decide (va < e.va + e.size)
  match s.xc.find? hit with
  | some e =>
    let t := State.count { s with xc := dropFirst hit s.xc ++ [e] } unitGate 6 1
    if write && !e.w then (t, .fault 2 va) else (t, .ok (e.pa + (va - e.va), e.va + e.size - va))
  | none =>
    match s.walk r va with
    | (t, .fault) => (t, .fault 1 va)
    | (t, .page pva size pa w) =>
      let e : XcEntry := { root := tag, va := pva, size := size, pa := pa, w := w }
      let u := { t with xc := (if t.xc.length < 4096 then t.xc else t.xc.drop 1) ++ [e] }
      if write && !w then (u, .fault 2 va) else (u, .ok (pa + (va - pva), pva + size - va))

/-- The physical pieces of a range, page by page. -/
def State.xlateParts (s : State) (r : Root) (va n : Nat) (write : Bool) : Nat → State × XOut (List (Nat × Nat))
  | 0 => (s, .ok [])
  | k + 1 =>
    if n = 0 then (s, .ok [])
    else
      match s.xlatePage r va write with
      | (t, .fault c a) => (t, .fault c a)
      | (t, .ok (pa, room)) =>
        let len := min room n
        match t.xlateParts r (va + len) (n - len) write k with
        | (u, .fault c a) => (u, .fault c a)
        | (u, .ok ps) => (u, .ok ((pa, len) :: ps))

/-- An on-demand access translated (R371, R372): a range that reaches 2^52 faults with `FCAUSE` 3. -/
def State.xlate (s : State) (r : Root) (va n : Nat) (write : Bool) : State × XOut (List (Nat × Nat)) :=
  if 2 ^ 52 < va + n then (s, .fault 3 va) else s.xlateParts r va n write (n / 4096 + 2)

/-- Bytes of host memory at a virtual address. -/
def State.readVa (s : State) (r : Root) (va n : Nat) : State × XOut (List Byte) :=
  match s.xlate r va n false with
  | (t, .fault c a) => (t, .fault c a)
  | (t, .ok ps) => (t.hostRead n, .ok (ps.flatMap (fun p => t.hostBytes p.1 p.2)))

/-- Bytes written piece by piece. -/
def State.hostWriteParts (s : State) (ps : List (Nat × Nat)) (bs : List Byte) (fr : AckFor) : State :=
  match ps with
  | [] => s
  | p :: rest => (s.hostWrite p.1 (bs.take p.2) fr).hostWriteParts rest (bs.drop p.2) fr

/-- Bytes written at a virtual address; nothing is written when any page faults. -/
def State.writeVa (s : State) (r : Root) (va : Nat) (bs : List Byte) (fr : AckFor) : State × XOut Unit :=
  match s.xlate r va bs.length true with
  | (t, .fault c a) => (t, .fault c a)
  | (t, .ok ps) => (t.hostWriteParts ps bs fr, .ok ())

/-! ## Stamps -/

/-- The physical address of a stamped virtual address of a batch, and the room left in its page (R373). -/
def State.stampAt (s : State) (b : Bid) (va : Nat) : Option (Nat × Nat) :=
  (s.stamps.find? (fun e => decide (e.bid = b) && decide (e.va ≤ va) && decide (va < e.va + e.size) && !e.withdrawn)).map
    (fun e => (e.pa + (va - e.va), e.va + e.size - va))

/-- The pieces of a stamped range; `none` when part of it has no stamp. -/
def State.stampParts (s : State) (b : Bid) (va n : Nat) : Nat → Option (List (Nat × Nat))
  | 0 => if n = 0 then some [] else none
  | k + 1 =>
    if n = 0 then some []
    else
      match s.stampAt b va with
      | none => none
      | some (pa, room) => (s.stampParts b (va + min room n) (n - min room n) k).map (fun ps => (pa, min room n) :: ps)

/-- The scene address of an entry of the stamp store (R373). -/
def State.stampPlace (s : State) (k : Nat) : Nat := s.rd Fld.lnkStampBaseBase * 65536 + 8 * k

/-- The entries of the stamp store that a transfer needs, read (R354, R373). -/
def State.stampTouch (s : State) (b : Bid) (va n : Nat) : State :=
  (s.stamps.filter (fun e => decide (e.bid = b) && decide (e.va < va + n) && decide (va < e.va + e.size))).foldl
    (fun t e => (t.recordGet streamStamp (t.stampPlace e.place) 8).1) s

/-- A host read made through a batch's stamps, counted (R372, R497). -/
def State.stampHost (s : State) (b : Bid) (va n : Nat) : State := (s.stampTouch b va n).hostRead n

/-- Bytes written through a batch's stamps (R372). -/
def State.stampWrite (s : State) (b : Bid) (va : Nat) (bs : List Byte) (fr : AckFor) : Option State :=
  (s.stampParts b va bs.length (bs.length / 4096 + 2)).map (fun ps => (s.stampTouch b va bs.length).hostWriteParts ps bs fr)

/-- Bytes read through a batch's stamps. -/
def State.stampRead (s : State) (b : Bid) (va n : Nat) : Option (List Byte) :=
  (s.stampParts b va n (n / 4096 + 2)).map (fun ps => ps.flatMap (fun p => s.hostBytes p.1 p.2))

/-! ## Descriptors -/

/-- A v1 descriptor (R51) as its v2 equivalent (R54); class and tenant come from the queue. -/
def descV1 (bs : List Byte) (cls ten : Nat) : Desc :=
  { fmt := 1, kind := 0, submode := bytesLe bs 1 1,
    flags := BitVec.ofNat 16 (bytesLe bs 2 2 % 4 % 2 + (bytesLe bs 2 2 / 2 % 2) * 2 + 1 * 64 + 1 * 256),
    count := bytesLe bs 4 4 % 2 ^ 24, cls := cls, tenant := ten, k := 0, tag := bytesWord bs 0x28,
    inAddr := bytesLe bs 8 8, outAddr := bytesLe bs 0x10 8, bitmapAddr := bytesLe bs 0x18 8, slotAddr := 0,
    wakeAddr := 0, root := bytesLe bs 0x20 8 % 2 ^ 40, radius := 0, progMain := 0, progAnyhit := 0, progAccum := 0,
    paramAddr := 0, reserved := false }

/-- A v2 descriptor (R52, R53). `reserved` says that some reserved content is not zero, `K` and `RADIUS` of a kind
other than `PROBE` included. -/
def descV2 (bs : List Byte) : Desc :=
  let w4 := bytesLe bs 4 4
  let kind := bytesLe bs 0 1 / 16
  { fmt := 2, kind := kind, submode := bytesLe bs 1 1, flags := BitVec.ofNat 16 (bytesLe bs 2 2),
    count := w4 % 2 ^ 24, cls := bits w4 25 24, tenant := bytesLe bs 8 2 % 4096, k := bytesLe bs 0xA 2 % 512,
    tag := bytesWord bs 0xC, inAddr := bytesLe bs 0x10 8, outAddr := bytesLe bs 0x18 8,
    bitmapAddr := bytesLe bs 0x20 8, slotAddr := bytesLe bs 0x28 8, wakeAddr := bytesLe bs 0x30 8,
    root := bytesLe bs 0x38 8 % 2 ^ 40, radius := bytesWord bs 0x40, progMain := bytesLe bs 0x44 2,
    progAnyhit := bytesLe bs 0x46 2, progAccum := bytesLe bs 0x48 2, paramAddr := bytesLe bs 0x50 8,
    reserved := decide (bytesLe bs 2 2 / 4096 ≠ 0) || decide (bits w4 31 26 ≠ 0) || decide (bytesLe bs 8 2 / 4096 ≠ 0)
      || decide (bytesLe bs 0xA 2 / 512 ≠ 0) || decide (bytesLe bs 0x38 8 / 2 ^ 40 ≠ 0)
      || decide (bytesLe bs 0x4A 6 ≠ 0) || decide (bytesLe bs 0x58 40 ≠ 0)
      || (decide (kind ≠ 2) && (decide (bytesLe bs 0xA 2 ≠ 0) || decide (bytesLe bs 0x40 4 ≠ 0))) }

/-- An entry with an invalid `FMT` (R50): no other field is read. -/
def descBad (cls ten : Nat) : Desc :=
  { fmt := 0, kind := 0, submode := 0, flags := 0, count := 0, cls := cls, tenant := ten, k := 0, tag := 0, inAddr := 0,
    outAddr := 0, bitmapAddr := 0, slotAddr := 0, wakeAddr := 0, root := 0, radius := 0, progMain := 0,
    progAnyhit := 0, progAccum := 0, paramAddr := 0, reserved := false }

/-- A descriptor read from its bytes. -/
def descOf (bs : List Byte) (cls ten : Nat) : Desc :=
  match bytesLe bs 0 1 % 16 with
  | 1 => descV1 bs cls ten
  | 2 => descV2 bs
  | _ => descBad cls ten

/-- Flags and kinds by name (R53, R55). -/
def Desc.compress (d : Desc) : Bool := d.flags.getLsbD 0
def Desc.irq (d : Desc) : Bool := d.flags.getLsbD 1
def Desc.wake (d : Desc) : Bool := d.flags.getLsbD 2
def Desc.ordered (d : Desc) : Bool := d.flags.getLsbD 3
def Desc.modeF (d : Desc) : Nat := bits d.flags.toNat 5 4
def Desc.refine (d : Desc) : Nat := bits d.flags.toNat 7 6
def Desc.passes (d : Desc) : Nat := bits d.flags.toNat 9 8
def Desc.recF (d : Desc) : Nat := bits d.flags.toNat 11 10
def Desc.isRay (d : Desc) : Bool := decide (d.kind = 0)
def Desc.isGen (d : Desc) : Bool := decide (d.kind = 1)
def Desc.isProbe (d : Desc) : Bool := decide (d.kind = 2)
def Desc.isRefit (d : Desc) : Bool := decide (d.kind = 3)
def Desc.isMaint (d : Desc) : Bool := decide (d.kind = 4)
def Desc.raylike (d : Desc) : Bool := d.isRay || d.isGen
def Desc.accum (d : Desc) : Bool := d.raylike && decide (d.submode = 2)
/-- A batch packs (R310). -/
def Desc.packs (d : Desc) : Bool := d.compress || (d.accum && d.ordered)
/-- Walkers of the batch (R55): `MAINT` has none. -/
def Desc.walkers (d : Desc) : Nat := if d.isMaint then 0 else d.count
/-- Bytes of a ray record (R53, R61). -/
def Desc.rayBytes (d : Desc) : Nat := if d.recF = 0 then 32 else if d.recF = 1 then 48 else 64
/-- Bytes of an input record (R372). -/
def Desc.inBytes (d : Desc) : Nat := if d.isProbe then 16 else if d.isRefit then 64 else d.rayBytes

/-- The stamped buffers in the order of R372: the `FACCESS` of their accesses (R336), address, length in bytes, whether it is written.
A buffer whose address field is zero is not stamped (R52). -/
def Desc.extents (d : Desc) : List (Nat × Nat × Nat × Bool) :=
  let ext (field acc va n : Nat) (w : Bool) : List (Nat × Nat × Nat × Bool) := if field = 0 ∨ n = 0 then [] else [(acc, va, n, w)]
  if d.fmt = 0 then []
  else
    (if d.isRay || d.isRefit || d.isProbe then ext d.inAddr 0x01 d.inAddr (d.count * d.inBytes) false
      else if d.isMaint then ext d.inAddr 0x01 d.inAddr 16 false else [])
    ++ (if d.raylike && !d.accum then ext d.outAddr 0x02 (d.outAddr / 16 * 16) (d.count * 16) true
        else if d.isProbe then ext d.outAddr 0x02 (d.outAddr / 8 * 8) (d.count * d.k * 8) true else [])
    ++ (if d.raylike && d.compress then ext d.bitmapAddr 0x03 (d.bitmapAddr / 8 * 8) ((d.count + 63) / 64 * 8) true else [])
    ++ (if d.accum then ext d.slotAddr 0x04 (d.slotAddr / 16 * 16) (d.count * 16) true else [])

/-- The stamped buffers: address, length in bytes, whether it is written. -/
def Desc.buffers (d : Desc) : List (Nat × Nat × Bool) := d.extents.map (·.2)

/-- An FP32 code that is a negative number or a NaN; negative subnormals read as +0 (R58, R273). -/
def badRadius (r : Word) : Bool :=
  decide (0x7F800000 < r.toNat % 2 ^ 31) || (r.msb && decide (0x800000 ≤ r.toNat % 2 ^ 31))

/-- Check 1 of R58, as the first failing item's `CRCODE` (R329). -/
def Desc.check1 (d : Desc) : Option Nat :=
  if d.fmt = 0 then some 0x01
  else if 4 < d.kind then some 0x02
  else if (match d.kind with
      | 0 | 1 => decide ((if d.fmt = 1 then 1 else 2) < d.submode)
      | 2 => decide (1 < d.submode)
      | 3 => decide (d.submode ≠ 0)
      | _ => decide (d.submode = 0) || decide (4 < d.submode)) then some 0x03
  else if decide (d.recF = 3) || decide (d.passes = 0) || decide (d.refine = 0) || decide (d.modeF = 3)
      || (d.compress && !d.raylike) then some 0x04
  else if d.reserved then some 0x05
  else if ((d.isRay || d.isProbe || d.isRefit || d.isMaint) && decide (d.inAddr = 0))
      || (((d.raylike && !d.accum) || d.isProbe) && decide (d.outAddr = 0))
      || (d.accum && decide (d.slotAddr = 0)) || (d.compress && decide (d.bitmapAddr = 0))
      || (d.wake && decide (d.wakeAddr = 0)) || (d.isGen && decide (d.progMain = 0)) then some 0x06
  else if d.isProbe && decide (d.submode = 1) && badRadius d.radius then some 0x07
  else none

/-- Check 3 of R58. -/
def Desc.check3 (d : Desc) : Option Nat :=
  if d.isProbe && decide (256 < d.k) then some 0x10
  else if d.buffers.any (fun b => decide (2 ^ 52 < b.1 + b.2.1)) || (d.wake && decide (2 ^ 52 < d.wakeAddr / 16 * 16 + 16))
      || decide (2 ^ 52 ≤ d.paramAddr) then some 0x11
  else none

/-! ## Tally headers -/

/-- `TH_STATE` (R422). -/
def BState.code : BState → Nat
  | .accepted => 1 | .admitted => 2 | .parked => 3 | .completing => 4 | .isSealed => 5

/-- The header entry of a batch (R422). `side` is the side of the accepting engine. -/
def Batch.header (b : Batch) (side : Nat) : List Byte :=
  [BitVec.ofNat 8 (b.desc.fmt + b.st.code * 16), BitVec.ofNat 8 (b.bid.que.val + side * 64),
   BitVec.ofNat 8 (if b.desc.fmt = 1 then 2 else if b.desc.fmt = 2 then 4 else 0), BitVec.ofNat 8 (min b.cdefer 255)]
  ++ leBytes 4 b.bid.seq.toNat ++ leBytes 2 b.ring
  ++ [b.status.getD 0xFF, BitVec.ofNat 8 (b.mode + (if 0 < b.restarts then 4 else 0))]
  ++ leBytes 4 (min b.beads 0xFFFFFFFF) ++ zeroBytes 16

/-- The side whose entries a batch is among. -/
def State.sideOf (s : State) (b : Bid) : Nat := if b.held then 1 - s.side else s.side

/-- The tally entries a batch occupies after its header (R66). -/
def Batch.entries (b : Batch) : Nat := if b.desc.fmt = 1 then 3 else if b.desc.fmt = 2 then 5 else 1

/-- How many indices this engine's own range has, and its first (R415, R487). -/
def State.ownRange (s : State) : Nat × Nat :=
  match s.twnMode with
  | 0 => (0, 16384)
  | 1 => (s.side * 8192, 8192)
  | _ => if s.standby then (0, 0) else (0, 16384)

/-- The index `i` places after `a` in the own range, wrapping (R487). -/
def State.tallyIdx (s : State) (a i : Nat) : Nat :=
  let r := s.ownRange
  if r.2 = 0 then a else r.1 + (a - r.1 + i) % r.2

/-- A tally entry written; the `CODE` arm puts its pattern on the first word (R508, R510). -/
def State.tallyPut (s : State) (i : Nat) (bs : List Byte) : State :=
  let v := s.rd Fld.tlyInjectCode
  let t := if v = 0 then s else s.disarm Fld.tlyInjectCode
  let clr := (List.range 4).foldl (fun m j => SMap.del m (i * 4 + j)) t.tallyErr
  { t with tally := SMap.set (zeroBytes 32) t.tally i bs,
           tallyErr := if v = 0 then clr else SMap.set 0 clr (i * 4) (armPattern v) }

/-! ## The tally read -/

/-- The accepted, unsealed batches of a queue that this engine accepted. -/
def State.unsealed (s : State) (q : Nat) : List Batch :=
  s.batches.filter (fun x => decide (x.bid.que.val = q) && !x.bid.held && decide (x.st ≠ .isSealed))

/-- A tally word read (R504, R436): a correctable error is corrected; on a pair the entry is fetched again from the twin's
mirror; otherwise the error stands. -/
def State.tallyWordRead (s : State) (i j : Nat) : State × Bool :=
  let pat := SMap.get 0 s.tallyErr (i * 4 + j)
  let clear : State := { s with tallyErr := SMap.del s.tallyErr (i * 4 + j) }
  match codeJudge pat with
  | .good | .missed => (s, true)
  | .corrected | .miscorrected => (clear.report (some (4, 0)) (some 6) unitTly (some 2), true)
  | .uncorrectable =>
    if s.mirrored then (clear.report (some (4, 1)) (some 7) unitTly (some 3), true)
    else (s.report (some (4, 1)) (some 7) unitTly (some 3), false)
  | .nibble =>
    if s.mirrored then (clear.report (some (4, 1)) (some 8) unitTly (some 3), true)
    else (s.report (some (4, 1)) (some 8) unitTly (some 3), false)

/-- A tally entry read. -/
def State.tallyEntryRead (s : State) (i : Nat) : State × Bool :=
  (List.range 4).foldl (fun r j => let q := r.1.tallyWordRead i j; (q.1, r.2 && q.2)) (s, true)

/-- A header entry lost (R437): every queue that holds an unsealed batch stops sealing. -/
def State.headerLost (s : State) : State :=
  let qs := (List.range 64).filter (fun q => decide (s.unsealed q ≠ []))
  { s with tallyStop := qs.foldl addNew s.tallyStop }

/-- A header entry's new contents: the entry is read for the change (R504) and written, unless it is lost (R437). -/
def State.headerPut (s : State) (b : Batch) : State :=
  if b.bid.que.val ∈ s.tallyStop then s
  else
    let r := s.tallyEntryRead b.tly
    if r.2 then r.1.tallyPut b.tly (b.header r.1.side) else r.1.headerLost

/-- The fields a `STATE` message carries (R419). -/
def Batch.stateRec (b : Batch) : TwinStateRec :=
  { state := BitVec.ofNat 4 b.st.code, status := b.status.getD 0xFF, cdefer := BitVec.ofNat 8 (min b.cdefer 255),
    mode := BitVec.ofNat 8 (b.mode + (if 0 < b.restarts then 4 else 0)),
    beads := BitVec.ofNat 32 (min b.beads 0xFFFFFFFF) }

/-- A batch changed, its header entry in the tally with it (R423), and a `STATE` message sent for a change of state,
status, deferrals or mode. A batch of the twin's side changes no tally entry here. -/
def State.updTally (s : State) (b : Bid) (f : Batch → Batch) : State :=
  match s.batch b with
  | none => s
  | some x =>
    let y := f x
    let t := s.updBatch b f
    let u := if b.held then t else t.headerPut y
    if decide (y.st = x.st) && decide (y.status = x.status) && decide (y.cdefer = x.cdefer) && decide (y.mode = x.mode)
        && decide (y.restarts = x.restarts) || b.held || !u.mirrored then u
    else u.twinSend (.state (BitVec.ofNat 14 y.tly) y.stateRec)

/-- A batch's status recorded, unless one is (R327: the first recorded is final). -/
def State.fixStatus (s : State) (b : Bid) (code crcode : Nat) : State :=
  s.updTally b (fun x => match x.status with
    | some _ => x
    | none => { x with status := some (BitVec.ofNat 8 code), crcode := BitVec.ofNat 8 crcode })

/-! ## Fault records and parking -/

/-- The layout of R335. -/
def faultBytes (kind facc dists engine : Nat) (seq : Word) (que cause ten addr walker : Nat) : List Byte :=
  [BitVec.ofNat 8 kind, BitVec.ofNat 8 facc, BitVec.ofNat 8 dists, BitVec.ofNat 8 engine] ++ leBytes 4 seq.toNat
  ++ [BitVec.ofNat 8 que, BitVec.ofNat 8 cause] ++ leBytes 2 ten ++ zeroBytes 4 ++ leBytes 8 addr ++ leBytes 4 walker
  ++ zeroBytes 36

/-- The walker index a record carries when none applies (R335). -/
def noWalker : Nat := 0xFFFFFF

/-- A batch parks (R72, R73): its state, its count of parks, the queue's status bit. -/
def State.park (s : State) (b : Bid) (stage : ParkStage) : State :=
  match s.batch b with
  | none => s
  | some x =>
    let t := s.updTally b (fun y => { y with
      st := .parked
      parkAt := some (y.parkAt.getD stage)
      parks := if x.st = .parked then y.parks else y.parks + 1 })
    t.status (0xC0 + b.que.val) 1

/-- A fault of a batch reported to the Gate (R89, R337): reports of one batch and one page or granule merge into one
record; the first forms it, with its detector's report. `d` is the district, if one reported. -/
def State.reportFault (s : State) (b : Bid) (absent : Bool) (key facc cause addr walker : Nat) (d : Option Nat) : State :=
  let same (r : ParkReport) : Bool := decide (r.bid = b) && decide (r.key = key) && (r.absent == absent)
  let ten := match s.batch b with
    | some x => x.tenant
    | none => s.rd (Fld.queClassTenantTenant b.que.val)
  match s.reports.find? same with
  | some r =>
    let ds := match d with
      | some x => addNew r.dists x
      | none => r.dists
    if r.written then s
    else
      let kind : Byte := if absent then 2 else 1
      let own (f : FaultRec) : Bool := decide (f.bid = b) && decide (f.key = key) && decide (f.bytes.head? = some kind)
      { s with
        reports := updFirst same (fun x => { x with dists := ds }) s.reports
        faults := updFirst own (fun f => { f with bytes := bytesPut f.bytes 2 [BitVec.ofNat 8 ds.length] }) s.faults }
  | none =>
    let ds := match d with
      | some x => [x]
      | none => []
    let rep : ParkReport :=
      { bid := b, key := key, absent := absent, dists := ds, walker := walker, access := BitVec.ofNat 8 facc,
        cause := BitVec.ofNat 8 cause, addr := addr, written := false }
    let fr : FaultRec :=
      { bytes := faultBytes (if absent then 2 else 1) facc ds.length (s.sideOf b) b.seq b.que.val cause ten addr walker
        bid := b, gate := decide (d = none), key := key }
    let t : State := { s with reports := s.reports ++ [rep], faults := s.faults ++ [fr] }
    let unit := match d with
      | some x => if absent then x else unitGate
      | none => unitGate
    t.report none (some (if absent then 20 else 19)) unit none

/-- The page in which an address of a batch faults (R337): the page its walk finds, else the 4 KiB that hold it (DEDUCED, assumption
log 92). -/
def State.faultPage (s : State) (b : Bid) (addr : Nat) : Nat :=
  match pageWalk s.host (s.rootAddr (bidRoot b)) addr with
  | .page va _ _ _ => va / 4096
  | .fault => addr / 4096

/-- A translation fault reported, with an `XLATE` record (R337). -/
def State.xlateReport (s : State) (b : Bid) (facc cause addr walker : Nat) (d : Option Nat) : State :=
  s.reportFault b false (s.faultPage b addr) facc cause addr walker d

/-- A translation fault parks its batch and forms an `XLATE` record (R72, R337). -/
def State.xlateFault (s : State) (b : Bid) (stage : ParkStage) (facc cause addr walker : Nat) (d : Option Nat) : State :=
  (s.xlateReport b facc cause addr walker d).park b stage

/-- An absent granule parks its batch and forms an `ABSENT` record (R88, R89). -/
def State.absentFault (s : State) (b : Bid) (facc g walker d : Nat) : State :=
  (s.reportFault b true g facc 0 (g * 65536) walker (some d)).park b .walking

/-! ## Tenants, regions, residency -/

/-- Word `i` of a tenant's entry; an entry resets to zero with `WEIGHT` 1 (R488). -/
def State.tenWord (s : State) (t i : Nat) : Word := (SMap.find s.ten (t * 32 + i)).getD (if i = 0 then 0x100 else 0)

/-- The tenant table with a word set: a word at its reset value is not listed. -/
def tenSet (m : SMap Word) (t i : Nat) (v : Word) : SMap Word :=
  if v = (if i = 0 then 0x100 else 0) then SMap.del m (t * 32 + i) else SMap.put m (t * 32 + i) v

/-- Fields of a tenant entry (R488). -/
def State.tenEnabled (s : State) (t : Nat) : Bool := (s.tenWord t 0).getLsbD 0
def State.tenWeight (s : State) (t : Nat) : Nat := field (s.tenWord t 0) 15 8
def State.rtAddr (s : State) (t : Nat) : Nat := ((s.tenWord t 3).toNat % 256 * 2 ^ 32 + (s.tenWord t 2).toNat) / 64 * 64
def State.rtCount (s : State) (t : Nat) : Nat := let c := field (s.tenWord t 4) 8 0; if 256 < c then 0 else c
def State.pdAddr (s : State) (t : Nat) : Nat := ((s.tenWord t 7).toNat % 256 * 2 ^ 32 + (s.tenWord t 6).toNat) / 16 * 16
def State.pdCount (s : State) (t : Nat) : Nat := let c := field (s.tenWord t 8) 16 0; if 65536 < c then 0 else c

/-- Whether some word of a tenant's entry fails parity (R34). -/
def State.tenFails (s : State) (t : Nat) : Bool := s.tenBad.any (fun w => decide (w / 32 = t))

/-- The report and capture of a parity error in a tenant's entry (R489). -/
def State.tenReport (s : State) (t : Nat) : State :=
  let u := s.report (some (5, 0)) (some 7) unitNone none
  if u.flag Fld.tenErrValid then u else (u.wr Fld.tenErrTenant t).wr Fld.tenErrValid 1

/-- A tenant's entry read by the engine: a parity error is reported and captured (R34, R489). -/
def State.tenParity (s : State) (t : Nat) : State := if s.tenFails t then s.tenReport t else s

/-- A region entry read from its 32 bytes (R79). -/
def regionOf (bs : List Byte) : Region :=
  { base := bytesLe bs 0 8 % 2 ^ 40 / 65536 * 65536, size := bytesLe bs 8 4 % 2 ^ 25,
    flags := BitVec.ofNat 32 (bytesLe bs 0xC 4), bitmap := bytesLe bs 0x10 8 % 2 ^ 40 / 8 * 8 }

/-- A region is live (R81). -/
def Region.live (r : Region) (cap : Nat) : Bool :=
  r.flags.getLsbD 0 && decide (r.size ≠ 0) && decide (r.base + r.size * 65536 ≤ cap)

/-- Flags of R80. -/
def Region.write (r : Region) : Bool := r.flags.getLsbD 1
def Region.mirror (r : Region) : Bool := r.flags.getLsbD 2
def Region.program (r : Region) : Bool := r.flags.getLsbD 3
def Region.allres (r : Region) : Bool := r.flags.getLsbD 4

/-- The live regions of a tenant's table, read through the stack caches (R78, R82). -/
def State.readRegions (s : State) (t : Nat) : State × List Region × Bool :=
  let r := s.sceneRead streamGate (s.rtAddr t) (s.rtCount t * 32)
  (r.1, ((List.range (s.rtCount t)).map (fun i => regionOf ((r.2.1.drop (i * 32)).take 32))).filter
    (fun x => x.live s.installed), r.2.2)

/-- The region that governs an address (R81): the first in table order whose range holds it. -/
def regionAt (rs : List Region) (a : Nat) : Option Region :=
  rs.find? (fun r => decide (r.base ≤ a) && decide (a < r.base + r.size * 65536))

/-- The granules an access touches. -/
def granules (a n : Nat) : List Nat :=
  if n = 0 then [] else (List.range ((a + n - 1) / 65536 - a / 65536 + 1)).map (fun i => a / 65536 + i)

/-- The check of R83 for an access: every byte governed by a region that meets `p`. Regions begin and end on
granules, so the check goes granule by granule. -/
def regionsAllow (rs : List Region) (p : Region → Bool) (a n : Nat) : Bool :=
  (granules a n).all (fun g => match regionAt rs (g * 65536) with
    | some r => p r
    | none => false)

/-- The residency check of one granule by a district (R86, R87), and the `ABSENT` arm (R509). -/
def State.resident (s : State) (d : Nat) (rs : List Region) (g : Nat) : State × Bool :=
  if s.armed (Fld.dstInjectAbsent d) then (s.disarm (Fld.dstInjectAbsent d), false)
  else
    match regionAt rs (g * 65536) with
    | none => (s, false)
    | some r =>
      if r.allres then (s, true)
      else
        let i := g - r.base / 65536
        let w := s.sceneRead (streamMisc d) (r.bitmap + i / 64 * 8) 8
        (w.1, bit (leNat w.2.1) (i % 64))

/-- The first absent granule of an access, if any. -/
def State.residentAll (s : State) (d : Nat) (rs : List Region) : List Nat → State × Option Nat
  | [] => (s, none)
  | g :: rest =>
    match s.resident d rs g with
    | (t, true) => t.residentAll d rs rest
    | (t, false) => (t, some g)

/-- What an engine read of scene memory for a batch comes to (R83, R84, R87, R348). -/
inductive SceneRes where
  | bytes (bs : List Byte)
  /-- The region check fails. -/
  | denied
  /-- A granule is absent. -/
  | absent (g : Nat)
  /-- Poisoned data: lost scene data (R348), at an address. -/
  | lost (a : Nat)
  deriving DecidableEq, Repr

/-- An access checked (R83, R87), before it is made. -/
def State.sceneCheck (s : State) (d : Nat) (rs : List Region) (p : Region → Bool) (a n : Nat) : State × Option SceneRes :=
  if !regionsAllow rs p a n then (s, some .denied)
  else
    match s.residentAll d rs (granules a n) with
    | (t, some g) => (t, some (.absent g))
    | (t, none) => (t, none)

end Sys2Proof.Machine
end

