-- ==== Sys2Proof/Machine/Routes.lean ====
section
/-! DEFINITION. Ownership: lots (R156 to R158), the treelet map and the memos (R159 to R165), dealing order (R21), and the placing of a
walker at a district: its square, its transit, its side street (R34, R167, R168, R170, R171, R177, R179, R182, R194). -/

namespace Sys2Proof.Machine

/-! ## Lots and the map -/

/-- The hash of a treelet identity (R156). -/
def tidHash (tid : Nat) : Nat := tid * 0x9E3779B9 % 2 ^ 32
/-- The lot of a treelet. -/
def tidLot (tid : Nat) : Nat := tidHash tid / 2 ^ 22
/-- The map set of a treelet. -/
def tidSet (tid : Nat) : Nat := tidHash tid / 2 ^ 19

/-- The weight of a district for a lot (R157). -/
def lotWeight (l d : Nat) : Nat := (l * 128 + d) * 0x9E3779B9 % 2 ^ 32

/-- The owner of a lot among open districts (R157): its base district if open, else the open district of largest
weight. -/
def lotOwnerOf (isOpen : Nat → Bool) (l : Nat) : Option Nat :=
  if isOpen (l % 128) then some (l % 128)
  else (allDists.filter isOpen).foldl (fun acc d => match acc with
    | none => some d
    | some e => if lotWeight l e < lotWeight l d then some d else some e) none

/-- The owner of a lot in the present lot table. -/
def State.lotOwner (s : State) (l : Nat) : Option Nat := lotOwnerOf s.isOpen l

/-- Word `w` of map entry `e` (R159). -/
def State.mapWord (s : State) (e w : Nat) : Word := SMap.get 0 s.map (e * 4 + w)

/-- Whether some word of a map entry fails parity (R34). -/
def State.mapFails (s : State) (e : Nat) : Bool := s.mapBad.any (fun w => decide (w / 4 = e))

/-- The map's answer for a treelet (R160): the words of the valid entry of the lowest way that names it; an entry
that fails parity counts as not valid (R491). -/
def State.mapEntry (s : State) (tid : Nat) : Option (List Word) :=
  ((List.range 8).find? (fun w =>
    let e := tidSet tid * 8 + w
    !s.mapFails e && (s.mapWord e 2).getLsbD 0 && decide (field (s.mapWord e 0) 23 0 = tid))).map
    (fun w => (List.range 4).map (s.mapWord (tidSet tid * 8 + w)))

/-- The district that holds a treelet's map set (R11, R159). -/
def mapHolder (tid : Nat) : Nat := tidSet tid * 8 / 512

/-- Owner of an entry. -/
def entryOwner (ws : List Word) : Nat := field (ws.getD 1 0) 6 0
/-- Valid replicas of an entry (R159, R160). -/
def entryReps (ws : List Word) : List Nat :=
  let w := ws.getD 1 0
  ((List.range 3).filter (fun i => w.getLsbD (15 + 8 * i))).map (fun i => field w (14 + 8 * i) (8 + 8 * i))

/-- The report and capture of a parity error in a map entry (R34, R491). -/
def State.mapReport (s : State) (e : Nat) : State :=
  let t := s.report (some (6, 0)) (some 7) unitNone none
  if t.flag Fld.mapErrValid then t else (t.wr Fld.mapErrEntry e).wr Fld.mapErrValid 1

/-- The parity errors a lookup of a set meets, reported and captured (R34, R491). -/
def State.mapParity (s : State) (tid : Nat) : State :=
  match (List.range 8).find? (fun w => s.mapFails (tidSet tid * 8 + w)) with
  | none => s
  | some w => s.mapReport (tidSet tid * 8 + w)

/-- Whether replicas serve a treelet for a batch (R165): it lies in a live region with `WRITE` = 0. -/
def replicable (rs : List Region) (tid : Nat) : Bool :=
  match regionAt rs (tid * 65536) with
  | some r => !r.write
  | none => false

/-- The district that serves a treelet for a walker at `d` (R155, R165), from the map's answer: the nearest open one of
owner and replicas, the lower number on a tie; else the lot's owner. -/
def State.servingBy (s : State) (d tid : Nat) (rs : List Region) (ans : Option (List Word)) : Option Nat :=
  let cands := match ans with
    | some ws => (entryOwner ws :: (if replicable rs tid then entryReps ws else [])).filter s.isOpen
    | none => []
  match leastBy (fun x => s.hops d x * 128 + x) cands with
  | some x => some x
  | none => s.lotOwner (tidLot tid)

/-! ## The memo -/

/-- An answer put into a district's memo of 256 entries, the oldest leaving when it is full (R163; which leaves:
DESIGN CHOICE, assumption log 11). -/
def State.memoPut (s : State) (d tid : Nat) (ans : Option (List Word)) : State :=
  let m := (s.dist d).memo.filter (fun e => decide (e.tid ≠ tid))
  let m' := (if m.length < 256 then m else m.drop 1) ++ [{ tid := tid, entry := ans }]
  s.updDist d (fun x => { x with memo := m', asked := x.asked.filter (fun t => decide (t ≠ tid)) })

/-- A memo's answer, if it has one. -/
def State.memoAns (s : State) (d tid : Nat) : Option (Option (List Word)) :=
  ((s.dist d).memo.find? (fun e => decide (e.tid = tid))).map (·.entry)

/-- The district that serves a treelet for a batch's walkers at `d` (R155, R163, R165), from the memo; `none` while the lookup has still
to be made, or where no district is open. -/
def State.destOf (s : State) (d tid : Nat) (b : Bid) : Option Nat :=
  (s.memoAns d tid).bind (fun ans => s.servingBy d tid (match s.batch b with
    | some x => x.regions
    | none => []) ans)

/-! ## Dealing and messages -/

/-- Whether a district is masked from dealing: above `WARM` (R404), a row masked for debt (R395), or kept open by
R405 above `HIGH`. -/
def State.masked (s : State) (d : Nat) : Bool :=
  (s.dist d).warm || (s.dist d).high || decide (8 - s.rd Fld.pwrVstatusRowsMasked ≤ d / 16)

/-- The next district R21 deals to, after the one that received the last run. -/
def State.nextDealt (s : State) : Option Nat :=
  ((List.range 128).map (fun i => (s.house.lastDist + 1 + i) % 128)).find? (fun d => s.isOpen d && !s.masked d)

/-- A message put into its lane (R12). -/
def State.sendMsg (s : State) (lane : Lane) (src dst : Nat) (body : Payload) : State :=
  { s with msgs := s.msgs ++ [{ lane := lane, src := src, dst := dst, here := src, replays := 0, via := none, seq := s.clock, body := body }],
           clock := s.clock + 1 }

/-! ## Walkers at a district -/

/-- A walker's identity within the block. -/
def Walker.is (w : Walker) (b : Bid) (idx gen : Nat) : Bool :=
  decide (w.bid = b) && decide (w.idx = idx) && decide (w.gen = gen)

/-- A walker changed, by its identity. -/
def State.setWalker (s : State) (w : Walker) : State :=
  s.updWalker (fun x => x.is w.bid w.idx w.gen) (fun _ => w)

/-- The scene address of a piece of work. -/
def WItem.addr : WItem → Nat
  | .node a _ _ _ => a
  | .link a _ _ => a
  | .leaf _ a _ _ _ => a
  | .tri a _ _ _ _ => a
  | .root a _ _ _ _ => a
  | .pnode a _ => a
  | .pleaf a _ => a
  | .plink a _ => a

/-- The treelet a walker needs next. -/
def Walker.tid (w : Walker) : Option Nat := w.work.head?.map (fun i => i.addr / 65536)

/-- A copy of a treelet that a step may use now (R175, R182). -/
def District.copy (x : District) (tid : Nat) : Option (Nat × PlotSlot) :=
  x.plot.find? (fun p => decide (p.2.tid = tid) && (decide (p.2.st = .resident) || decide (p.2.st = .replicated)))

/-- The walkers that occupy slots of a district's walker queue (R11, R194). -/
def State.slots (s : State) (d : Nat) : List Walker :=
  s.walkers.filter (fun w => decide (w.dist = d) && (match w.st with
    | .entering | .queued | .inProgram | .inSquare _ => true
    | .done => true
    | .inTransit | .spilled | .parked _ => false))

/-- Whether a treelet is installed in the top table (R166, R167). -/
def State.topHas (s : State) (tid : Nat) : Bool := s.house.top.any (fun p => decide (p.2.tid = tid))

/-- Whether a batch's walkers may use the installed top entry of a treelet: not one above the limit in force at the batch's admission
(R167, R168). -/
def State.topMay (s : State) (b : Bid) (tid : Nat) : Bool :=
  s.house.top.any (fun p => decide (p.2.tid = tid) && (match p.2.cut, s.batch b with
    | some n, some x => decide (x.admitOrd ≤ n)
    | _, _ => true))

/-- A walker of class Express. -/
def Walker.express (w : Walker) : Bool := decide (w.cls = 0)

/-- The batch's regions (R82). -/
def State.regionsOf (s : State) (b : Bid) : List Region :=
  match s.batch b with
  | some x => x.regions
  | none => []

/-- Whether a walker's batch runs in stay mode (R182). -/
def State.stays (s : State) (b : Bid) : Bool :=
  match s.batch b with
  | some x => decide (x.mode = 1)
  | none => true

/-- The copy in a walker's district that it may step (R165, R167, R168, R182): a top copy that its batch may use; in gather mode also the
owner's copy and, where replicas serve the walker's batch or the district serves it by its lot, any other. -/
def State.copyFor (s : State) (w : Walker) (tid : Nat) : Option (Nat × PlotSlot) :=
  match (s.dist w.dist).copy tid with
  | none => none
  | some p =>
    let top := p.2.top.isSome
    if top && s.topMay w.bid tid then some p
    else if s.stays w.bid then none
    else if !top && (decide (p.2.st = .resident) || replicable (s.regionsOf w.bid) tid) then some p
    else if s.destOf w.dist tid w.bid = some w.dist then some p
    else none

/-! ## The walker queue and the side street -/

/-- A walker's slot read, with its scene code (R34, R504). `none` where the district closes for it. -/
def State.readSlot (s : State) (w : Walker) : State × Option Walker :=
  if w.pat = 0 then (s, some w)
  else
    let t := s.dstCode w.dist (codeJudge w.pat)
    if codePoison w.pat then (t.faultClose w.dist, none)
    else (t.setWalker { w with pat := 0 }, some { w with pat := 0 })

/-- A walker written into a slot of its district's queue: the `WQ` arm may take the slot's first word (R508, R509). -/
def State.writeSlot (s : State) (w : Walker) : State × Walker :=
  let v := s.rd (Fld.dstInjectWq w.dist)
  (if v = 0 then s else s.disarm (Fld.dstInjectWq w.dist), { w with pat := armPattern v, place := none })

/-- A free place of a store of `cap` records: the one after the highest in use or, at its end, the lowest free one (which is internal,
assumption log 81). -/
def placeIn (cap : Nat) (used : List Nat) : Nat :=
  let m := used.foldl (fun a b => max a (b + 1)) 0
  if m < cap then m else ((List.range (used.length + 1)).find? (fun i => decide (i ∉ used))).getD 0

/-- The scene address of a record of a district's side street (R177). -/
def State.streetAt (s : State) (d k : Nat) : Nat := s.rd (Fld.dstSideBaseBase d) * 65536 + 128 * k

/-- A walker's record written to the side street of its district, and its slot freed (R177, R179). -/
def State.toStreet (s : State) (w0 : Walker) (st : WState) : State :=
  match s.readSlot w0 with
  | (t, none) => t
  | (t, some w) =>
    let k := placeIn 524288 (t.walkers.filterMap (fun x => if x.dist = w.dist then x.place else none))
    let u := t.recordPut (streamSide w.dist) (t.streetAt w.dist k) 128
    ((u.setWalker { w with st := st, ord := u.clock, place := some k, sqAt := none }).count w.dist 0x0E 1).tick

/-- A walker spilled (R179). -/
def State.spill (s : State) (w : Walker) : State := s.toStreet w .spilled

/-- A walker parked: written to the side street with its state kept, marked parked (R88, R179). -/
def State.parkWalker (s : State) (w : Walker) : State := (s.toStreet w (.parked false)).refreshDrained w.dist

/-- A walker that comes to a district's queue (R13, R179): a full queue spills it, or, for an Express walker, the non-Express walker
that most recently entered a square (with none, the Express walker: DESIGN CHOICE, assumption log 93); otherwise it takes a slot and
`settle` says what becomes of it. -/
def State.arrive (s : State) (w : Walker) (settle : State → Walker → State) : State :=
  let here := s.slots w.dist
  let s0 := s.count w.dist 0x14 1
  let taken (t : State) : State := let r := t.writeSlot w; settle r.1 r.2
  if here.length < 4096 then taken s0
  else
    let sq := if w.express then here.filter (fun x => !x.express && x.sqAt.isSome && (match x.st with
      | .inSquare _ | .queued => true
      | .entering | .inProgram | .inTransit | .spilled | .parked _ | .done => false)) else []
    match leastBy (fun x => s.clock - x.sqAt.getD 0) sq with
    | some v => taken (s0.spill v)
    | none => s0.spill w

/-! ## Squares, transit -/

/-- A walker that waits in its district's queue (R170, R182). -/
def State.queueUp (s : State) (w : Walker) : State := (s.setWalker { w with st := .queued, ord := s.clock }).tick

/-- A walker joins its treelet's square or opens one; with 64 in use it waits in the queue (R170). -/
def State.joinSquare (s : State) (w : Walker) (tid : Nat) : State :=
  let x := s.dist w.dist
  let w1 := { w with st := .inSquare tid, ord := s.clock, sqAt := some s.clock }
  if x.squares.any (fun q => decide (q.tid = tid)) then (s.setWalker w1).tick
  else if x.squares.length < 64 then
    ((s.setWalker w1).setDist w.dist
      { x with squares := x.squares ++ [{ tid := tid, opened := s.clock, loads0 := x.loads, loading := false }] }).tick
  else s.queueUp w

/-- A walker sent on toward a district for a treelet, under the present epoch (R185); its slot is read and freed. -/
def State.sendWalker (s : State) (w0 : Walker) (dst tid : Nat) : State :=
  match s.readSlot w0 with
  | (t, none) => t
  | (t, some w) =>
    ((t.setWalker { w with st := .inTransit, epoch := t.epoch, dest := dst, sqAt := none, place := none }).sendMsg .walker w.dist dst
      (.walker w.bid w.idx w.gen tid t.epoch)).refreshDrained w.dist

/-- What becomes of a walker that is ready at a district (R182, R194): it is queued where it may step, waits in the
queue for a map lookup, joins the treelet's square, or goes on in transit. A walker with no work left is done. -/
def State.place (s : State) (w : Walker) : State :=
  match w.tid with
  | none => (s.setWalker { w with st := .done, stage := .toWrite, ord := s.clock }).tick
  | some tid =>
    if s.stays w.bid && !s.isOpen w.dist then
      (match s.nextDealt with
       | some d => s.sendWalker w d tid
       | none => s.queueUp w)
    else if s.stays w.bid || (s.copyFor w tid).isSome then s.queueUp w
    else if s.topMay w.bid tid && s.isOpen w.dist then s.joinSquare w tid
    else
      match s.memoAns w.dist tid with
      | none => s.queueUp w
      | some _ =>
        let t := s.count w.dist 0x11 1
        match t.destOf w.dist tid w.bid with
        | none => t.queueUp w
        | some dst => if dst = w.dist then t.joinSquare w tid else t.sendWalker w dst tid

/-- The walkers that wait in a district's queue for a square, in arrival order (R170): gather walkers with no copy to step whose
treelet's serving district is known or installed as a top entry. -/
def State.squareWaiters (s : State) (d : Nat) : List Walker :=
  sortBy (fun a b => decide (a.ord < b.ord)) (s.walkers.filter (fun w => decide (w.dist = d) && decide (w.st = .queued) && !s.stays w.bid
    && (match w.tid with
      | some tid => (s.copyFor w tid).isNone && (s.topMay w.bid tid || (s.memoAns d tid).isSome)
      | none => false)))

/-- As squares are released, the walkers that wait for one open it, in arrival order (R170). -/
def State.openWaiting (s : State) (d : Nat) : State :=
  (s.squareWaiters d).foldl (fun t w => if (t.dist d).squares.length < 64 then t.place w else t) s

/-- A walker ended with no further result: cancelled or killed (R74, R194). -/
def State.dropWalker (s : State) (w : Walker) : State :=
  (s.setWalker { w with st := .done, work := [], stage := .acked, ord := s.clock }).tick

end Sys2Proof.Machine
end

