-- ==== Sys2Proof/Machine/Window.lean ====
section
/-! DEFINITION. Host accesses to the register window: which writes are served (R411, R453, R454, R457), locks (R467,
R468), malformed accesses (R445), parity of block pages (R472, R473), and the configuration CRC of district pages
(R470, R471). -/

namespace Sys2Proof.Machine

/-! ## Configuration CRC -/

/-- CRC-32C of one more byte, reflected (R470). -/
def crcByte (crc : BitVec 32) (b : Byte) : BitVec 32 :=
  (List.range 8).foldl (fun c _ => if c.getLsbD 0 then (c >>> 1) ^^^ 0x82F63B78 else c >>> 1) (crc ^^^ b.setWidth 32)

/-- CRC-32C of bytes: initial value and final exclusive-or all ones (R470). -/
def crc32c (bs : List Byte) : Word := ~~~(bs.foldl crcByte 0xFFFFFFFF)

/-- The bytes a district page's CRC runs over (R470): registers from 0x040 with only RW bits counted, `SPLIT_DEF` as
0, and last `PG_IRQEN`. -/
def State.crcBytes (s : State) (d : Nat) : List Byte :=
  regsDst.flatMap (fun r =>
    let v := s.reg (pageReg .dst d r.1) &&& r.2.rw
    leBytes 4 (if r.1 = 0x054 then v &&& ~~~(fieldMask 5 4) else v).toNat)
  ++ leBytes 4 (s.reg (pageReg .dst d 0x00C)).toNat

/-- `PG_CRCNOW` of a district page. -/
def State.crcNow (s : State) (d : Nat) : Word := crc32c (s.crcBytes d)

/-- The comparison of R471 for a district, and the `CFG` arm (R507): a mismatch sets `CFG_ERR`, reports, and closes the
district with `FAULT`. -/
def State.crcCheck (s : State) (d : Nat) : State :=
  if s.flag (Fld.crcCheck (0x40 + d)) then
    let arm := s.armed (Fld.dstInjectCfg d)
    let t := if arm then s.disarm (Fld.dstInjectCfg d) else s
    if arm || decide (t.crcNow d ≠ t.reg (pageReg .dst d 0x014)) then
      (t.report (some (0x40 + d, 31)) (some 2) d none).faultClose d
    else t
  else s

/-! ## Parity of block pages -/

/-- The parity check of a block page (R472): a mismatch sets `CFG_ERR` and reports, with the offset of the first
failing register captured while `PARITY` read 0; a `QUE` page's `RUN` is cleared (R473). -/
def State.parityCheck (s : State) (pg : Nat) : State :=
  match s.parBad.filter (fun o => decide (offPage o = pg)) with
  | [] => s
  | o :: _ =>
    let first := !s.flag Fld.errStatusParity
    let t := s.report (some (pg, 31)) (some 1) (pageUnit pg) none
    let u := if first then t.wr Fld.errParAddrOffset (o / 4) else t
    match pageOf pg with
    | some (.que, q) => if u.flag (Fld.parCheck pg) then u.wr (Fld.queStateRun q) 0 else u
    | _ => u

/-- Pages whose registers a function uses, checked (R472). -/
def State.checkPages (s : State) (pgs : List Nat) : State := pgs.foldl State.parityCheck s

/-- The parity bit of a block register written by the host: good, unless the page's `CFG` arm inverts it (R510). -/
def State.parityWrite (s : State) (off : Nat) : State :=
  let arm : Fld := ⟨offPage off * 0x1000 + 0x010, 31, 31⟩
  let good : State := { s with parBad := s.parBad.filter (fun o => decide (o ≠ off)) }
  if regCover off = 0 then s
  else if s.armed arm then
    let t := s.disarm arm
    { t with parBad := insertBy (fun a b => decide (a < b)) off (t.parBad.filter (fun o => decide (o ≠ off))) }
  else good

/-- A register written by the host: its RW bits take the value (R8, R463), parity or CRC follows. -/
def State.hostSet (s : State) (off : Nat) (v : Word) : State :=
  let m := (regAt off).rw
  if m = 0 then s
  else
    let t := s.setReg off ((s.reg off &&& ~~~m) ||| (v &&& m))
    match pageOf (offPage off) with
    | some (.dst, d) => t.crcCheck d
    | some _ => t.parityWrite off
    | none => t

/-! ## Which accesses are served -/

/-- The state of the block that decides whether a write is served now. -/
inductive Serve where
  /-- Served. -/
  | yes
  /-- Served, and the block wakes (R411). -/
  | wake
  /-- Discarded without report: before `READY`, in a warm reset, on a district page under reset. -/
  | discard
  /-- Held until Ready; the block wakes (R411). -/
  | held
  deriving DecidableEq, Repr

/-- Whether a host write to a window offset is served (R20, R411, R453, R457). -/
def State.serveWrite (s : State) (off : Nat) : Serve :=
  let pg := offPage off
  match s.phase with
  | .warmWanted => .discard
  | .starting _ | .holding _ => if pg = 0 ∨ pg = 7 ∨ pg = 1 ∨ pg = 2 then .yes else .discard
  | .up =>
    if 3 ≤ s.rd Fld.blkRungCurrent ∧ ¬(pg = 0 ∨ pg = 7) then .held
    else if 1 ≤ s.rd Fld.blkRungCurrent ∧ 0xC0 ≤ pg ∧ pg < 0x100 then .wake
    else if 0x40 ≤ pg ∧ pg < 0xC0 ∧ (s.dist (pg - 0x40)).inReset then .discard
    else .yes

/-- Whether the host is locked out of a register (R467). -/
def State.lockedReg (s : State) (off : Nat) : Bool :=
  let pg := offPage off
  let o := off % 0x1000
  let lk := s.reg (pg * 0x1000 + 0x01C)
  if o = 0x004 ∨ o = 0x00C ∨ o = 0x014 then lk.getLsbD 31
  else if 0x040 ≤ o ∧ o < 0x0BC then lk.getLsbD ((o - 0x040) / 4)
  else false

/-- A write discarded as locked (R468). -/
def State.lockDiscard (s : State) (off : Nat) : State :=
  let first := !s.flag Fld.errStatusLockWrite
  let t := s.report none (some 0) (pageUnit (offPage off)) none
  if first then t.wr Fld.errLockAddrOffset (off / 4) else t

/-- The report of a malformed or out-of-range access (R363, R445). -/
def State.protocolError (s : State) : State := s.report none (some 4) unitNone none

/-- A write served: malformed by the arm of R510, discarded as locked, or else `f`, its own effect. -/
def State.doWrite (s : State) (off : Nat) (f : State → State) : State :=
  let bad := s.armed Fld.errInjectHlProtocol
  let s1 := if bad then (s.disarm Fld.errInjectHlProtocol).protocolError else s
  let arm := s1.armed Fld.errInjectLockWrite && decide (offPage off ≠ 14)
  let s2 := if arm then (s1.disarm Fld.errInjectLockWrite).lockDiscard off else s1
  if bad || arm then s2
  else if s2.lockedReg off then s2.lockDiscard off
  else f s2

/-- An access asks for a wake (R411), by the window offset it addressed. -/
def State.askWake (s : State) (off : Nat) : State := { s with gate := { s.gate with held := some off } }

/-- A host write to a window offset, where it is served: `f` is the effect of the write itself. -/
def State.guardWrite (s : State) (off : Nat) (f : State → State) : State :=
  match s.serveWrite off with
  | .discard => s
  | .held => s.askWake off
  | .wake => (s.askWake off).doWrite off f
  | .yes => s.doWrite off f

end Sys2Proof.Machine
end

