-- ==== Sys2Proof/Machine/Queue.lean ====
section
/-! DEFINITION. Queues (R37 to R49, R66, R67, R71 to R74): doorbells, states, descriptor fetch, stamping (R373, R374),
acceptance, cancel and resume. -/

namespace Sys2Proof.Machine

/-! ## Queue helpers -/

/-- Entries between head and tail of a ring of `depth` (R40). -/
def ringCount (depth headIdx headPh tailIdx tailPh : Nat) : Nat :=
  if headPh = tailPh then (if headIdx ≤ tailIdx then tailIdx - headIdx else 0) else depth - headIdx + tailIdx

/-- Entries not yet fetched of queue `q`. -/
def State.unfetched (s : State) (q : Nat) : Nat :=
  ringCount (s.rd (Fld.queDepthDepth q)) (s.rd (Fld.queHeadIndex q)) (s.rd (Fld.queHeadPhase q))
    (s.rd (Fld.queTailIndex q)) (s.rd (Fld.queTailPhase q))

/-- `QUE_STATE.STATE` (R44, R415). -/
def State.queState (s : State) (q : Nat) : Nat :=
  if s.rd (Fld.queDepthDepth q) = 0 then 0
  else if q ∈ s.queErrS then 4
  else if s.flag (Fld.queStateRun q) && !s.standby then 2
  else if s.unsealed q = [] then 1
  else 3

/-- The batch a queue's fetched descriptor becomes (R46). -/
def State.nextBid (s : State) (q : Que) : Bid := { que := q, seq := BitVec.ofNat 32 (s.rd (Fld.queSeqSeq q.val)), held := false }

/-- A descriptor fetched and not yet accepted let go with its stamps, so that fetching restarts at `QUE_HEAD` (R45, R49), unless its
tally entries have gone to the twin (DESIGN CHOICE, assumption log 91). -/
def State.unfetch (s : State) (q : Que) : State :=
  match SMap.find s.fetched q.val with
  | none => s
  | some f =>
    if f.tly.isSome then s
    else
      let b := s.nextBid q
      { s with
        fetched := SMap.del s.fetched q.val
        stamps := s.stamps.filter (fun e => decide (e.bid ≠ b))
        reports := s.reports.filter (fun r => decide (r.bid ≠ b)) }

/-- An error of a queue (R41, R44, R45): `ERR` set, to the later code where the host has not read an earlier one (DESIGN CHOICE,
assumption log 94), `RUN` cleared. -/
def State.queError (s0 : State) (q code : Nat) : State :=
  let s := if h : q < 64 then s0.unfetch ⟨q, h⟩ else s0
  let was := s.rd (Fld.queStateErr q)
  let t := (s.wr (Fld.queStateErr q) code).wr (Fld.queStateRun q) 0
  let u := { t with queErrS := addNew t.queErrS q }
  if was = 0 then u.status (0xC0 + q) 0 else u

/-- The block is up and at Ready with no deeper rung asked for, so admission, dealing and fetch go on (R410 step 2,
R453 step 1, R457). -/
def State.running (s : State) : Bool :=
  decide (s.phase = .up) && decide (s.rd Fld.blkRungCurrent = 0) && decide (s.rd Fld.blkRungTarget = 0)

/-! ## Accounts -/

/-- An account with nothing in it. -/
def Account.zero : Account := { bal := 0, cmt := 0 }

/-- 48-bit saturation (R382). -/
def sat48 (v : Int) : Int := max (-(2 ^ 47 - 1)) (min (2 ^ 47 - 1) v)

/-- A class account, or a tenant account (R382, `KIND` as in R383). -/
def State.account (s : State) (cls : Bool) (i : Nat) : Account :=
  if cls then SMap.get Account.zero s.house.classAcc i else SMap.get Account.zero s.house.tenantAcc i

/-- An account set. -/
def State.setAccount (s : State) (cls : Bool) (i : Nat) (a : Account) : State :=
  if cls then { s with house := { s.house with classAcc := SMap.set Account.zero s.house.classAcc i a } }
  else { s with house := { s.house with tenantAcc := SMap.set Account.zero s.house.tenantAcc i a } }

/-- Commitments of a batch's two accounts changed by `v` beads. -/
def State.commit (s : State) (ten cls : Nat) (v : Int) : State :=
  let a := s.account false ten
  let t := s.setAccount false ten { a with cmt := sat48 (a.cmt + v) }
  let c := t.account true cls
  t.setAccount true cls { c with cmt := sat48 (c.cmt + v) }

/-! ## Work let go -/

/-- The groups of every core, each changed or dropped by `f`. -/
def State.mapGroups (s : State) (f : Nat → Group → Option Group) : State :=
  { s with dists := s.dists.map (fun p => (p.1, { p.2 with core := { p.2.core with
      groups := p.2.core.groups.filterMap (fun g => (f p.1 g.2).map (fun x => (g.1, x)))
      parks := p.2.core.parks.filterMap (fun g => (f p.1 g.2).map (fun x => (g.1, x))) } })) }

/-- All the work of a batch stopped (R74, R265, R266, R322, R432): its walkers end with no further result, its
invocations, groups, messages, heaps, contributions and interlocks go. -/
def State.abandon (s : State) (b : Bid) : State :=
  let t := s.mapGroups (fun _ g => if g.bid = b then none else some g)
  { t with
    walkers := t.walkers.map (fun w => if w.bid = b then { w with st := .done, work := [], stage := .acked } else w)
    msgs := t.msgs.filter (fun m => match m.body with
      | .walker x _ _ _ _ | .candidates x _ _ _ _ | .tau x _ _ _ | .endNotice x _ _ _ _ => decide (x ≠ b)
      | .send x _ _ _ _ _ => decide (x ≠ b)
      | .lookup _ | .lookupReply _ _ _ | .sendStatus _ _ _ _ | .marker => true)
    contribs := t.contribs.filter (fun c => decide (c.bid ≠ b))
    locks := t.locks.filter (fun l => decide (l.bid ≠ b))
    dists := t.dists.map (fun p => (p.1, { p.2 with
      heaps := p.2.heaps.filter (fun h => decide (h.bid ≠ b))
      core := { p.2.core with waiting := p.2.core.waiting.filter (fun i => decide (i.bid ≠ b)) } })) }

/-- A batch out of the list; its tenant and class are kept for the charges of its last transfers (R381). -/
def State.goneBatch (s : State) (x : Batch) : State :=
  { s with
    batches := s.batches.filter (fun y => decide (y.bid ≠ x.bid))
    house := { s.house with gone := s.house.gone.filter (fun g => decide (g.1 ≠ x.bid)) ++ [(x.bid, x.tenant, x.cls, x.frac)] } }

/-- A batch taken out with all that is held for it: stamps, ledger runs, reports, images, inbox messages, and what is left
of its commitments (R190, R259, R373, R382). -/
def State.clearBatch (s : State) (x : Batch) : State :=
  let t := s.abandon x.bid
  let u := (if x.cmtLeft = 0 then t else t.commit x.tenant x.cls (-((x.cmtLeft : Nat) : Int))).goneBatch x
  let v : State := { u with
    walkers := u.walkers.filter (fun w => decide (w.bid ≠ x.bid))
    stamps := u.stamps.filter (fun e => decide (e.bid ≠ x.bid))
    reports := u.reports.filter (fun r => decide (r.bid ≠ x.bid))
    house := { u.house with ledger := u.house.ledger.filter (fun l => decide (l.bid ≠ x.bid)) }
    dists := u.dists.map (fun p => (p.1, { p.2 with core := { p.2.core with
      inbox := p.2.core.inbox.filter (fun m => decide (m.bid ≠ x.bid))
      images := p.2.core.images.filter (fun i => decide (i.1 ≠ x.bid)) } })) }
  allDists.foldl (fun y d => y.refreshDrained d) v

/-- A queue that stopped for a tally error and is disabled loses its batches, which receive no completion (R437). -/
def State.dropStopped (s : State) (q : Nat) : State :=
  if q ∈ s.tallyStop then
    let t : State := { s with tallyStop := s.tallyStop.filter (fun x => decide (x ≠ q)) }
    (t.batches.filter (fun x => decide (x.bid.que.val = q) && !x.bid.held)).foldl (fun u x => u.clearBatch x) t
  else s

/-! ## Doorbell and controls -/

/-- `QUE_TAIL_WRITE`: the checks of R41. -/
def State.tailWrite (s : State) (q : Nat) (v : Word) : State :=
  let depth := s.rd (Fld.queDepthDepth q)
  let idx := field v 15 0
  let ph := field v 16 16
  let hi := s.rd (Fld.queHeadIndex q)
  let hp := s.rd (Fld.queHeadPhase q)
  let n := ringCount depth hi hp idx ph
  if decide (depth ≤ idx) || (decide (hp = ph) && decide (idx < hi)) || decide (depth < n) then s.queError q 1
  else if n < s.unfetched q then s.queError q 2
  else s.hostSet (pageReg .que q 0x04C) v

/-- `QUE_TAIL_WRITE` (R41). -/
def execQueTailWrite (q : Que) (v : Word) (s : State) : Res :=
  .next (s.guardWrite (pageReg .que q.val 0x04C) (fun t => t.tailWrite q.val v))

/-- `QUE_DEPTH_WRITE` (R39): 1 and values above 65,536 are not stored and report `DEPTH`; 0 disables the queue (R437). -/
def execQueDepthWrite (q : Que) (v : Word) (s : State) : Res :=
  .next (s.guardWrite (pageReg .que q.val 0x048) (fun t =>
    let n := field v 16 0
    if n = 1 ∨ 65536 < n then t.queError q.val 3
    else (if n = 0 then (t.dropStopped q.val).unfetch q else t).hostSet (pageReg .que q.val 0x048) v))

/-- The sequence number taken from the seal word (R46). Where the read faults in translation an `XLATE` record is formed, and the queue
fetches nothing until the seal word has been read (DESIGN CHOICE, assumption log 46). -/
def State.loadSeq (s : State) (q : Que) : State :=
  let b := s.nextBid q
  match s.readVa (.que q) (recSeal (s.queRec b)) 8 with
  | (t, .ok bs) =>
    State.wr { t with
      seqWait := t.seqWait.filter (fun x => decide (x ≠ q.val))
      reports := t.reports.filter (fun r => decide (r.bid ≠ b)) } (Fld.queSeqSeq q.val) (bytesLe bs 0 4)
  | (t, .fault c a) => State.xlateReport { t with seqWait := addNew t.seqWait q.val } b 0x06 c a noWalker none

/-- `QUE_RUN_SET` (R44, R46): from `DISABLED` or `STOPPED` the seal word gives the next sequence number. A pair is told
(R417). -/
def execQueRunSet (q : Que) (s : State) : Res :=
  .next (s.guardWrite (pageReg .que q.val 0x064) (fun t =>
    if t.halted .que q.val then t.parityCheck (0xC0 + q.val)
    else
      let st := t.queState q.val
      let t1 := if st = 0 ∨ st = 1 then t.loadSeq q else t
      let t2 := State.wr { t1 with queErrS := t1.queErrS.filter (fun x => decide (x ≠ q.val)) } (Fld.queStateRun q.val) 1 |>.parityWrite (pageReg .que q.val 0x064)
      if t2.paired then t2.twinSend (.qrec (t2.queRec { que := q, seq := 0, held := false })) else t2))

/-- `QUE_RUN_CLEAR` (R49): fetching stops, accepted batches run on; a descriptor fetched and not accepted is let go (assumption log 91). -/
def execQueRunClear (q : Que) (s : State) : Res :=
  .next (s.guardWrite (pageReg .que q.val 0x064) (fun t =>
    ((t.unfetch q).wr (Fld.queStateRun q.val) 0).parityWrite (pageReg .que q.val 0x064)))

/-- `QUE_EST_WRITE` (R387). -/
def execQueEstWrite (q : Que) (v : Word) (s : State) : Res :=
  .next (s.guardWrite (pageReg .que q.val 0x070) (fun t => t.hostSet (pageReg .que q.val 0x070) v))

/-! ## Fetch, stamping, acceptance -/

/-- How many tally entries a descriptor needs, by its first byte (R66). -/
def needEntries (b0 : Nat) : Nat := if b0 % 16 = 1 then 3 else if b0 % 16 = 2 then 5 else 1

/-- Own tally entries in use (R486). -/
def State.tallyUsed (s : State) : Nat :=
  ((s.batches.filter (fun x => !x.bid.held && decide (x.st ≠ .isSealed))).map Batch.entries).foldl (· + ·) 0

/-- Whether `n` consecutive own indices from `a` are free: no batch stands there, and no entry on its way to the twin's copy (R66). -/
def State.tallyFree (s : State) (a n : Nat) : Bool :=
  let r := s.ownRange
  let rel (x : Nat) : Nat := (x + r.2 - a) % r.2
  s.batches.all (fun x => x.bid.held || decide (x.st = .isSealed) ||
    (decide (n ≤ rel x.tly) && decide (rel x.tly + x.entries ≤ r.2)))
  && s.fetched.all (fun p => match p.2.tly with
    | none => true
    | some i => decide (n ≤ rel i) && decide (rel i + needEntries (bytesLe p.2.raw 0 1) ≤ r.2))

/-- The first index of `n` free consecutive own indices, looked for from the last allocation on (R487). -/
def State.tallyAlloc (s : State) (n : Nat) : Option Nat :=
  let r := s.ownRange
  if r.2 < s.tallyUsed + n then none
  else
    let at0 (x : Nat) : Nat := r.1 + (x - r.1) % r.2
    (at0 s.tallyPos :: (s.batches.filter (fun x => !x.bid.held)).map (fun x => at0 (x.tly + x.entries))).find? (fun a => s.tallyFree a n)

/-- The class and tenant of a queue's register (R43). -/
def State.queClass (s : State) (q : Nat) : Nat := s.rd (Fld.queClassTenantClass q)
def State.queTenant (s : State) (q : Nat) : Nat := s.rd (Fld.queClassTenantTenant q)

/-- Whether the Gate may fetch for a queue now (R42, R373, R415, R428, R473). -/
def State.mayFetch (s : State) (q : Nat) : Bool :=
  s.running && s.flag (Fld.queStateRun q) && !s.standby && s.flag Fld.lnkStampBaseEn && !s.halted .lnk
    && !s.flag Fld.twnStatusFenced && !s.flag Fld.twnStatusLent && decide (q ∉ s.queErrS)
    && decide (s.rd (Fld.queDepthDepth q) ≠ 0)

/-- A queue that waits for tally room can still use it: it holds a fetched descriptor, or has one to fetch (R67). -/
def State.roomLive (s : State) (q : Nat) : Bool := (SMap.find s.fetched q).isSome || (s.mayFetch q && decide (s.unfetched q ≠ 0))

/-- No queue that began to wait for tally room earlier waits still (R67; assumption log 85). -/
def State.roomTurn (s : State) (q : Nat) : Bool := (s.gate.room.takeWhile (fun x => decide (x ≠ q))).all (fun x => !s.roomLive x)

/-- Tally room lacks, or earlier queues wait for it: the queue waits, behind those that wait already (R67). -/
def State.tallyWait (s : State) (q : Nat) : State :=
  let t : State := { s with gate := { s.gate with room := if q ∈ s.gate.room then s.gate.room else s.gate.room ++ [q] } }
  if t.flag Fld.tlyStatusWaiting then t else (t.wr Fld.tlyStatusWaiting 1).status 4 3

/-- A queue has its tally room: it waits no more, and `WAITING` reads whether another does (R67, R486). -/
def State.roomTaken (s : State) (q : Nat) : State :=
  let l := s.gate.room.filter (fun x => decide (x ≠ q) && s.roomLive x)
  State.wr { s with gate := { s.gate with room := l } } Fld.tlyStatusWaiting (b2n (decide (l ≠ [])))

/-- A ring entry of a queue read (R38), by its place after the head. -/
def State.ringRead (s : State) (q : Que) (i : Nat) : State × XOut (List Byte) :=
  let depth := s.rd (Fld.queDepthDepth q.val)
  let r := s.queRec { que := q, seq := 0, held := false }
  s.readVa (.que q) (recBase r + (s.rd (Fld.queHeadIndex q.val) + i) % depth * 64) 64

/-- The tally entries that descriptors fetched and not yet placed will take (R67). -/
def State.roomHeld (s : State) : Nat :=
  (s.fetched.map (fun p => if p.2.tly.isSome then 0 else needEntries (bytesLe p.2.raw 0 1))).foldl (· + ·) 0

/-- `DESCRIPTOR_FETCH` (R42, R45, R67): a whole descriptor, or the first half of a half-published one. -/
def State.fetch (s0 : State) (q : Que) : State :=
  let s := if s0.mayFetch q.val && decide (q.val ∈ s0.seqWait) then s0.loadSeq q else s0
  if !s.mayFetch q.val || decide (q.val ∈ s.seqWait) then s
  else
    match SMap.find s.fetched q.val with
    | some f =>
      if f.half && decide (2 ≤ s.unfetched q.val) then
        match s.ringRead q 1 with
        | (t, .fault _ _) => t.queError q.val 4
        | (t, .ok bs) => State.count { t with fetched := SMap.put t.fetched q.val { f with raw := f.raw ++ bs, half := false } } unitGate 0 1
      else s
    | none =>
      if s.unfetched q.val = 0 then s
      else
        match s.ringRead q 0 with
        | (t, .fault _ _) => t.queError q.val 4
        | (t, .ok bs) =>
          match s.tallyAlloc (s.roomHeld + needEntries (bytesLe bs 0 1)) with
          | none => s.tallyWait q.val
          | some _ =>
            if !s.roomTurn q.val then s.tallyWait q.val
            else
            let t0 := t.roomTaken q.val
            let f (raw : List Byte) (half : Bool) (n : Nat) : Fetched :=
              { raw := raw, ring := s.rd (Fld.queHeadIndex q.val), entries := n, half := half, stamped := false, fault := none,
                tly := none, mirrored := false }
            if bytesLe bs 0 1 % 16 = 2 then
              if 2 ≤ s.unfetched q.val then
                match t0.ringRead q 1 with
                | (u, .fault _ _) => u.queError q.val 4
                | (u, .ok bs2) => State.count { u with fetched := SMap.put u.fetched q.val (f (bs ++ bs2) false 2) } unitGate 0 1
              else { t0 with fetched := SMap.put t0.fetched q.val (f bs true 2) }
            else State.count { t0 with fetched := SMap.put t0.fetched q.val (f bs false 1) } unitGate 0 1

/-- `DESCRIPTOR_FETCH`. -/
def execDescriptorFetch (q : Que) (s : State) : Res := .next ((s.checkPages [1, 0xC0 + q.val]).fetch q)

/-- The entries the stamp store holds (R373). -/
def stampCap : Nat := 16777216

/-- The pages of one extent walked and stamped (R373), up to the first fault: cause and address (R371, R374). -/
def State.stampExtent (s : State) (b : Bid) (r : Root) (va n : Nat) (write : Bool) : Nat → State × Option (Nat × Nat)
  | 0 => (s, none)
  | k + 1 =>
    if n = 0 then (s, none)
    else
      match s.walk r va with
      | (t, .fault) => (t, some (1, va))
      | (t, .page pva size pa w) =>
        if write && !w then (t, some (2, va))
        else
          let pl := placeIn stampCap (t.stamps.map (·.place))
          let e : Stamp := { bid := b, va := pva, size := size, pa := pa, w := w, withdrawn := false, place := pl }
          let u := (State.recordPut { t with stamps := t.stamps ++ [e] } streamStamp (t.stampPlace pl) 8).count unitGate 5 1
          let room := pva + size - va
          u.stampExtent b r (va + min room n) (n - min room n) write k

/-- Every extent of a descriptor stamped, in the order of R372. -/
def State.stampAll (s : State) (b : Bid) (r : Root) : List (Nat × Nat × Bool) → State × Option (Nat × Nat)
  | [] => (s, none)
  | (va, n, w) :: rest =>
    match s.stampExtent b r va n w (n / 4096 + 2) with
    | (t, some f) => (t, some f)
    | (t, none) => t.stampAll b r rest

/-- A batch stamped from the start: its old entries go, and a fault leaves none (R374, R378). -/
def State.stampBatch (s : State) (b : Bid) (d : Desc) : State × Option (Nat × Nat) :=
  let s0 := { s with stamps := s.stamps.filter (fun e => decide (e.bid ≠ b)) }
  match s0.stampAll b (bidRoot b) d.buffers with
  | (t, none) => (t, none)
  | (t, some f) => ({ t with stamps := t.stamps.filter (fun e => decide (e.bid ≠ b)) }, some f)

/-- A fetched descriptor stamped (R58, R71 step 4, R373, R374): one that fails check 1 or 3 stamps nothing; the first faulting page
ends stamping with one `XLATE` record; the store's room is waited for, and so is the end of a shootdown (R378). -/
def State.stampFetched (s : State) (q : Que) : State :=
  match SMap.find s.fetched q.val with
  | none => s
  | some f =>
    let d := descOf f.raw (s.queClass q.val) (s.queTenant q.val)
    if f.half || f.stamped || decide (s.phase ≠ .up) || s.halted .lnk || !s.flag Fld.lnkStampBaseEn || s.gate.shoot then s
    else if d.check1.isSome || d.check3.isSome then
      { s with fetched := SMap.put s.fetched q.val { f with stamped := true } }
    else
      match s.stampBatch (s.nextBid q) d with
      | (t, none) =>
        if stampCap < t.stamps.length then s
        else { t with fetched := SMap.put t.fetched q.val { f with stamped := true } }
      | (t, some (c, a)) =>
        let u := t.xlateReport (t.nextBid q) 0x00 c a noWalker none
        { u with fetched := SMap.put u.fetched q.val { f with stamped := true, fault := some (c, a) } }

/-- `PAGE_WALK_COMPLETE` (R371, R375): the walk fills the translation cache; a fault of the submission ring's page
at the head stops a running queue (R45). -/
def execPageWalkComplete (r : Root) (va : BitVec 52) (s : State) : Res :=
  .next (match s.xlatePage r va.toNat false with
    | (t, .ok _) => t
    | (t, .fault _ _) =>
      match r with
      | .que q =>
        let rec0 := t.queRec { que := q, seq := 0, held := false }
        let head := recBase rec0 + t.rd (Fld.queHeadIndex q.val) * 64
        if t.flag (Fld.queStateRun q.val) && decide (t.unfetched q.val ≠ 0) && decide (va.toNat / 4096 = head / 4096)
        then t.queError q.val 4 else t
      | .twinQue _ | .gate => t)

/-- A batch as acceptance makes it (R66, R57). -/
def State.newBatch (s : State) (q : Que) (f : Fetched) (tly : Nat) : Batch :=
  let d := descOf f.raw (s.queClass q.val) (s.queTenant q.val)
  { bid := s.nextBid q, desc := d, raw := f.raw, ring := f.ring, tly := tly, cls := max (s.queClass q.val) d.cls, tenant := d.tenant,
    st := .accepted, parkAt := none, status := none, crcode := 0, cdefer := 0, mode := 0, restarts := 0, beads := 0, est := 0, cmtLeft := 0,
    hits := 0, regv := 0, fmtv := 0, traps := 0, parks := 0, checked := false, regions := [], nextIdx := 0, doneCount := 0, zeroed := false,
    nextRun := 0, cursor := 0, top := none, stop := false, work := false, refit := false, admitOrd := 0, acceptOrd := s.house.accepts + 1,
    twinCopy := false, wake := d.wake, irq := d.irq, handed := false, canceled := false, trapped := false, outW := 0,
    cbeads := none, frac := 0, wrote := [], again := false }

/-- A batch's entries written into the tally: header, then the descriptor's bytes (R66, R422). -/
def State.tallyWrite (s : State) (b : Batch) : State :=
  let t := s.tallyPut b.tly (b.header s.side)
  (List.range (b.entries - 1)).foldl (fun u i => u.tallyPut (u.tallyIdx b.tly (i + 1)) ((b.raw.drop (i * 32)).take 32)) t

/-- The bytes of an `ENTRY` message: the tally entries of a batch (R419). -/
def Batch.entryBytes (b : Batch) (side : Nat) : List Byte := b.header side ++ b.raw.take ((b.entries - 1) * 32)

/-- The head of a queue advanced past `n` entries (R40, R66). -/
def State.headStep (s : State) (q n : Nat) : State :=
  let depth := s.rd (Fld.queDepthDepth q)
  let i := s.rd (Fld.queHeadIndex q) + n
  if i < depth then s.wr (Fld.queHeadIndex q) i
  else (s.wr (Fld.queHeadIndex q) (i - depth)).wr (Fld.queHeadPhase q) (1 - s.rd (Fld.queHeadPhase q))

/-- The batch of a fetched descriptor accepted (R66): tally entries written, the sequence number taken, the head
advanced; a batch whose stamping faulted parks (R374). -/
def State.acceptNow (s : State) (q : Que) (f : Fetched) (tly : Nat) : State :=
  let b := s.newBatch q f tly
  let t := { s with
    fetched := SMap.del s.fetched q.val
    batches := s.batches ++ [b]
    tallyPos := tly + b.entries
    house := { s.house with accepts := s.house.accepts + 1, wanted := true } }
  let u := ((((t.tallyWrite b).wr (Fld.queSeqSeq q.val) (b.bid.seq.toNat + 1)).headStep q.val f.entries).count unitGate 1 1).count unitTly 0 b.entries
  match f.fault with
  | none => u
  | some _ => u.park b.bid .stamping

/-- `ACCEPTANCE` (R66): while the twin mirrors, the entry goes to the twin first, and the batch is accepted once the twin's
copy is acknowledged. -/
def State.accept (s : State) (q : Que) : State :=
  match SMap.find s.fetched q.val with
  | none => s
  | some f =>
    if !f.stamped || s.halted .tly || s.flag Fld.twnStatusLent || decide (s.phase ≠ .up) then s
    else
      match f.tly with
      | some i => if f.mirrored || !s.mirrored then s.acceptNow q f i else s
      | none =>
        match s.tallyAlloc (needEntries (bytesLe f.raw 0 1)) with
        | none => s.tallyWait q.val
        | some i =>
          if s.mirrored then
            let b := s.newBatch q f i
            let t := (s.roomTaken q.val).twinSend (.entry (BitVec.ofNat 14 i) (b.entryBytes s.side))
            { t with fetched := SMap.put t.fetched q.val { f with tly := some i }, tallyPos := i + b.entries,
                     twin := { t.twin with waitAck := t.twin.waitAck ++ [BitVec.ofNat 14 i] } }
          else (s.roomTaken q.val).acceptNow q f i

/-- `ACCEPTANCE`. -/
def execAcceptance (q : Que) (s : State) : Res := .next ((s.checkPages [4]).accept q)

/-! ## Cancel and resume -/

/-- The batch that a host write is one of the flushes, slots or stores of. -/
def AckFor.batchOf : AckFor → Option Bid
  | .batch b | .store b _ _ => some b
  | .result _ _ _ | .completion _ | .fault | .free => none

/-- Every result of a batch is acknowledged (R74): its walkers are all done and nothing of it waits. -/
def State.allAcked (s : State) (x : Batch) : Bool :=
  decide (x.status.isSome) || (decide (0 < x.admitOrd) && decide (x.doneCount = x.desc.walkers) && !x.refit && !x.work
    && (!x.desc.packs || decide (x.nextRun * 64 ≥ x.desc.walkers))
    && s.hostWr.all (fun h => decide (h.fr.batchOf ≠ some x.bid)))

/-- One batch cancelled (R74), unless its results are all acknowledged. -/
def State.cancelBatch (s : State) (x : Batch) : State :=
  if s.allAcked x then s
  else ((s.abandon x.bid).updBatch x.bid (fun y => { y with stop := true, canceled := true, parkAt := none, st := if y.st = .parked then
      (if y.admitOrd = 0 then .accepted else .admitted) else y.st })).fixStatus x.bid 0x31 0

/-- `QUE_CANCEL` (R74). -/
def execQueCancel (q : Que) (s : State) : Res :=
  .next (s.guardWrite (pageReg .que q.val 0x064) (fun t =>
    let bs := t.unsealed q.val
    let u := bs.foldl (fun v x => (v.cancelBatch x).updBatch x.bid (fun y => { y with canceled := true })) t
    if bs = [] then u else { u with cancels := addNew u.cancels q.val }))

/-- A batch goes on from where it parked: its parked walkers become eligible for reload and its groups for replay (R73, R180, R264). -/
def State.goAgain (s : State) (x : Batch) : State :=
  let back : BState := match x.parkAt with
    | some .sealing => .completing
    | some .completion | some .walking | some .stamping | none => if x.admitOrd = 0 then .accepted else .admitted
  let u := s.updTally x.bid (fun y => { y with st := back, parkAt := none, again := false })
  let v := u.mapGroups (fun _ g => some (if g.bid = x.bid && decide (g.parked = some .fault) then { g with replay := true } else g))
  State.wantRound { v with walkers := v.walkers.map (fun w => if w.bid = x.bid then
    (match w.st with
     | .parked _ => { w with st := .parked true }
     | .entering | .queued | .inProgram | .inSquare _ | .inTransit | .spilled | .done => w) else w) }

/-- A parked batch resumed (R72, R374, R378): its reports are forgotten, it is stamped again from the start, and unless that faults it
goes on. While one of its records is still to be written (R334), a shootdown is in progress or the stamp store lacks room, the resume
waits (assumption log 79). -/
def State.resumeBatch (s : State) (x : Batch) : State :=
  let wait := s.updBatch x.bid (fun y => { y with again := true })
  if s.faults.any (fun f => decide (f.bid = x.bid)) || s.gate.shoot then wait
  else
    let s1 := { s with reports := s.reports.filter (fun r => decide (r.bid ≠ x.bid)) }
    match (if x.desc.check1.isSome || x.desc.check3.isSome then (s1, none) else s1.stampBatch x.bid x.desc) with
    | (t, some (c, a)) =>
      let u := t.xlateReport x.bid 0x00 c a noWalker none
      (u.updBatch x.bid (fun y => { y with parks := y.parks + 1, again := false })).status (0xC0 + x.bid.que.val) 1
    | (t, none) => if stampCap < t.stamps.length then wait else t.goAgain x

/-- The resumes that wait, made where they can be. -/
def State.resumeWaiting (s : State) (p : Batch → Bool) : State :=
  (s.batches.filter (fun x => x.again && decide (x.st = .parked) && p x)).foldl (fun t x => t.resumeBatch x) s

/-- Whether some group of a batch is parked for a trap (R264). -/
def State.trapParked (s : State) (b : Bid) : Bool :=
  s.dists.any (fun p => (SMap.vals p.2.core.parks ++ SMap.vals p.2.core.groups).any (fun g => decide (g.bid = b) && decide (g.parked = some .trap) && !g.replay))

/-- A batch that no group parks any more goes on (R264): none is parked for a trap, no report is open and no record of it is still to be
written (R334). One whose stamps a shootdown has withdrawn meanwhile is resumed, which stamps it again (R378). -/
def State.trapsOver (s : State) (b : Bid) : State :=
  match s.batch b with
  | none => s
  | some x =>
    if x.st ≠ .parked ∨ x.parkAt ≠ some .walking ∨ s.trapParked b || s.reports.any (fun r => decide (r.bid = b))
        || s.faults.any (fun f => decide (f.bid = b)) then s
    else if s.gate.shoot || s.stamps.any (fun e => decide (e.bid = b) && e.withdrawn) then s.resumeBatch x
    else s.goAgain x

/-- `STAMPING` (R71 step 4, R72): of the queue's fetched descriptor, and of its batches whose resume waits for room. -/
def execStamping (q : Que) (s : State) : Res :=
  let t := s.checkPages [1]
  .next ((t.resumeWaiting (fun x => decide (x.bid.que = q))).stampFetched q)

/-- `QUE_RESUME` (R72): every parked batch of the queue, the twin's held ones too (R430). -/
def execQueResume (q : Que) (s : State) : Res :=
  .next (s.guardWrite (pageReg .que q.val 0x060) (fun t =>
    (t.batches.filter (fun x => decide (x.bid.que = q) && decide (x.st = .parked))).foldl (fun u x => u.resumeBatch x) t))

end Sys2Proof.Machine
end

