-- ==== Sys2Proof/Machine/Plot.lean ====
section
/-! DEFINITION. What several families do to districts and batches: copies in the plot (R173, R195, R196), the top table
(R166 to R168), heap pools (R209), accounts (R382), held walkers (R178), and lost scene data (R348, R432, R435). -/

namespace Sys2Proof.Machine

/-! ## Copies -/

/-- The gather walkers queued at a district for a treelet placed again: they join a square or go in transit (R195,
R196). -/
def State.rejoin (s : State) (d tid : Nat) : State :=
  (s.walkers.filter (fun w => decide (w.dist = d) && decide (w.st = .queued) && decide (w.tid = some tid) && !s.stays w.bid)).foldl
    (fun t w => t.place w) s

/-- A plot slot taken out. -/
def State.freeSlot (s : State) (d k : Nat) : State := s.updDist d (fun x => { x with plot := SMap.del x.plot k })

/-- The square of a treelet marked as no longer loading. -/
def State.squareIdle (s : State) (d tid : Nat) : State :=
  s.updDist d (fun x => { x with squares := updAll (fun q => decide (q.tid = tid)) (fun q => { q with loading := false }) x.squares })

/-- A copy goes `DRAINING`, or a load is dropped (R195). Walkers not stepping on it go in transit or rejoin. -/
def State.drainSlot (s : State) (d k : Nat) : State :=
  match SMap.find (s.dist d).plot k with
  | none => s
  | some p =>
    match p.st with
    | .draining => s
    | .loading => (s.freeSlot d k).squareIdle d p.tid
    | .resident | .replicated =>
      (s.updDist d (fun x => { x with plot := SMap.put x.plot k { p with st := .draining } })).rejoin d p.tid

/-- Whether a district serves a treelet by an answer of the map (R155, R157, R165): `some true` as its owner, `some false` as a replica.
A lot owner serves the batches that a closed owner's replicas do not. -/
def State.servesBy (s : State) (d tid : Nat) (ans : Option (List Word)) : Option Bool :=
  let byLot := if s.lotOwner (tidLot tid) = some d then some true else none
  match ans with
  | none => byLot
  | some ws =>
    if entryOwner ws = d then some true
    else if d ∈ entryReps ws then some false
    else if s.isOpen (entryOwner ws) then none
    else byLot

/-- `PIN` of a treelet's entry at a district that it names (R161). -/
def pinAsked (d : Nat) (ans : Option (List Word)) : Bool :=
  match ans with
  | some ws => (ws.getD 2 0).getLsbD 1 && (decide (entryOwner ws = d) || decide (d ∈ entryReps ws))
  | none => false

/-- The slots that hold pinned treelets: the first 8 loaded of those whose entry asks for it (R161). -/
def State.pinnedSlots (s : State) (d : Nat) : List Nat :=
  ((sortBy (fun a b => decide (a.2.loaded < b.2.loaded)) ((s.dist d).plot.filter (fun p => p.2.pinned && decide (p.2.st ≠ .draining)))).take 8).map (·.1)

/-- A district's copy of a treelet brought into line with an answer of the map (R161, R195): drained where the district no longer serves
the treelet, else the owner's or a replica's, with the entry's `PIN`. -/
def State.reviewCopy (s : State) (d tid : Nat) (ans : Option (List Word)) : State :=
  match (s.dist d).plot.find? (fun p => decide (p.2.tid = tid) && decide (p.2.top = none)
      && (decide (p.2.st = .resident) || decide (p.2.st = .replicated))) with
  | none => s
  | some (k, p) =>
    match s.servesBy d tid ans with
    | none => s.drainSlot d k
    | some own => s.updDist d (fun x => { x with plot := SMap.put x.plot k { p with
        st := if own then .resident else .replicated, pinned := pinAsked d ans } })

/-- The copies of a treelet everywhere go `DRAINING`, and loads of it are dropped (R125, R195, R365). -/
def State.drainTid (s : State) (tid : Nat) : State :=
  s.dists.foldl (fun t x => (x.2.plot.filter (fun p => decide (p.2.tid = tid))).foldl (fun u p => u.drainSlot x.1 p.1) t) s

/-- The plot slots of a heap pool that hold chunks: the lowest ones (R209). -/
def heapSlots (used : Nat) : Nat := (used + 511) / 512

/-- Heap chunks in use in a district (R210). -/
def State.heapUsed (s : State) (d : Nat) : Nat := ((s.dist d).heaps.map (·.chunks)).foldl (· + ·) 0

/-- The heap pool of a district in chunks; `SLOTS` 9 to 15 act as 8 (R209, R210). -/
def State.heapPool (s : State) (d : Nat) : Nat := min 8 (s.rd (Fld.dstHeapCtlSlots d)) * 512

/-- The plot slots a load may take: not a heap slot in use, not reserved for an installed top entry (R167, R173,
R209). -/
def State.ordinarySlots (s : State) (d : Nat) : List Nat :=
  (List.range 16).filter (fun k => decide (heapSlots (s.heapUsed d) ≤ k) && !s.house.top.any (fun p => decide (15 - p.1 = k)))

/-- A district in its own Quiet wakes for a message or a run (R413). -/
def State.wakeDist (s : State) (d : Nat) : State :=
  if s.rd (Fld.dstRungCurrent d) = 1 then s.wr (Fld.dstRungCurrent d) 0 else s

/-! ## The top table -/

/-- The reserved slot of a top entry in an open district: another copy of the treelet and what else the slot holds drain first, then the
copy loads (R167, R195, R196). -/
def State.topLoad (s : State) (d k tid : Nat) : State :=
  if !s.isOpen d then s
  else
    let away := (s.dist d).plot.filter (fun p => (decide (p.1 = 15 - k) || decide (p.2.tid = tid)) && decide (p.2.top ≠ some k))
    let t := away.foldl (fun u p => u.drainSlot d p.1) s
    if (t.dist d).plot.all (fun p => decide (p.1 ≠ 15 - k) && decide (p.2.tid ≠ tid)) then
      t.updDist d (fun x => { x with plot := topSlots [(k, { tid := tid, used := true, cut := none })] x.plot })
    else t

/-- Every installed entry's copy asked for where a district lacks it. -/
def State.topLoads (s : State) (d : Nat) : State := s.house.top.foldl (fun t p => t.topLoad d p.1 p.2.tid) s

/-- A top entry installed (R166): in each open district its slot drains, and the copy is asked for. -/
def State.topInstall (s : State) (k tid : Nat) : State :=
  let t := { s with house := { s.house with top := SMap.put s.house.top k { tid := tid, used := true, cut := none } } }
  (allDists.filter t.isOpen).foldl (fun u d => u.topLoad d k tid) t

/-- An installed entry removed: its copies drain (R168). -/
def State.topRemove (s : State) (k : Nat) : State :=
  let t := { s with house := { s.house with top := SMap.del s.house.top k } }
  allDists.foldl (fun u d => match SMap.find (u.dist d).plot (15 - k) with
    | some p => if p.top = some k then u.drainSlot d (15 - k) else u
    | none => u) t

/-- Entries of the top table in force (R184). -/
def State.topLimit (s : State) : Nat := min 4 (s.rd Fld.chRouteCtlTopSlots)

/-- Whether an unsealed batch uses a top entry. -/
def State.topUsed (s : State) (k : Nat) : Bool := s.batches.any (fun x => decide (x.top = some k) && decide (x.st ≠ .isSealed))

/-- Entries at or above `TOP_SLOTS` serve no batch admitted from now on, and those that no unsealed batch uses are removed (R168). -/
def State.topSweep (s : State) : State :=
  let mark (p : Nat × TopEntry) : Nat × TopEntry :=
    (p.1, { p.2 with cut := if s.topLimit ≤ p.1 then some (p.2.cut.getD s.house.admits) else none })
  let t : State := { s with house := { s.house with top := s.house.top.map mark } }
  t.house.top.foldl (fun u p => if u.topLimit ≤ p.1 && !u.topUsed p.1 then u.topRemove p.1 else u) t

/-- The entry a batch with this root treelet uses, after R166 and R168. -/
def State.topChoose (s : State) (tid : Nat) : State × Option Nat :=
  match s.house.top.find? (fun p => decide (p.2.tid = tid)) with
  | some p => if p.1 < s.topLimit then (s, some p.1) else (s, none)
  | none =>
    match (List.range s.topLimit).find? (fun k => !s.topUsed k) with
    | some k => (s.topInstall k tid, some k)
    | none => (s, none)

/-! ## Debt -/

/-- −`CH_DEBT_LIMIT` in beads (R396). -/
def State.debtFloor (s : State) : Int := -((s.rd Fld.chDebtLimitLimit * 1024 : Nat) : Int)

/-- Whether a class refuses on debt (R392). -/
def State.classRefuse (s : State) (c : Nat) : Bool := s.flag ⟨0x03074 + 4 * c, 31, 31⟩

/-- Whether the tenant or the class of a batch lies below −`CH_DEBT_LIMIT`. -/
def State.inDebt (s : State) (ten cls : Nat) : Bool :=
  decide ((s.account false ten).bal < s.debtFloor) || decide ((s.account true cls).bal < s.debtFloor)

/-! ## Held walkers -/

/-- Walkers that are held (R178). -/
def State.heldWalkers (s : State) : List Walker := s.walkers.filter (fun w => decide (w.st ≠ .done))

/-- Held walkers of classes 1 to 3 (R397). -/
def State.heldLower (s : State) : Nat := (s.heldWalkers.filter (fun w => !w.express)).length

/-- The most walkers that may be held. -/
def heldMax : Nat := 524288

/-! ## Lost scene data -/

/-- A batch's scene data is lost (R348, R432, R435). Where the region read (at `a`, if it is known) has `MIRROR` = 1 and
the pair is live, an engine keeps a batch of its own for `HANDOFF`; any other batch stops and completes `SCENE_LOST`. -/
def State.sceneLost (s : State) (b : Bid) (a : Option Nat) : State :=
  match s.batch b with
  | none => s
  | some x =>
    let mirrored := match a.bind (regionAt x.regions) with
      | some r => r.mirror
      | none => false
    if x.status.isSome then s
    else if s.paired && !b.held && mirrored then
      if b ∈ s.twin.handWait then s
      else State.updBatch { s.abandon b with twin := { s.twin with handWait := s.twin.handWait ++ [b] } } b (fun y => { y with stop := true })
    else (State.updBatch (s.abandon b) b (fun y => { y with stop := true })).fixStatus b 0x30 0

end Sys2Proof.Machine
end

