-- ==== Sys2Proof/Machine/Admission.lean ====
section
/-! DEFINITION. The Counting House: checks (R58), admission rounds (R389 to R394), dealing (R21, R211, R397), grants and
balances (R383 to R385), meters (R379 to R381) and dimming (R395). -/

namespace Sys2Proof.Machine

/-! ## Checks -/

/-- `TENANT_LOCK` and `TENANT` of a batch's queue (R43, R430). -/
def State.queLock (s : State) (b : Bid) : Bool × Nat :=
  let w := (s.queRec b).classTenant
  (w.getLsbD 16, field w 11 0)

/-- What the checks of R58 make of a batch. -/
inductive Judge where
  | pass
  /-- The first failing check's status and `CRCODE` (R329). -/
  | refuse (status crcode : Nat)
  /-- The region table could not be read (R348), or a held batch's root is not mirrored (R435). -/
  | lost
  deriving DecidableEq, Repr

/-- Chunks of one query record (R209): its `QFMT` with the index's dimensions. -/
def recChunks (k dim : Nat) (qrec : List Byte) : Nat := heapChunks k (queryBytes (bytesLe qrec 8 1) dim)

/-- `IX_DIM` of the index header at a root (R114). -/
def State.ixDim (s : State) (root : Nat) : Nat := ((s.sceneByte root).toNat + 256 * (s.sceneByte (root + 1)).toNat) % 65536

/-- The chunks of the largest probe of a batch (R209, R211), from its query records (R197). -/
def State.batchChunks (s : State) (x : Batch) : Nat :=
  let dim := s.ixDim (x.desc.root / 64 * 64)
  let recs := (s.stampRead x.bid x.desc.inAddr (x.desc.count * 16)).getD []
  ((List.range x.desc.count).map (fun i => recChunks x.desc.k dim ((recs.drop (16 * i)).take 16))).foldl max (heapChunks x.desc.k 0)

/-- Checks 1 to 4 of R58, with the check of R211, in order. Checks 2 and 4 read the tenant's entry and its region table. -/
def State.judge (s : State) (x : Batch) : State × Judge :=
  match x.desc.check1 with
  | some c => (s, .refuse 0x13 c)
  | none =>
    let s1 := s.tenParity x.tenant
    if s.tenFails x.tenant || !s.tenEnabled x.tenant then (s1, .refuse 0x10 0x20)
    else if (s.queLock x.bid).1 && decide (x.desc.tenant ≠ (s.queLock x.bid).2) then (s1, .refuse 0x10 0x21)
    else
      match x.desc.check3 with
      | some c => (s1, .refuse 0x12 c)
      | none =>
        match s1.readRegions x.tenant with
        | (t, _, true) => (t, .lost)
        | (t, rs, false) =>
          match regionAt rs x.desc.root with
          | none => (t, .refuse 0x14 0x30)
          | some r =>
            if x.desc.isRefit && !r.write then (t, .refuse 0x14 0x31)
            else if x.bid.held && !r.mirror then (t, .lost)
            else if x.desc.isProbe && decide (x.desc.count ≠ 0) &&
                allDists.all (fun d => !t.isOpen d || decide (t.heapPool d < 64 * t.batchChunks x)) then (t, .refuse 0x12 0x12)
            else (t, .pass)

/-! ## Candidates -/

/-- A `MAINT` or `REFIT` batch (R60). -/
def Batch.barrier (x : Batch) : Bool := x.desc.isMaint || x.desc.isRefit

/-- The unsealed batches of the same queue accepted earlier. -/
def State.earlier (s : State) (x : Batch) : List Batch :=
  s.batches.filter (fun y => decide (y.bid.que = x.bid.que) && decide (y.bid.held = x.bid.held) && decide (y.st ≠ .isSealed)
    && decide (y.acceptOrd < x.acceptOrd))

/-- Held back by the barrier of R60. -/
def State.barred (s : State) (x : Batch) : Bool :=
  if x.barrier then decide (s.earlier x ≠ []) else (s.earlier x).any Batch.barrier

/-- A batch that still waits for step 6 of R71. -/
def Batch.unadmitted (x : Batch) : Bool :=
  decide (x.admitOrd = 0) && decide (x.status = none) && decide (x.st = .accepted) && !x.handed && !x.stop

/-- One batch judged: a refusal is fixed and counted, lost data is handled, a pass is noted. -/
def State.checkOne (s : State) (b : Bid) : State :=
  match s.batch b with
  | none => s
  | some x =>
    match s.judge x with
    | (t, .pass) => t.updBatch b (fun y => { y with checked := true })
    | (t, .refuse st c) => ((t.updBatch b (fun y => { y with checked := false })).fixStatus b st c).count unitCh 4 1
    | (t, .lost) => (t.updBatch b (fun y => { y with checked := false })).sceneLost b none

/-- Every batch that may be judged now is (R58, R60). -/
def State.checkAll (s : State) : State :=
  ((s.batches.filter (fun x => x.unadmitted && !s.barred x)).map (·.bid)).foldl (fun t b => t.checkOne b) s

/-- The candidates of R390: one for each queue and side. -/
def State.candidates (s : State) : List Batch :=
  let may := s.batches.filter (fun x => x.unadmitted && x.checked && !s.barred x)
  may.filter (fun x => may.all (fun y => !(decide (y.bid.que = x.bid.que) && decide (y.bid.held = x.bid.held)
    && decide (y.acceptOrd < x.acceptOrd))))

/-- The estimate of a batch in beads (R388). -/
def State.estimate (s : State) (x : Batch) : Nat :=
  if x.desc.isMaint then 0 else (s.rd (Fld.queEstEst x.bid.que.val) * x.desc.count + 255) / 256

/-- R391, and the second sentence of R392. -/
def State.admissible (s : State) (x : Batch) : Bool :=
  let e : Int := ((s.estimate x : Nat) : Int)
  let room (a : Account) : Bool := decide (e ≤ a.bal - a.cmt)
  (decide (e = 0) || (room (s.account false x.tenant) && room (s.account true x.cls)))
    && (decide (x.desc.walkers = 0) || (s.flag Fld.chLedgerBaseEn && (!x.desc.packs || s.flag Fld.chPackBaseEn)))
    && !s.inDebt x.tenant x.cls

/-- The candidates R392 refuses. -/
def State.refuseDebt (s : State) : State :=
  (s.candidates.filter (fun x => s.classRefuse x.cls && s.inDebt x.tenant x.cls)).foldl
    (fun t x => (t.fixStatus x.bid 0x11 0x40).count unitCh 4 1) s

/-! ## Deficit sharing -/

/-- D[t][c]. -/
def State.deficit (s : State) (t c : Nat) : Int := SMap.get 0 s.house.deficit (t * 4 + c)

/-- D[t][c] set. -/
def State.setDeficit (s : State) (t c : Nat) (v : Int) : State :=
  { s with house := { s.house with deficit := SMap.set 0 s.house.deficit (t * 4 + c) v } }

/-- A tenant's place in rotation order after ROT[c]. -/
def State.rotKey (s : State) (c t : Nat) : Nat := (t + 4096 - SMap.get 0 s.house.rot c - 1) % 4096

/-- ⌈a ÷ b⌉ for a positive b, of a negative a 0. -/
def ceilDiv (a : Int) (b : Nat) : Nat := (a.toNat + b - 1) / b

/-- First candidates of a class that are admissible: of each tenant the one accepted earliest (R390). -/
def State.firsts (s : State) (c : Nat) : List Batch :=
  let cs := s.candidates.filter (fun x => decide (x.cls = c))
  (cs.filter (fun x => cs.all (fun y => !(decide (y.tenant = x.tenant) && decide (y.acceptOrd < x.acceptOrd))))).filter s.admissible

/-- The tenant's batch a pass of R393 takes, with the deficits after it. -/
def State.pickTenant (s : State) (c : Nat) : Option (State × Batch) :=
  let ts := s.firsts c
  let p := ts.filter (fun x => decide (0 < s.tenWeight x.tenant))
  let rot (x : Batch) : Nat := s.rotKey c x.tenant
  let quantum := s.rd Fld.chQuantumQuantum
  if p = [] then (leastBy rot ts).map (fun x => (s, x))
  else if quantum = 0 then (leastBy rot p).map (fun x => (s, x))
  else
    let need (x : Batch) : Nat :=
      ceilDiv (((s.estimate x : Nat) : Int) - s.deficit x.tenant c) (s.tenWeight x.tenant * quantum)
    match leastBy (fun x => need x * 4096 + rot x) p with
    | none => none
    | some x =>
      let k := need x
      let s1 := p.foldl (fun (t : State) y => t.setDeficit y.tenant c (t.deficit y.tenant c + ((k * (s.tenWeight y.tenant * quantum) : Nat) : Int))) s
      some (s1.setDeficit x.tenant c (s1.deficit x.tenant c - ((s.estimate x : Nat) : Int)), x)

/-! ## Admission -/

/-- +0 written into every word of an accumulating batch's slots (R317); `none` while a stamp is withdrawn (R377). -/
def State.zeroSlots (s : State) (x : Batch) : Option State :=
  s.stampWrite x.bid (x.desc.slotAddr / 16 * 16) (zeroBytes (x.desc.count * 16)) (.batch x.bid)

/-- The slots zeroed once they can be (R317, R377, R427). -/
def State.zeroReady (s : State) (b : Bid) : State :=
  match s.batch b with
  | none => s
  | some x =>
    if x.zeroed || !x.desc.accum || decide (x.desc.count = 0) then s
    else if !s.mayWrite b then s
    else
      match s.zeroSlots x with
      | some t => t.updBatch b (fun y => { y with zeroed := true })
      | none => s

/-- The mode of a batch (R183; completion records of batches without walkers carry 0). -/
def State.chooseMode (s : State) (x : Batch) (rs : List Region) : Nat :=
  if x.desc.isMaint || decide (x.desc.count = 0) then 0
  else if x.desc.isRefit then 1
  else if x.desc.modeF ≠ 0 then x.desc.modeF
  else if x.desc.count < s.rd Fld.chRouteCtlStayWalkers then 1
  else
    match regionAt rs x.desc.root with
    | some r => if r.size < s.rd Fld.chRouteCtlStayGranules then 1 else 2
    | none => 2

/-- A batch admitted (R82, R166, R183, R317, R382). -/
def State.admitBatch (s : State) (x : Batch) : State :=
  let rr := s.readRegions x.tenant
  let e := s.estimate x
  let s1 := rr.1.commit x.tenant x.cls ((e : Nat) : Int)
  let walks := (x.desc.raylike || x.desc.isProbe) && decide (x.desc.count ≠ 0)
  let s2 := if walks then s1.topChoose (x.desc.root / 65536) else (s1, none)
  let n := s2.1.house.admits + 1
  let s3 : State := { s2.1 with house := { s2.1.house with admits := n } }
  let s4 := s3.updTally x.bid (fun y => { y with
    st := .admitted, regions := rr.2.1, est := e, cmtLeft := e, mode := s3.chooseMode x rr.2.1, top := s2.2, admitOrd := n,
    work := x.desc.isMaint, refit := x.desc.isRefit && decide (x.desc.count ≠ 0) })
  (s4.count unitCh 2 1).zeroReady x.bid

/-- The loop of R393 for one class; `fuel` bounds the admissions. -/
def State.classLoop (s : State) (c : Nat) : (fuel : Nat) → State
  | 0 => s
  | k + 1 =>
    match s.pickTenant c with
    | none => s
    | some (t, x) =>
      let u := t.admitBatch x
      State.classLoop { u with house := { u.house with rot := SMap.set 0 u.house.rot c x.tenant } } c k

/-- Candidates left over count a deferral (R394). -/
def State.defer (s : State) : State :=
  s.candidates.foldl (fun t x => (t.updTally x.bid (fun y => { y with cdefer := y.cdefer + 1 })).count unitCh 3 1) s

/-- Deficits of tenants without a candidate of a class return to 0 (R393). -/
def State.resetDeficits (s : State) : State :=
  let cs := s.candidates
  { s with house := { s.house with deficit := s.house.deficit.filter (fun p =>
      cs.any (fun x => decide (x.tenant = p.1 / 4) && decide (x.cls = p.1 % 4))) } }

/-- One admission round (R389, R393): it runs when one is wanted and the Counting House is not halted (R473). -/
def State.round (s : State) : State :=
  if !s.house.wanted || !s.running || s.halted .ch then s
  else
    let s0 : State := State.count { s with house := { s.house with wanted := false } } unitCh 1 1
    let s1 := s0.checkAll.refuseDebt
    let n := s1.batches.length
    ((List.range 4).foldl (fun t c => t.classLoop c n) s1).defer.resetDeficits

/-- `ADMISSION_ROUND` (R393). -/
def execAdmissionRound (s : State) : Res := .next (s.checkPages [3]).round

/-! ## Dealing -/

/-- What a probe carries before its record is read. -/
def ProbeRec.fresh (d : Nat) : ProbeRec :=
  { home := d, qoff := 0, qfmt := 0, qscale := 0, query := [], tau := inf32, sent := 0, visits := 0, dim := 0, dist := 0, iscale := 0, seen := [] }

/-- A walker as dealt: its record still to be read (R194). -/
def Walker.fresh (x : Batch) (idx run gen d ord : Nat) : Walker :=
  { bid := x.bid, idx := idx, run := run, gen := gen, cls := x.cls, dist := d, st := .entering, ord := ord, epoch := 0, dest := d,
    ray := Ray.none, ctxs := [], work := [], best := none, cand := none, contrib := false, part := [], stage := .none, hits := 0,
    regv := false,
    probe := if x.desc.isProbe then some (ProbeRec.fresh d) else none,
    upd := [], pat := 0, sqAt := none, place := none, offered := [] }

/-- A walker in its slot with its record still to be read (R194). -/
def State.entering (s : State) (w : Walker) : State := (s.setWalker { w with st := .entering, ord := s.clock }).tick

/-- A walker dealt or emitted to a district's queue (R11, R21, R22), which spills it where it is full (R13, R179). -/
def State.enterWalker (s : State) (w : Walker) : State :=
  State.arrive { s with walkers := s.walkers ++ [{ w with st := .inTransit }] } w State.entering

/-- The district whose core takes a district's invocations: its own, or with that core failed or the district closed by a
fault the nearest open one whose core works (R438). -/
def State.coreFor (s : State) (d : Nat) : Nat :=
  if !(s.dist d).core.failed then d
  else match leastBy (fun e => s.hops d e * 128 + e) (allDists.filter (fun e => s.isOpen e && !(s.dist e).core.failed)) with
    | some e => e
    | none => d

/-- An invocation put into the waiting list of a core (R218). -/
def State.invoke (s : State) (d : Nat) (i : Invocation) : State :=
  s.updDist (s.coreFor d) (fun x => { x with core := { x.core with waiting := x.core.waiting ++ [i] } })

/-- A hit with nothing in it, for invocations that have none. -/
def Hit.none : Hit :=
  { t := 0, prim := 0, inst := 0, iuser := 0, kind := 0, b1 := 0, b2 := 0, front := false, recA := 0, luser := 0, ctx := 0,
    fl := { opq := false, noAnyhit := false, noCull := false } }

/-- The first index of a batch not yet dealt, if dealing goes on for it (R72, R74, R88, R264). -/
def State.dealable (s : State) (x : Batch) : Bool :=
  decide (x.st = .admitted) && decide (0 < x.admitOrd) && decide (x.status = none) && !x.stop && !x.handed && decide (x.nextIdx < x.desc.walkers)
    && !s.trapParked x.bid

/-- The batch whose run is dealt next: class order, then order of admission (R397). -/
def State.nextBatch (s : State) : Option Batch :=
  leastBy (fun x => x.cls * 2 ^ 64 + x.admitOrd) (s.batches.filter s.dealable)

/-- The Express reserve in walkers (R397); CTL0's `RESERVE` above 128 acts as 128. -/
def State.reserve (s : State) : Nat := min 128 (s.rd Fld.chClassCtl0Reserve) * 4096

/-- Whether the held count allows a run of `n` walkers of a class (R178, R397). -/
def State.heldRoom (s : State) (cls n : Nat) : Bool :=
  decide (s.heldWalkers.length + n ≤ heldMax) &&
    (decide (cls = 0) || decide (s.heldLower + 64 ≤ heldMax - s.reserve))

/-- The districts R21 deals to, in dealing order. -/
def State.dealOrder (s : State) : List Nat :=
  ((List.range 128).map (fun i => (s.house.lastDist + 1 + i) % 128)).filter (fun d => s.isOpen d && !s.masked d)

/-- The slots of a heap pool that a run would use, drained of treelets first (R209). -/
def State.heapClear (s : State) (d need : Nat) : State × Bool :=
  let ks := List.range (heapSlots (s.heapUsed d + need))
  let full := ks.filter (fun k => (SMap.find (s.dist d).plot k).isSome)
  if full = [] then (s, true) else (full.foldl (fun t k => t.drainSlot d k) s, false)

/-- The ledger entry of a run (R190), in its place. -/
def LedgerRun.fresh (b : Bid) (run d n place : Nat) : LedgerRun :=
  { bid := b, run := run, dist := d, dealt := BitVec.ofNat 64 (2 ^ n - 1), done := 0, hit := 0, pack := [], place := place }

/-- The scene address of an entry of the run ledger (R190). -/
def State.ledgerAt (s : State) (k : Nat) : Nat := s.rd Fld.chLedgerBaseBase * 65536 + 32 * k

/-- A run entered in the ledger (R190). -/
def State.ledgerNew (s : State) (b : Bid) (run d n : Nat) : State :=
  let k := placeIn 16384 (s.house.ledger.map (·.place))
  State.recordPut { s with house := { s.house with ledger := s.house.ledger ++ [LedgerRun.fresh b run d n k] } } streamGate (s.ledgerAt k) 32

/-- A run's entry read, changed by `f` and written back (R190); poisoned, it is lost scene data (R348; DEDUCED, assumption log 81). -/
def State.ledgerUpd (s : State) (b : Bid) (run : Nat) (f : LedgerRun → LedgerRun) : State :=
  let own (l : LedgerRun) : Bool := decide (l.bid = b) && decide (l.run = run)
  match s.house.ledger.find? own with
  | none => s
  | some l =>
    let t := s.recordGet streamGate (s.ledgerAt l.place) 32
    if t.2 then t.1.sceneLost b none
    else State.recordPut { t.1 with house := { t.1.house with ledger := updFirst own f t.1.house.ledger } } streamGate (t.1.ledgerAt l.place) 32

/-- An empty tally heap (R203). -/
def Heap.fresh (b : Bid) (i gen h : Nat) : Heap :=
  { bid := b, idx := i, gen := gen, chunks := h, ents := [], got := 0, total := none, visits := 0, rerank := false }

/-- Walker `i` of a run dealt to a district, or its `GENERATE` invocation (R21, R219). Probes take their chunks (R211). -/
def State.dealOne (s : State) (x : Batch) (d run i : Nat) (recs : List Byte) (dim : Nat) : State :=
  if x.desc.isGen then
    s.invoke d { entry := 4, prog := x.desc.progMain, bid := x.bid, idx := i, gen := 0, cls := x.cls, hit := Hit.none }
  else
    let t := s.enterWalker (Walker.fresh x i run 0 d s.clock)
    if x.desc.isProbe then
      let h := Heap.fresh x.bid i 0 (recChunks x.desc.k dim ((recs.drop (16 * (i % 64))).take 16))
      t.updDist d (fun y => { y with heaps := y.heaps ++ [h] })
    else t

/-- A run dealt to a district (R21): the ledger entry, then its walkers. -/
def State.dealRunTo (s : State) (x : Batch) (d : Nat) : State :=
  let run := x.nextIdx / 64
  let n := min 64 (x.desc.walkers - x.nextIdx)
  let recs := if x.desc.isProbe then (s.stampRead x.bid (x.desc.inAddr + 16 * x.nextIdx) (16 * n)).getD [] else []
  let dim := s.ixDim (x.desc.root / 64 * 64)
  let s0 := s.ledgerNew x.bid run d n
  let s1 := State.updBatch { s0 with house := { s0.house with lastDist := d } } x.bid (fun y => { y with nextIdx := y.nextIdx + n })
  let s2 := (List.range n).foldl (fun t i => t.dealOne x d run (x.nextIdx + i) recs dim) s1
  (s2.count unitCh 5 1).wakeDist d

/-- A run dealt, once ledger, slots and heap room allow (R21, R190, R211, R397). -/
def State.deal (s : State) : State :=
  if !s.running then s
  else
    match s.nextBatch with
    | none => s
    | some x0 =>
      let s0 := s.zeroReady x0.bid
      match s0.batch x0.bid with
      | none => s0
      | some x =>
        let n := min 64 (x.desc.walkers - x.nextIdx)
        if decide (x.st ≠ .admitted) || (x.desc.accum && !x.zeroed) then s0
        else if 16384 ≤ s0.house.ledger.length then s0.status 3 2
        else if !s0.heldRoom x.cls n then s0
        else if x.desc.isProbe then
          let need := 64 * s0.batchChunks x
          match s0.dealOrder.find? (fun d => decide (s0.heapUsed d + need ≤ s0.heapPool d)) with
          | none => s0
          | some d =>
            match s0.heapClear d need with
            | (t, true) => t.dealRunTo x d
            | (t, false) => t
        else
          match s0.dealOrder with
          | [] => s0
          | d :: _ => s0.dealRunTo x d

/-- `DEAL_RUN` (R21). -/
def execDealRun (s : State) : Res := .next s.deal

/-! ## Grants -/

/-- A grant applied (R383, R384), by the account its command names: a class in [1:0], or a tenant. -/
def State.grant (s : State) (cls set : Bool) (index : Nat) : State :=
  let i := if cls then index % 4 else index
  let amt : Int := ((s.rd Fld.chGrantAmtAmt * 1024 : Nat) : Int)
  let a := s.account cls i
  (s.setAccount cls i { a with bal := sat48 (if set then amt else a.bal + amt) }).wantRound

/-- A grant command written to `CH_GRANT_CMD` with `GO` (R383), not applied while the page is halted (R473). -/
def State.grantCmd (s : State) (kind set : Bool) (index : Nat) : State :=
  s.guardWrite 0x03054 (fun t =>
    let u := t.hostSet 0x03054 (BitVec.ofNat 32 (b2n set * 2 ^ 30 + b2n kind * 2 ^ 29 + index))
    if u.halted .ch then u.parityCheck 3 else u.grant kind set index)

/-- `GRANT_ADD` (R383). -/
def execGrantAdd (kind : Bool) (index : BitVec 12) (s : State) : Res := .next (s.grantCmd kind false index.toNat)

/-- `GRANT_SET` (R383). -/
def execGrantSet (kind : Bool) (index : BitVec 12) (s : State) : Res := .next (s.grantCmd kind true index.toNat)

/-! ## Meters and dimming -/

/-- The voltage code for a number of dimming steps (R400, R402): codes above 70 act as 70. -/
def State.voltCode (s : State) (dim : Nat) : Nat :=
  let c (n : Nat) : Nat := min 70 n
  let target := c (s.rd Fld.pwrVsetTarget)
  if s.halted .pwr then s.rd Fld.pwrVstatusAcked
  else if 2 ≤ s.rd Fld.blkRungCurrent then 0
  else min target (max (c (s.rd Fld.pwrVsetVmin)) (target - dim * s.rd Fld.pwrVsetStep))

/-- Whether dimming may lower the request (R395, R400). -/
def State.canFall (s : State) : Bool :=
  decide (s.voltCode (s.rd Fld.pwrVstatusDim + 1) < s.voltCode (s.rd Fld.pwrVstatusDim)) && decide (s.rd Fld.pwrVstatusDim < 255)

/-- One dimming step (R395): a step of voltage, or one more masked row; which of the two, if either. -/
def State.dimStep (s : State) : State × Option Bool :=
  let first := s.rd Fld.pwrVstatusDim = 0 ∧ s.rd Fld.pwrVstatusRowsMasked = 0
  let note (t : State) : State := if first then (t.count unitCh 8 1).status 3 1 else t.count unitCh 8 1
  if s.canFall then (note (s.wr Fld.pwrVstatusDim (s.rd Fld.pwrVstatusDim + 1)), some true)
  else if s.rd Fld.pwrVstatusRowsMasked < 7 then
    (note (s.wr Fld.pwrVstatusRowsMasked (s.rd Fld.pwrVstatusRowsMasked + 1)), some false)
  else (s, none)

/-- Whether some admitted, unsealed batch of a class that does not refuse is charged to an account below the limit (R395). -/
def State.dimNeeded (s : State) : Bool :=
  s.batches.any (fun x => decide (0 < x.admitOrd) && decide (x.st ≠ .isSealed) && !x.handed && !s.classRefuse x.cls && s.inDebt x.tenant x.cls)

/-- The debt detector's report (R504). -/
def State.debtReport (s : State) : State := (s.report (some (3, 0)) (some 16) unitCh none).wantRound

/-- A charge to one account (R382): the detector reports as the balance falls below the limit. -/
def State.chargeOne (s : State) (cls : Bool) (i n : Nat) (left : Nat) : State :=
  let a := s.account cls i
  let b := sat48 (a.bal - ((n : Nat) : Int))
  let t := s.setAccount cls i { bal := b, cmt := sat48 (a.cmt - ((min n left : Nat) : Int)) }
  if decide (s.debtFloor ≤ a.bal) && decide (b < s.debtFloor) then t.debtReport else t

/-- A batch charged `n` units of 1/256 bead (R379, R381, R382): whole beads lower both accounts, and both commitments down to what is
left of the estimate. -/
def State.charge (s : State) (x : Batch) (n : Nat) : State :=
  let k := (x.frac + n) / 256
  let t := (s.chargeOne false x.tenant k x.cmtLeft).chargeOne true x.cls k x.cmtLeft
  t.updTally x.bid (fun y => { y with beads := y.beads + k, frac := (x.frac + n) % 256, cmtLeft := y.cmtLeft - k })

/-- The step an injected debt took is undone (R510). -/
def State.undoDim (s : State) : State :=
  let t : State := { s with house := { s.house with undo := none } }
  match s.house.undo with
  | none => s
  | some true => t.wr Fld.pwrVstatusDim (t.rd Fld.pwrVstatusDim - 1)
  | some false => t.wr Fld.pwrVstatusRowsMasked (t.rd Fld.pwrVstatusRowsMasked - 1)

/-- The `DEBT` arm on a charge of a batch (R510): reported as debt, and dimmed for unless its class refuses. -/
def State.debtArm (s : State) (x : Batch) : State :=
  if s.armed Fld.chInjectDebt then
    let t := (s.disarm Fld.chInjectDebt).debtReport
    if s.classRefuse x.cls then t
    else
      let r := t.dimStep
      { r.1 with house := { r.1.house with undo := r.2 } }
  else s

/-- A dimming step at a report, or one unmasked row (R395). -/
def State.dimReport (s : State) : State :=
  if s.dimNeeded then s.dimStep.1
  else if s.rd Fld.pwrVstatusRowsMasked ≠ 0 then s.wr Fld.pwrVstatusRowsMasked (s.rd Fld.pwrVstatusRowsMasked - 1)
  else s

/-- The unit and counter of a meter (R379, R497). -/
def meterUnit : Meter → Nat
  | .district d => d.val
  | .stackPort p => unitStk p.val
  | .strip => unitCh

/-- The voltage code that meters multiply by (R401): the acknowledged one or, while a request is outstanding, the higher of it and the
requested one. -/
def State.meterCode (s : State) : Nat :=
  let a := s.rd Fld.pwrVstatusAcked
  if s.flag Fld.pwrVstatusPending then max a (s.rd Fld.pwrVstatusRequest) else a

/-- The energy of a charge in units of 1/256 bead at the present supply, 0.55 V + code × 5 mV (R379, R399, R401), with the remainder
that the meter carries. -/
def State.meterEnergy (s : State) (m : Meter) (charge : Nat) : Nat × Nat :=
  let e := charge * (550 + 5 * s.meterCode) + SMap.get 0 s.house.rems (meterUnit m)
  (e / 1000, e % 1000)

/-- The accounts that a charge of a batch lowers: a batch accepted, or one that has retired (R381). -/
def State.chargeTo (s : State) (b : Option Bid) (n : Nat) : State :=
  match b with
  | none => s.dimReport
  | some b =>
    match s.batch b with
    | some x =>
      let t := (s.charge x n).debtArm x
      if t.house.undo.isSome then t else t.dimReport
    | none =>
      match s.house.gone.find? (fun g => decide (g.1 = b)) with
      | some (_, ten, cls, frac) =>
        let k := (frac + n) / 256
        let t := (s.chargeOne false ten k 0).chargeOne true cls k 0
        let keep : State := { t with house := { t.house with
          gone := updFirst (fun g => decide (g.1 = b)) (fun _ => (b, ten, cls, (frac + n) % 256)) t.house.gone } }
        keep.dimReport
      | none => s.dimReport

/-- The charges of a meter reported to the Counting House, at least once per 4,096 beads (R380). -/
def State.meterReports (s : State) (m : Meter) (b : Option Bid) (n : Nat) : Nat → State
  | 0 => s
  | k + 1 =>
    let part := min n 1048576
    let t := ((s.count (meterUnit m) 0 part).undoDim).chargeTo b part
    if n = part then t else t.meterReports m b (n - part) k

/-- A meter's charge counted and reported (R379 to R381). -/
def State.meter (s : State) (m : Meter) (charge : Nat) (b : Option Bid) : State :=
  let e := s.meterEnergy m charge
  State.meterReports { s with house := { s.house with rems := SMap.set 0 s.house.rems (meterUnit m) e.2 } } m b e.1 (e.1 / 1048576 + 1)

/-- `METER_REPORT` (R380). -/
def execMeterReport (m : Meter) (charge : Nat) (b : Option Bid) (s : State) : Res := .next (s.meter m charge b)

end Sys2Proof.Machine
end

