-- ==== Sys2Proof/Machine/Boxes.lean ====
section
/-! DEFINITION. Traversal arithmetic: carried rays (R128 to R130), the box test (R132), instance transforms (R139, R141),
the triangle test (R144, R145) and UNORM16 (R148). -/

namespace Sys2Proof.Machine

/-- The larger and the smaller of two values that are not NaN. -/
def Fp.maxF (a b : Fp) : Fp := if a.lt b then b else a
def Fp.minF (a b : Fp) : Fp := if b.lt a then b else a

/-! ## Carried rays -/

/-- The carried origin L + org_L on an axis (R128). -/
def Carry.origin (c : Carry) (a : Nat) : Q := (v32 (c.l.at a)).add (v32 (c.org.at a))

/-- The carried direction on an axis. -/
def Carry.dirAt (c : Carry) (a : Nat) : Q := v32 (c.d.at a)

/-- The top-level carried ray of a v1 or v2 ray (R129). -/
def topCarryShort (r : Ray) : Carry :=
  let w (x : BitVec 64) : Word := x.setWidth 32
  { l := V3.zero, org := { x := w r.ox, y := w r.oy, z := w r.oz }, d := r.dir, inst := none }

/-- The top-level carried ray of a long ray, from the root's frame origin (R129); `none` where a component of org_L
rounds beyond the largest finite FP32 (R64). -/
def topCarryLong (r : Ray) (l : V3) : Option Carry :=
  let o (a : Nat) : Word := rn32 ((r.origin a).val.sub (v32 (l.at a)))
  if (List.range 3).all (fun a => (f32 (o a)).isFin) then
    some { l := l, org := { x := o 0, y := o 1, z := o 2 }, d := r.dir, inst := none }
  else none

/-! ## The box test -/

/-- The reference box test (R132) of faces `lo`, `hi` by axis, for a carried ray and t-interval. -/
def boxTest (c : Carry) (tmin tlim : Fp) (lo hi : Nat → Q) : Bool :=
  let r := (List.range 3).foldl (fun (acc : Option (Fp × Fp)) a =>
    match acc with
    | none => none
    | some (tn, tf) =>
      let d := c.dirAt a
      let o := c.origin a
      if d.isZero then (if o.lt (lo a) || (hi a).lt o then none else some (tn, tf))
      else
        let pn := if d.isNeg then hi a else lo a
        let pf := if d.isNeg then lo a else hi a
        some (tn.maxF (.fin (rd24 ((pn.sub o).div d))), tf.minF (.fin (ru24 ((pf.sub o).div d))))) (some (tmin, tlim))
  match r with
  | none => false
  | some (tn, tf) => tn.le tf

/-- The test of a child's decoded box (R98, R99, R133). -/
def childTest (c : Carry) (tmin tlim : Fp) (bs : List Byte) (view : Bool) (k : Nat) : Bool :=
  !childBoxEmpty bs k && boxTest c tmin tlim (fun a => (childFace bs view k a).1) (fun a => (childFace bs view k a).2)

/-- The test of a box of six FP32 faces. -/
def facesTest (c : Carry) (tmin tlim : Fp) (b : V3 × V3) : Bool :=
  boxTest c tmin tlim (fun a => v32 (b.1.at a)) (fun a => v32 (b.2.at a))

/-! ## Instances -/

/-- A value rounded into FP64 (R139). -/
def r64 (x : Fp) : Fp := fmt64.read (fmt64.write x)

/-- A row of a transform applied: the first three columns, each operation rounded. -/
def rowApply (bs : List Byte) (row : Nat) (w : Nat → Fp) : Fp :=
  let m (b : Nat) : Fp := fmt64.read (xformAt bs row b)
  let p (b : Nat) : Fp := r64 ((m b).mul (w b))
  r64 ((r64 ((p 0).add (p 1))).add (p 2))

/-- A ray taken into an instance's object space (R139), by its record's transform; `none` in the cases of R141 that do not depend on the
root. -/
def objRay (r : Ray) (bs : List Byte) : Option ObjRay :=
  let oo (a : Nat) : BitVec 64 := BitVec.ofNat 64 (fmt64.write ((rowApply bs a r.origin).add (fmt64.read (xformAt bs a 3))))
  let dd (a : Nat) : Fp := rowApply bs a (fun b => f32 (r.dir.at b))
  let d (a : Nat) : Word := rn32 (dd a).val
  let axes := List.range 3
  if axes.any (fun a => !(fmt64.read (oo a).toNat).isFin || !(dd a).isFin) then none
  else if axes.any (fun a => !(f32 (d a)).isFin) || axes.all (fun a => (v32 (d a)).isZero) then none
  else some { ox := oo 0, oy := oo 1, oz := oo 2, d := { x := d 0, y := d 1, z := d 2 } }

/-- The origin in object space on an axis. -/
def ObjRay.origin (o : ObjRay) (a : Nat) : Q := (fmt64.read (if a = 0 then o.ox else if a = 1 then o.oy else o.oz).toNat).val

/-- The carried ray of an instance (R139), from the root's frame origin; `none` where org_L rounds beyond the largest finite FP32
(R141). -/
def ObjRay.carry (o : ObjRay) (l : V3) (ctx : InstCtx) : Option Carry :=
  let g (a : Nat) : Word := rn32 ((o.origin a).sub (v32 (l.at a)))
  if (List.range 3).any (fun a => !(f32 (g a)).isFin) then none
  else some { l := l, org := { x := g 0, y := g 1, z := g 2 }, d := o.d, inst := some ctx }

/-! ## Triangles -/

/-- The axes of R144: kx, ky, kz. -/
def triAxes (c : Carry) : Nat × Nat × Nat :=
  let m (a : Nat) : Q := (c.dirAt a).abs
  let kz := if (m 1).le (m 0) && (m 2).le (m 0) then 0 else if (m 2).le (m 1) then 1 else 2
  let kx := (kz + 1) % 3
  let ky := (kz + 2) % 3
  if (c.dirAt kz).isNeg then (ky, kx, kz) else (kx, ky, kz)

/-- A projected vertex (R145): x, y, z. -/
def triProject (c : Carry) (v : V3) : Q × Q × Q :=
  let k := triAxes c
  let dz := c.dirAt k.2.2
  let sx := rn24 ((c.dirAt k.1).div dz)
  let sy := rn24 ((c.dirAt k.2.1).div dz)
  let sz := rn24 ((Q.int 1).div dz)
  let p (a : Nat) : Q := rn24 ((v32 (v.at a)).sub (c.origin a))
  (rn24 ((p k.1).sub (rn24 (sx.mul (p k.2.2)))), rn24 ((p k.2.1).sub (rn24 (sy.mul (p k.2.2)))), rn24 (sz.mul (p k.2.2)))

/-- An edge function from vertex `f` to vertex `g`, in W24 and in W53 (R145). -/
def edge24 (g f : Q × Q × Q) : Q := rn24 ((rn24 (g.1.mul f.2.1)).sub (rn24 (g.2.1.mul f.1)))
def edge53 (g f : Q × Q × Q) : Q := rn53 ((g.1.mul f.2.1).sub (g.2.1.mul f.1))

/-- What a triangle test finds: t, b1, b2 as FP32, and facing. -/
structure TriHit where
  t     : Word
  b1    : Word
  b2    : Word
  front : Bool
  deriving DecidableEq, Repr

/-- The reference triangle test (R145). The Bool says that the edge functions were recomputed in W53. -/
def triTest (c : Carry) (v : V3 × V3 × V3) : Option TriHit × Bool :=
  let a := triProject c v.1
  let b := triProject c v.2.1
  let d := triProject c v.2.2
  let f0 := edge24 d b
  let f1 := edge24 a d
  let f2 := edge24 b a
  let wide := f0.isZero || f1.isZero || f2.isZero
  let e0 := if wide then edge53 d b else f0
  let e1 := if wide then edge53 a d else f1
  let e2 := if wide then edge53 b a else f2
  let rnd (q : Q) : Q := if wide then rn53 q else rn24 q
  let pos := !e0.isNeg && !e1.isNeg && !e2.isNeg
  let neg (q : Q) : Bool := q.isNeg || q.isZero
  if !(pos || (neg e0 && neg e1 && neg e2)) then (none, wide)
  else
    let det := rnd ((rnd (e0.add e1)).add e2)
    if det.isZero then (none, wide)
    else
      let tt := rnd ((rnd ((rnd (e0.mul a.2.2)).add (rnd (e1.mul b.2.2)))).add (rnd (e2.mul d.2.2)))
      (some { t := rn32 (tt.div det), b1 := rn32 (e1.div det), b2 := rn32 (e2.div det), front := !det.isNeg }, wide)

/-- A value clamped to [0, 1] and converted to UNORM16 (R148); a NaN converts to 0 (R305). -/
def unorm16 (w : Word) : Nat :=
  match f32 w with
  | .nan => 0
  | .inf neg => if neg then 0 else 65535
  | .fin q => if q.isNeg then 0 else if (Q.int 1).le q then 65535 else (q.mul (Q.int 65535)).rint.toNat

end Sys2Proof.Machine
end

