-- ==== Sys2Proof/Machine/Walk.lean ====
section
/-! DEFINITION. Walkers: entering (R194, R61 to R64, R197, R198, R120, R121), arrival (R185), reload (R180), the reads they
make (R83 to R88, R175, R182), and how walks end, accept candidates and contribute (R84, R113, R146, R316 to R320). -/

namespace Sys2Proof.Machine

/-! ## When a district works -/

/-- The districts step: the block is up and at Ready (R410 step 4, R453). -/
def State.active (s : State) : Bool := decide (s.phase = .up) && decide (s.rd Fld.blkRungCurrent = 0)

/-- A district is above `TRIP` (R404), or acts so for a sensor fault (R403). -/
def District.tripHeld (x : District) : Bool := x.trip || x.sensFault

/-- A district's cells, core and tiles work: not above `TRIP` (R403, R404), not lost to a fault (R189), not in reset. -/
def State.walking (s : State) (d : Nat) : Bool :=
  s.active && !(s.dist d).tripHeld && !(s.dist d).reasons.getLsbD 3 && !(s.dist d).inReset

/-! ## Counts in the completion record -/

/-- A format violation of a batch (R119, R328). -/
def State.fmtViol (s : State) (b : Bid) : State := s.updBatch b (fun x => { x with fmtv := x.fmtv + 1 })

/-- `n` format violations. -/
def State.fmtViols (s : State) (b : Bid) (n : Nat) : State := s.updBatch b (fun x => { x with fmtv := x.fmtv + n })

/-- A region violation of a batch (R84, R328). -/
def State.regViol (s : State) (b : Bid) : State := s.updBatch b (fun x => { x with regv := x.regv + 1 })

/-- What a walk's end leaves: a result to be written where the kind writes one per walker (R194). -/
def State.endWalk (s : State) (w : Walker) : State :=
  (s.setWalker { w with st := .done, work := [], cand := none, stage := .toWrite, ord := s.clock }).tick

/-- A region violation ends a walker (R84): a closest or any-hit walker as a miss, others with what they have. -/
def State.violate (s : State) (w : Walker) : State :=
  let acc := match s.batch w.bid with
    | some x => x.desc.accum
    | none => false
  (s.regViol w.bid).endWalk (if acc then w else { w with best := none, regv := true })

/-! ## Reads of scene memory by walkers -/

/-- What a walker's read comes to. -/
inductive WRead where
  | ok (bs : List Byte)
  /-- The region check fails. -/
  | denied
  | absent (g : Nat)
  /-- Poisoned data, or a region without `MIRROR` read for a held batch, at an address. -/
  | lost (a : Nat)
  /-- The plot copy read was in error and is discarded: the step is made again later. -/
  | again
  deriving DecidableEq, Repr

/-- Which way the bytes come when no copy of the treelet is in the district. -/
inductive Via where
  | node | leaf
  deriving DecidableEq, Repr

/-- The error pattern of a plot copy's first word judged when a read reaches it (R504, R508): corrected in place, or the
copy discarded. -/
def State.plotCode (s : State) (d k : Nat) (p : PlotSlot) (first : Bool) : State × Bool :=
  if !first || decide (p.pat = 0) then (s, true)
  else
    let res := codeJudge p.pat
    let t := s.dstCode d res
    if codePoison p.pat then (t.drainSlot d k, false)
    else if res = .corrected then (t.updDist d (fun x => { x with plot := SMap.put x.plot k { p with pat := 0 } }), true)
    else (t, true)

/-- Bytes delivered through the node cache or by the leaf stream (R351, R354). -/
def State.deliverVia (s : State) (d : Nat) (via : Via) (a n : Nat) : State × WRead :=
  let r := match via with
    | .node => let q := s.nodeLines d (a / 64 * 64) ((a + n - 1) / 64 - a / 64 + 1); (q.1, (q.2.1.drop (a % 64)).take n, q.2.2)
    | .leaf => s.sceneRead (streamLeaf d) a n
  if r.2.2 then (r.1, .lost a) else (r.1, .ok r.2.1)

/-- Bytes delivered to a walker's district, from a plot or top copy that serves it, or past it where it has none (R92, R175, R182). What
lies beyond a copy's length is malformed to whoever reads it (R92), and reads as zero here. -/
def State.deliver (s : State) (w : Walker) (via : Via) (a n : Nat) : State × WRead :=
  let d := w.dist
  match s.copyFor w (a / 65536) with
  | some (k, p) =>
    match s.plotCode d k p (decide (a % 65536 < 8)) with
    | (t, false) => (t, .again)
    | (t, true) => if p.poison then (t, .lost a) else (t, .ok (Memory.bytes p.cells a n))
  | none => s.deliverVia d via a n

/-- A read for a walker: region check, the mirror rule of a held batch (R435), residency, then delivery. -/
def State.walkRead (s : State) (w : Walker) (via : Via) (a n : Nat) : State × WRead :=
  let rs := s.regionsOf w.bid
  match s.sceneCheck w.dist rs (fun _ => true) a n with
  | (t, some .denied) => (t, .denied)
  | (t, some (.absent g)) => (t, .absent g)
  | (t, some (.lost b)) => (t, .lost b)
  | (t, some (.bytes _)) | (t, none) =>
    if w.bid.held && !regionsAllow rs Region.mirror a n then (t, .lost a) else t.deliver w via a n

/-- What a read that did not deliver does to its walker (R84, R88, R348). `facc` names the access (R336). -/
def State.readFail (s : State) (w : Walker) (facc : Nat) (r : WRead) : State :=
  match r with
  | .ok _ | .again => s
  | .denied => s.violate w
  | .absent g => (s.absentFault w.bid facc g w.idx w.dist).parkWalker w
  | .lost a => s.sceneLost w.bid (some a)

/-! ## Contributions -/

/-- The words of a contribution added to those of a slot or partial (R318): R273 on both, rounded by R275. -/
def addWords (old new : List Word) : List Word :=
  (List.range 4).map (fun i => match new[i]? with
    | some w => toF32 ((f32 (old.getD i 0)).add (f32 w))
    | none => old.getD i 0)

/-- A walker's contribution (R317 to R320): into its partial when ordered, else on its way to the Gate. -/
def State.contribute (s : State) (x : Batch) (w : Walker) (words : List Word) : State × Walker :=
  if words = [] || decide (x.desc.count ≤ w.ray.slot.toNat) then (s, w)
  else if x.desc.ordered then (s, { w with part := addWords w.part words, contrib := true })
  else
    let t := s.gateTrip w.dist
    ({ t with contribs := t.contribs ++ [{ bid := w.bid, idx := w.idx, slot := w.ray.slot.toNat, words := words }] }, { w with contrib := true })

/-! ## Candidates -/

/-- The upper end of a walker's t-interval (R132). -/
def tLimit (x : Batch) (w : Walker) : Fp :=
  match w.best with
  | some h => if x.desc.submode = 0 then (f32 w.ray.tmax).minF (f32 h.t) else f32 w.ray.tmax
  | none => f32 w.ray.tmax

/-- The carried ray of a piece of work. -/
def Walker.carry (w : Walker) (ctx : Nat) : Carry := (w.ctxs[ctx]?).getD (topCarryShort w.ray)

/-- The instance of a carried ray (R110). -/
def Walker.inst (w : Walker) (ctx : Nat) : Option InstCtx := (w.carry ctx).inst

/-- A candidate is culled by its facing (R113, R142, R146). -/
def culled (w : Walker) (front noCull : Bool) : Bool :=
  !noCull && (if front then w.ray.cullFront else w.ray.cullBack)

/-- Whether `PROG_ANYHIT` runs on a candidate (R113). -/
def anyhitRuns (x : Batch) (w : Walker) (opqPath noAny : Bool) : Bool :=
  decide (x.desc.progAnyhit ≠ 0) && !w.ray.opq && (w.ray.forceAnyhit || !(opqPath || noAny))

/-- An invocation for a walker, which waits in its program (R194, R218). -/
def State.callProgram (s : State) (w : Walker) (entry prog : Nat) (h : Hit) : State :=
  State.tick ((s.setWalker { w with st := .inProgram, ord := s.clock }).invoke w.dist
    { entry := entry, prog := prog, bid := w.bid, idx := w.idx, gen := w.gen, cls := w.cls, hit := h })

/-- An accepted candidate (R146, R153, R318). For `CLOSEST` it becomes the best hit if nearer, or equally near where `tie`
says so; for `ANY` it ends the walk; for `ACCUMULATE` it contributes, by a program where one is named. -/
def State.acceptHit (s : State) (x : Batch) (w : Walker) (h : Hit) (tie last : Bool) : State :=
  match x.desc.submode with
  | 0 =>
    let better := match w.best with
      | none => true
      | some b => (f32 h.t).lt (f32 b.t) || (tie && (f32 h.t).eq (f32 b.t))
    let w1 := if better then { w with best := some h, cand := none } else { w with cand := none }
    if last then s.endWalk w1 else s.place w1
  | 1 => s.endWalk { w with best := some h, cand := none }
  | _ =>
    if x.desc.progAccum ≠ 0 then
      s.callProgram (if last then { w with work := [], cand := some h } else { w with cand := some h }) 3 x.desc.progAccum h
    else
      let r := s.contribute x { w with cand := none } [0x3F800000, h.t]
      if last then r.1.endWalk r.2 else r.1.place r.2

/-- What names a candidate: its record, its primitive, and the record of the instance it lies under (R154). -/
def Walker.candKey (w : Walker) (h : Hit) : Nat × Word × Option Nat := (h.recA, h.prim, (w.inst h.ctx).map (·.recAt))

/-- A candidate found (R113, R146): offered to `PROG_ANYHIT`, at most once in a walk (R154), or accepted. -/
def State.offer (s : State) (x : Batch) (w : Walker) (h : Hit) (opqPath noAny tie : Bool) : State :=
  if anyhitRuns x w opqPath noAny then
    (if w.candKey h ∈ w.offered then s.place { w with cand := none }
     else s.callProgram { w with cand := some h, offered := w.offered ++ [w.candKey h] } 2 x.desc.progAnyhit h)
  else s.acceptHit x w h tie false

/-! ## Refit records -/

/-- A vertex update record (R120). -/
def updBlock (u : List Byte) : Nat := sceneField u 0 64
def updMask (u : List Byte) : Nat := bytesLe u 8 1 % 16
def updVertexBad (u : List Byte) : Bool :=
  (List.range 4).any (fun i => bit (updMask u) i && (List.range 3).any (fun a => !(f32 ((bytesV3 u (0x10 + 12 * i)).at a)).isFin))

/-- Whether a record of higher index of the batch has replaced vertex `i` of the same block already (R121): the run ledger's
entries keep the applied records. -/
def State.laterUpdate (s : State) (b : Bid) (idx i : Nat) (u : List Byte) : Bool :=
  s.house.ledger.any (fun l => decide (l.bid = b) && l.pack.any (fun p => decide (idx < l.run * 64 + p.1)
    && decide (updBlock p.2 = updBlock u) && bit (updMask p.2) i))

/-- An applied record kept with its run. -/
def State.keepUpdate (s : State) (w : Walker) (u : List Byte) : State :=
  let keep (l : LedgerRun) : LedgerRun := { l with pack := SMap.put l.pack (w.idx % 64) u }
  { s with house := { s.house with ledger := updFirst (fun l => decide (l.bid = w.bid) && decide (l.run = w.run)) keep s.house.ledger } }

/-- A walker that needs no write of its own is done with its result acknowledged. -/
def State.endQuiet (s : State) (w : Walker) : State :=
  (s.setWalker { w with st := .done, work := [], stage := .acked, ord := s.clock }).tick

/-- A vertex update record applied or skipped (R121). -/
def State.applyUpdate (s : State) (w : Walker) (u : List Byte) : State :=
  let rs := s.regionsOf w.bid
  let a := updBlock u
  if decide (updMask u = 0) || updVertexBad u then (s.fmtViol w.bid).endQuiet w
  else if !regionsAllow rs Region.write a 64 then (s.regViol w.bid).endQuiet w
  else
    match s.residentAll w.dist rs (granules a 64) with
    | (t, some g) => (t.absentFault w.bid 0x11 g w.idx w.dist).parkWalker { w with upd := u }
    | (t, none) =>
      let put (v : State) (i : Nat) : State :=
        if bit (updMask u) i && !s.laterUpdate w.bid w.idx i u then v.sceneWrite (streamMisc w.dist) (a + 12 * i) ((u.drop (0x10 + 12 * i)).take 12) else v
      let wrote := ((List.range 4).foldl put t).updBatch w.bid (fun x => { x with wrote := addNew x.wrote (a / 65536) })
      (wrote.keepUpdate w u).endQuiet { w with hits := 1 }

/-! ## Entering -/

/-- A page of a walker's input is not there (R72, R336): the batch parks and the walker with it. -/
def State.inputFault (s : State) (w : Walker) (facc cause addr : Nat) : State :=
  (s.xlateFault w.bid .walking facc cause addr w.idx (some w.dist)).parkWalker w

/-- A ray walker enters (R64, R128, R317): a miss, or placed with its root node to visit. -/
def State.enterRay (s : State) (x : Batch) (w0 : Walker) (r : Ray) : State :=
  let w := { w0 with ray := r, part := [0, 0, 0, 0] }
  let s1 := if x.desc.accum && decide (x.desc.count ≤ r.slot.toNat) then s.fmtViol w.bid else s
  if r.invalid || r.inactive then s1.endWalk w
  else
    let fl : PathFlags := { opq := false, noAnyhit := false, noCull := false }
    s1.place { w with ctxs := if r.long then [] else [topCarryShort r], work := [.node (x.desc.root / 64 * 64) none 0 fl] }

/-- The threshold a probe begins with (R203). -/
def probeLimit (x : Batch) (dist : Nat) : Word :=
  if x.desc.submode = 1 then (if dist = 1 then x.desc.radius ^^^ 0x80000000 else x.desc.radius) else inf32

/-- Whether a query vector has an element that R198 refuses. -/
def queryBad (qfmt dim : Nat) (v : List Byte) : Bool :=
  (List.range dim).any (fun i => !(queryElem qfmt v i).isFin || (decide (qfmt = 2) && decide (nibbleAt v 0 i = 8)))

/-- A probe enters (R197, R198, R114): its record, the index header, its query vector. -/
def State.enterProbe (s : State) (x : Batch) (w : Walker) (p : ProbeRec) (qrec : List Byte) : State :=
  let qfmt := bytesLe qrec 8 1
  let scale := bytesWord qrec 0xC
  if bit (bytesLe qrec 9 1) 0 then s.endWalk w
  else if decide (3 < qfmt) || !(f32 scale).isFin || !((Q.int 0).lt (v32 scale)) then (s.fmtViol w.bid).endWalk w
  else
    match s.walkRead w .leaf (x.desc.root / 64 * 64) 64 with
    | (t, .ok hdr) =>
      if indexBad hdr then (t.fmtViol w.bid).endWalk w
      else
        let dim := bytesLe hdr 0 2
        let va := x.desc.inAddr + bytesLe qrec 0 8 / 16 * 16
        match t.readVa (bidRoot w.bid) va (queryBytes qfmt dim) with
        | (u, .fault c a) => u.inputFault w 0x01 c a
        | (u, .ok v) =>
          if queryBad qfmt dim v then (u.fmtViol w.bid).endWalk w
          else
            let q : ProbeRec := { p with
              qoff := BitVec.ofNat 64 (bytesLe qrec 0 8), qfmt := BitVec.ofNat 8 qfmt, qscale := scale, query := v,
              tau := probeLimit x (bytesLe hdr 2 1), dim := dim, dist := bytesLe hdr 2 1, iscale := bytesWord hdr 4, seen := [] }
            u.place { w with probe := some q, work := [.pnode (sceneField hdr 8 64) none] }
    | (t, r) => t.readFail w 0x10 r

/-- A walker's record read and the walker moved on (R194). -/
def State.enter (s : State) (x : Batch) (w : Walker) : State :=
  if x.stop then s.dropWalker w
  else if x.desc.isGen then s.enterRay x w w.ray
  else if x.desc.isRefit && w.contrib then s.applyUpdate w w.upd
  else
    let n := x.desc.inBytes
    let a := x.desc.inAddr + w.idx * n
    match s.stampRead w.bid a n with
    | none => s
    | some bs =>
      let t := (s.stampHost w.bid a n).gateMessage w.dist
      if x.desc.isRefit then
        (if x.desc.progMain ≠ 0 then t.callProgram { w with upd := bs } 6 x.desc.progMain Hit.none
         else t.applyUpdate w bs)
      else
        match w.probe with
        | some p => t.enterProbe x w p bs
        | none => t.enterRay x w (rayOf x.desc.recF bs)

/-- Whether a walker's record can be read now: its transfer is not held by a withdrawn stamp (R377). -/
def State.recordReady (s : State) (w : Walker) : Bool :=
  match s.batch w.bid with
  | none => true
  | some x => x.stop || x.desc.isGen || (s.stampRead w.bid (x.desc.inAddr + w.idx * x.desc.inBytes) x.desc.inBytes).isSome

/-- The oldest walker of a district in `ENTERING` that can go on. -/
def State.nextEntering (s : State) (d : Nat) : Option Walker :=
  leastBy (fun w => w.ord) (s.walkers.filter (fun w => decide (w.dist = d) && decide (w.st = .entering) && s.recordReady w))

/-- `WALKER_ENTERING` (R194). -/
def execWalkerEntering (d : Dist) (s : State) : Res :=
  .next (if !s.walking d.val then s
    else match s.nextEntering d.val with
    | none => s
    | some w =>
      match s.batch w.bid with
      | none => s.dropWalker w
      | some x => s.enter x w)

/-! ## Thresholds (R203, R212) -/

/-- The heap of a probe at a district. -/
def State.heapOf (s : State) (d : Nat) (w : Walker) : Option Heap :=
  (s.dist d).heaps.find? (fun h => decide (h.bid = w.bid) && decide (h.idx = w.idx) && decide (h.gen = w.gen))

/-- The threshold of a heap (R203). -/
def heapTau (x : Batch) (limit : Word) (l : List (Word × Word × Nat)) : Word :=
  if x.desc.k = 0 || decide (l.length < x.desc.k) then limit
  else
    match l.getLast? with
    | none => limit
    | some e => if (f32 e.1).lt (f32 limit) then e.1 else limit

/-- The qualifying limit of a probe (R200). -/
def Walker.limit (x : Batch) (w : Walker) : Word :=
  match w.probe with
  | some p => probeLimit x p.dist
  | none => inf32

/-- A walker as it is at a district: at home the threshold a probe carries is its heap's (R212). -/
def State.atHome (s : State) (w : Walker) : Walker :=
  match w.probe, s.batch w.bid, s.heapOf w.dist w with
  | some p, some x, some h => if w.dist = p.home then { w with probe := some { p with tau := heapTau x (Walker.limit x w) h.ents } } else w
  | _, _, _ => w

/-! ## Arrival and reload -/

/-- A walker that has arrived under the present epoch at the district that serves its treelet (R194): queued or in a
square. -/
def State.settle (s : State) (w : Walker) : State :=
  match w.tid with
  | none => s.place w
  | some tid =>
    if s.stays w.bid || (s.copyFor w tid).isSome then (s.setWalker { w with st := .queued, ord := s.clock }).tick
    else s.joinSquare w tid

/-- Whether a district can say now where a walker message that has reached it belongs (R185): its epoch is the present one, or the walker
steps wherever it is, or the map's answer is at hand. -/
def State.judged (s : State) (d : Nat) (p : Payload) : Bool :=
  match p with
  | .walker b _ _ tid ep => decide (ep = s.epoch) || s.stays b || s.topMay b tid || (s.memoAns d tid).isSome
  | .lookup _ | .lookupReply _ _ _ | .candidates _ _ _ _ _ | .tau _ _ _ _ | .endNotice _ _ _ _ _ | .send _ _ _ _ _ _
  | .sendStatus _ _ _ _ | .marker => false

/-- A walker message received at its destination (R185): under an older epoch the destination is computed again, and a
walker that belongs elsewhere is forwarded and not queued. -/
def State.arriveMsg (s : State) (d : Nat) (w : Walker) (tid : Nat) (ep : BitVec 16) : State :=
  let w1 := s.atHome { w with dist := d }
  if ep = s.epoch then s.arrive w1 State.settle
  else if s.stays w.bid || s.topMay w.bid tid then s.arrive w1 State.place
  else
    match s.destOf d tid w.bid with
    | some e => if e = d then s.arrive w1 State.place else s.sendWalker w1 e tid
    | none => s.arrive w1 State.place

/-- The next message of a kind at a district's router. -/
def State.nextMsg (s : State) (d : Nat) (p : Payload → Bool) : Option Msg :=
  s.msgs.find? (fun m => decide (m.here = d) && decide (m.dst = d) && !m.bad && p m.body)

/-- A message taken out. -/
def State.dropMsg (s : State) (m : Msg) : State := { s with msgs := dropFirst (fun x => decide (x = m)) s.msgs }

/-- A walker by its identity. -/
def State.walker (s : State) (b : Bid) (idx gen : Nat) : Option Walker := s.walkers.find? (fun w => w.is b idx gen)

/-- `WALKER_ARRIVAL` (R185); walkers do not reach a closed district (R189). -/
def execWalkerArrival (d : Dist) (s : State) : Res :=
  .next (if !s.active || !s.isOpen d.val then s
    else match s.nextMsg d.val (s.judged d.val) with
    | none => s
    | some m =>
      let t := (s.dropMsg m).wakeDist d.val
      match m.body with
      | .walker b i g tid ep =>
        (match t.walker b i g with
         | none => t
         | some w => if w.st = .inTransit then t.arriveMsg d.val w tid ep else t)
      | .lookup _ | .lookupReply _ _ _ | .candidates _ _ _ _ _ | .tau _ _ _ _ | .endNotice _ _ _ _ _ | .send _ _ _ _ _ _
      | .sendStatus _ _ _ _ | .marker => t)

/-- Where a walker of a closed district goes (R185, R189): a stay-mode walker to the district R21 would deal to next, another to the one
that now serves its treelet, once that is known. -/
def State.leaveTo (s : State) (w : Walker) : Option (Nat × Nat) :=
  w.tid.bind (fun tid => (if s.stays w.bid then s.nextDealt else s.destOf w.dist tid w.bid).map (fun e => (e, tid)))

/-- The walkers a district may reload, in the order they were written (R180): spilled, or parked and resumed; from a closed district
(R189) those that it can send on. -/
def State.reloadable (s : State) (d : Nat) : List Walker :=
  sortBy (fun a b => decide (a.ord < b.ord)) (s.walkers.filter (fun w => decide (w.dist = d)
    && (decide (w.st = .spilled) || decide (w.st = .parked true))
    && (s.isOpen d || decide (w.work = []) || (s.leaveTo w).isSome)))

/-- A walker's record read back from the side street (R177); poisoned, it is lost with its batch's scene data (R348; DEDUCED, assumption
log 81). -/
def State.fromStreet (s : State) (w : Walker) : State × Bool :=
  match w.place with
  | none => (s, false)
  | some k => s.recordGet (streamSide w.dist) (s.streetAt w.dist k) 128

/-- One walker reloaded (R180, R194): as for `ENTERING`, or back to the state before it parked; a closed district sends it on (R189). -/
def State.reloadOne (s : State) (w : Walker) : State :=
  match s.fromStreet w with
  | (t, true) => t.sceneLost w.bid none
  | (t, false) =>
    let u := t.count w.dist 0x0F 1
    if w.work ≠ [] && !u.isOpen w.dist then
      (match u.leaveTo w with
       | some (e, tid) => u.sendWalker w e tid
       | none => u)
    else
      let q := u.writeSlot w
      (if w.work = [] then q.1.entering q.2 else q.1.place q.2).refreshDrained w.dist

/-- `WALKER_RELOAD` (R180): below 2,048 occupied slots, until 2,048 or no unparked walker remains. -/
def execWalkerReload (d : Dist) (s : State) : Res :=
  .next (if !s.walking d.val then s
    else (s.reloadable d.val).foldl (fun t w => if decide ((t.slots d.val).length < 2048) && decide (w ∈ t.walkers) then t.reloadOne w else t) s)

end Sys2Proof.Machine
end

