-- ==== Sys2Proof/Machine/Avenue.lean ====
section
/-! DEFINITION. Messages on the avenues: hops, CRC-16 and replays, closed links (R12 to R16, R186, R187), readdressed and
discarded messages (R164, R186, R259), and owner lookups (R155, R163 to R165). -/

namespace Sys2Proof.Machine

/-! ## Links -/

/-- The next link of a message, if it is to travel: the one it awaits a replay on (R16), else its router's table's (R186). -/
def State.hopOf (s : State) (m : Msg) : Option Dir :=
  match m.via with
  | some b => allDirs.find? (fun x => decide (neighbour m.here x = some b))
  | none => if m.here = m.dst then none else s.nextHop m.here m.dst

/-- The message at a place of the list, when no earlier one of its lane waits at the same router for the same link (R15). -/
def State.movable (s : State) (n : Nat) : Option (Msg × Dir) :=
  match s.msgs[n]? with
  | none => none
  | some m =>
    match s.hopOf m with
    | none => none
    | some x =>
      if (s.msgs.take n).any (fun y => decide (y.lane = m.lane) && decide (y.here = m.here) && decide (s.hopOf y = some x)) then none
      else some (m, x)

/-- A message put in place of the one at `n`. -/
def State.setMsg (s : State) (n : Nat) (m : Msg) : State := { s with msgs := s.msgs.set n m }

/-- Message `n` taken out of the list. -/
def State.cutMsg (s : State) (n : Nat) : State := { s with msgs := s.msgs.eraseIdx n }

/-! ## Lookups -/

/-- A district's router and map share answer lookups (R164): in any rung of the district's own and any closure, not while it is under
reset or its router dead. -/
def State.shareUp (s : State) (d : Nat) : Bool := !(s.dist d).inReset && !(s.dist d).routerDead

/-- The holder's answer to an owner lookup, sent back on the response lane (R163, R164). A district under reset answers "no
entry". -/
def State.answer (s : State) (at' src tid : Nat) : State :=
  if s.shareUp at' then (s.mapParity tid).sendMsg .response at' src (.lookupReply tid s.epoch (s.mapEntry tid))
  else s.sendMsg .response at' src (.lookupReply tid s.epoch none)

/-- The gather walkers that wait in a district's queue for a treelet's owner, oldest first. -/
def State.lookupWaiters (s : State) (d : Nat) : List Walker :=
  sortBy (fun a b => decide (a.ord < b.ord)) (s.walkers.filter (fun w => decide (w.dist = d) && decide (w.st = .queued)
    && !s.stays w.bid && (match w.tid with
      | some tid => !(s.copyFor w tid).isSome
      | none => false)))

/-- Whether a message's payload is a walker's, with what names it. -/
def Payload.walker? : Payload → Option (Bid × Nat × Nat × Nat)
  | .walker b i g tid _ => some (b, i, g, tid)
  | .lookup _ | .lookupReply _ _ _ | .candidates _ _ _ _ _ | .tau _ _ _ _ | .endNotice _ _ _ _ _ | .send _ _ _ _ _ _
  | .sendStatus _ _ _ _ | .marker => none

/-- The treelet of a walker message that a district's router has to readdress, or that has arrived there under an older epoch (R185,
R186). -/
def State.wantsTid (s : State) (d : Nat) (m : Msg) : Option Nat :=
  match m.body with
  | .walker b _ _ tid ep =>
    if decide (m.here = d) && !s.stays b && (!s.isOpen m.dst || (decide (m.dst = d) && decide (ep ≠ s.epoch))) then some tid else none
  | .lookup _ | .lookupReply _ _ _ | .candidates _ _ _ _ _ | .tau _ _ _ _ | .endNotice _ _ _ _ _ | .send _ _ _ _ _ _
  | .sendStatus _ _ _ _ | .marker => none

/-- The treelets whose server a district has to know (R163): of the walkers that wait in its queue, of the messages at its router, of the
walkers that a closed district sends on (R189), and of its squares and copies (R194, R195). -/
def State.wantedTids (s : State) (d : Nat) : List Nat :=
  let leaving := if s.isOpen d then [] else s.walkers.filter (fun w => decide (w.dist = d) && !s.stays w.bid && (match w.st with
    | .queued | .inSquare _ | .spilled | .parked true => true
    | .entering | .inProgram | .inTransit | .parked false | .done => false))
  let held := (s.dist d).plot.filter (fun p => p.2.top.isNone && decide (p.2.st ≠ .draining))
  (s.lookupWaiters d).filterMap Walker.tid ++ s.msgs.filterMap (s.wantsTid d) ++ leaving.filterMap Walker.tid
    ++ (s.dist d).squares.map (·.tid) ++ held.map (·.2.tid)

/-- Walkers that waited for an answer placed by it (R165, R194). -/
def State.placeWaiters (s : State) (d tid : Nat) : State :=
  ((s.lookupWaiters d).filter (fun w => decide (w.tid = some tid))).foldl (fun t w => t.place w) s

/-- The walkers of a square whose serving district an answer moves elsewhere go in transit (R194). -/
def State.moveSquare (s : State) (d tid : Nat) : State :=
  let away (w : Walker) : Bool := decide (w.dist = d) && decide (w.st = .inSquare tid) && !s.topMay w.bid tid
  (s.walkers.filter away).foldl (fun t w => match t.destOf d tid w.bid with
    | some e => if e = d then t else t.sendWalker w e tid
    | none => t) s

/-- An answer kept, and what it changes in the district: its copy of the treelet, its square, and the walkers that waited (R163, R165,
R194, R195). -/
def State.answered (s : State) (d tid : Nat) (ans : Option (List Word)) : State :=
  (((s.memoPut d tid ans).reviewCopy d tid ans).moveSquare d tid).placeWaiters d tid

/-- An owner lookup for the first treelet that needs one and has none outstanding (R163). The district's own share answers at
once. -/
def State.lookup (s : State) (d : Nat) : State :=
  match (s.wantedTids d).find? (fun tid => decide (s.memoAns d tid = none) && decide (tid ∉ (s.dist d).asked)) with
  | none => s
  | some tid =>
    let h := mapHolder tid
    if h = d then (s.mapParity tid).answered d tid (s.mapEntry tid)
    else ((s.updDist d (fun x => { x with asked := x.asked ++ [tid] })).count d 0x10 1).sendMsg .request d h (.lookup tid)

/-- `MAP_LOOKUP` (R163). -/
def execMapLookup (d : Dist) (s : State) : Res := .next (if s.active && s.shareUp d.val then s.lookup d.val else s)

/-- An answer received (R163): kept unless the route epoch has changed since it was given; then the district asks again. -/
def State.lookupReply (s : State) (d tid : Nat) (ep : BitVec 16) (ans : Option (List Word)) : State :=
  if ep = s.epoch then s.answered d tid ans
  else s.updDist d (fun x => { x with asked := x.asked.filter (fun t => decide (t ≠ tid)) })

/-- `MAP_LOOKUP_REPLY` (R164). -/
def execMapLookupReply (d : Dist) (s : State) : Res :=
  .next (if !s.active then s
    else match s.nextMsg d.val (fun p => match p with
      | .lookupReply _ _ _ => true
      | .walker _ _ _ _ _ | .lookup _ | .candidates _ _ _ _ _ | .tau _ _ _ _ | .endNotice _ _ _ _ _ | .send _ _ _ _ _ _
      | .sendStatus _ _ _ _ | .marker => false) with
    | none => s
    | some m =>
      match m.body with
      | .lookupReply tid ep ans => (s.dropMsg m).lookupReply d.val tid ep ans
      | .walker _ _ _ _ _ | .lookup _ | .candidates _ _ _ _ _ | .tau _ _ _ _ | .endNotice _ _ _ _ _ | .send _ _ _ _ _ _
      | .sendStatus _ _ _ _ | .marker => s)

/-! ## Closed and dead destinations -/

/-- A walker message readdressed under the present epoch by the router that finds its destination closed (R14, R185, R186, R189), once
that router's district knows the district that now serves its treelet. -/
def State.redirect (s : State) (n : Nat) (m : Msg) (b : Bid) (idx gen tid : Nat) : State :=
  match (if s.stays b then s.nextDealt else s.destOf m.here tid b) with
  | none => s
  | some e =>
    (s.setMsg n { m with dst := e, via := none, replays := 0, body := .walker b idx gen tid s.epoch }).updWalker (fun w => w.is b idx gen)
      (fun w => { w with dest := e, epoch := s.epoch })

/-- A message discarded by the last live router on its route: its destination's router is dead or no route to it is left (R164, R186,
R259). -/
def State.discard (s : State) (n : Nat) (m : Msg) : State :=
  let t := s.cutMsg n
  match m.body with
  | .send _ _ _ grp thread r => (t.count m.dst 8 1).sendMsg .response m.here m.src (.sendStatus grp thread r false)
  | .lookup tid => t.sendMsg .response m.here m.src (.lookupReply tid s.epoch none)
  | .walker _ _ _ _ _ | .lookupReply _ _ _ | .candidates _ _ _ _ _ | .tau _ _ _ _ | .endNotice _ _ _ _ _ | .sendStatus _ _ _ _
  | .marker => t

/-- What a message meets at its destination's router: a lookup is answered there, any other is received by its own step, and a
district in Quiet wakes (R164, R413). -/
def State.reach (s : State) (n : Nat) (m : Msg) : State :=
  match m.body with
  | .lookup tid => (s.cutMsg n).answer m.dst m.src tid
  | .walker _ _ _ _ _ | .lookupReply _ _ _ | .candidates _ _ _ _ _ | .tau _ _ _ _ | .endNotice _ _ _ _ _ | .send _ _ _ _ _ _
  | .sendStatus _ _ _ _ | .marker => s.wakeDist m.dst

/-- A message received by the router at the far end of its link (R12, R15): it stands behind those received there before. -/
def State.crossed (s : State) (n : Nat) (m : Msg) (b : Nat) : State :=
  let m1 := { m with here := b, via := none, replays := 0 }
  let t : State := { s.cutMsg n with msgs := (s.cutMsg n).msgs ++ [m1] }
  if b = m.dst then t.reach (t.msgs.length - 1) m1 else t

/-- A CRC-16 mismatch at the receiving router, which asks the sender for a replay over the same link (R16). -/
def State.askReplay (s : State) (n : Nat) (m : Msg) (b tries : Nat) : State :=
  (s.setMsg n { m with via := some b, replays := tries }).count b 0x19 1

/-- A message sent over its next link (R16), with the arms of the sending router (R509). -/
def State.hop (s : State) (n : Nat) (m : Msg) (x : Dir) (b : Nat) (crcOk : Bool) : State :=
  let t := if m.lane = .walker then s.count m.here (outCounter x) 1 else s
  if t.armed (Fld.dstInjectAvClose m.here) then ((((t.disarm (Fld.dstInjectAvClose m.here)).disarm (Fld.dstInjectAvCrc m.here)).count b 0x19 3).closeLink m.here b)
  else if t.armed (Fld.dstInjectAvCrc m.here) then (t.disarm (Fld.dstInjectAvCrc m.here)).askReplay n m b 0
  else if crcOk then t.crossed n m b
  else t.askReplay n m b 0

/-- One hop of a message, or what its router does with it (R14, R16, R186): a message already on a link waits there for its replay. -/
def State.advance (s : State) (n : Nat) (crcOk : Bool) : State :=
  match s.msgs[n]? with
  | none => s
  | some m =>
    if m.bad then s
    else
      match (if s.isOpen m.dst then none else m.body.walker?) with
      | some (b, i, g, tid) => if (s.walker b i g).isSome then s.redirect n m b i g tid else s.cutMsg n
      | none =>
        if m.body.walker?.isNone && !s.reaches m.here m.dst then s.discard n m
        else
          match s.movable n with
          | none => s
          | some (_, x) =>
            match neighbour m.here x with
            | none => s
            | some b => s.hop n m x b crcOk

/-- `AVENUE_MESSAGE_RECEIVE` (R16): message `n` in flight at the next router, with the outcome of its CRC-16. -/
def execAvenueMessageReceive (n : Nat) (crcOk : Bool) (s : State) : Res :=
  .next (if s.active then s.advance n crcOk else s)

/-- A replay of a message received (R16): delivered once, or asked for again, or after the third the link closes. A link closed
meanwhile frees the message for another route. -/
def State.replayHop (s : State) (n : Nat) (crcOk : Bool) : State :=
  match s.msgs[n]? with
  | none => s
  | some m =>
    match m.via with
    | none => s
    | some b =>
      if !s.linkOpen m.here b then s.setMsg n { m with via := none, replays := 0 }
      else if crcOk then s.crossed n m b
      else if m.replays < 2 then s.askReplay n m b (m.replays + 1)
      else s.closeLink m.here b

/-- `AVENUE_REPLAY` (R16). -/
def execAvenueReplay (n : Nat) (crcOk : Bool) (s : State) : Res :=
  .next (if s.active then s.replayHop n crcOk else s)

end Sys2Proof.Machine
end

