-- ==== Sys2Proof/Machine/Caches.lean ====
section
/-! DEFINITION. Stack ports at work (R338, R349, R352, R356, R359), the scene aperture (R363), maintenance of the caches and copies
(R364 to R368), and their enabling (R360 to R362). -/

namespace Sys2Proof.Machine

/-! ## Maintenance (R365, R368) -/

/-- A range of scene addresses: its first address and the address after its last. -/
structure Range where
  lo : Nat
  hi : Nat
  deriving DecidableEq, Repr

/-- The range widened to whole 64-byte lines (R365). -/
def Range.widen (r : Range) : Range := { lo := r.lo / 64 * 64, hi := roundUp r.hi 64 }

/-- A line lies in a widened range. -/
def Range.has (r : Range) (a : Nat) : Bool := decide (r.lo ≤ a) && decide (a < r.hi)

/-- The operations of R365. -/
inductive MaintOp where
  | inval | clean | cleanInval | zero
  deriving DecidableEq, Repr

/-- The operation of a code, if it is one. -/
def maintOp? (code : Nat) : Option MaintOp :=
  match code with
  | 1 => some .inval
  | 2 => some .clean
  | 3 => some .cleanInval
  | 4 => some .zero
  | _ => none

/-- Whether an entry of the buffer holds a line of a range. -/
def State.bufferHas (s : State) (p : Nat) (r : Range) : Bool :=
  (s.port p).evict.any (fun l => (List.range 4).any (fun i => (l.sec i).dirty && r.has (l.addr + 64 * i)))

/-- The part of a range that `ZERO` acts on: the lines wholly inside it (R365). -/
def Range.inner (r : Range) : Range := { lo := roundUp r.lo 64, hi := r.hi / 64 * 64 }

/-- Prefetches of lines in a range discarded (R368). -/
def State.dropPrefetch (s : State) (p : Nat) (r : Range) : State :=
  s.updPort p (fun x => { x with misses := x.misses.filter (fun m => !(m.prefetch && r.has m.addr)) })

/-- Misses: those a test picks marked stale, so that their data goes to the requester and is not installed (R368). -/
def staleMisses (f : Nat → Bool) (ms : List Miss) : List Miss := ms.map (fun m => if f m.addr then { m with stale := true } else m)

/-- The fills pending for requesters of lines in a range marked stale. -/
def State.staleFills (s : State) (p : Nat) (r : Range) : State := s.updPort p (fun x => { x with misses := staleMisses r.has x.misses })

/-- The sectors of a port in a range changed by `f`, with no effect on the stack. -/
def StackPort.mapSecs (x : StackPort) (r : Range) (f : Sector → Sector) : StackPort :=
  { x with lines := x.lines.map (fun l => (List.range 4).foldl (fun m i => if r.has (m.addr + 64 * i) then m.setSec i (f (m.sec i)) else m) l) }

/-- Tags without a valid sector let go. -/
def StackPort.trim (x : StackPort) : StackPort := { x with lines := x.lines.filter (fun l => l.secs.any (·.valid)) }

/-- The lines of a range in a port made invalid, their dirty sectors discarded. -/
def State.stackInval (s : State) (p : Nat) (r : Range) : State := s.updPort p (fun x => (x.mapSecs r (fun _ => Sector.none)).trim)

/-- The dirty sectors of a range in a port written to the stack; the lines stay, clean. Fills pending there come first (R368). -/
def State.stackClean (s : State) (p : Nat) (r : Range) : State :=
  let s0 := s.fillAll p r.has
  let s1 := if s0.bufferHas p r then s0.flushBuffer p else s0
  let put (t : State) (l : SLine) : State := (List.range 4).foldl (fun u i =>
      if r.has (l.addr + 64 * i) then u.writeBack p (l.addr + 64 * i) (l.sec i) else u) t
  ((s1.port p).lines.foldl put s1).updPort p (fun x => x.mapSecs r Sector.cleaned)

/-- The lines wholly inside a range, from line `i` on, installed as zeros under the `HOST` class (R365). -/
def State.zeroLines (s : State) (a : Nat) : Nat → State
  | 0 => s
  | n + 1 => (s.sectorWrite (streamHost 0) a (zeroBytes 64)).zeroLines (a + 64) n

/-- Zeros installed over the lines wholly inside a range: what the buffer holds of them is written first (R365, R368). -/
def State.stackZero (s : State) (r : Range) : State :=
  let s1 := (List.range 6).foldl (fun t p => if t.bufferHas p r.inner then t.flushBuffer p else t) s
  s1.zeroLines r.inner.lo ((min r.inner.hi s.installed - r.inner.lo) / 64)

/-- Maintenance of the stack caches, with what it does to pending fills (R365, R368). -/
def State.stackMaint (s : State) (op : MaintOp) (r : Range) : State :=
  let each (w : Range) (f : State → Nat → State) : State := (List.range 6).foldl (fun t p => f (t.dropPrefetch p w) p) s
  match op with
  | .inval => each r.widen (fun t p => (t.staleFills p r.widen).stackInval p r.widen)
  | .clean => each r.widen (fun t p => t.stackClean p r.widen)
  | .cleanInval => each r.widen (fun t p => (t.stackClean p r.widen).stackInval p r.widen)
  | .zero => (each r.inner (fun t p => t.staleFills p r.inner)).stackZero r

/-- The node cache lines of a range made invalid in every district. -/
def State.nodeInval (s : State) (r : Range) : State :=
  { s with dists := s.dists.map (fun x => (x.1, { x.2 with ncache := x.2.ncache.filter (fun l => !r.has l.addr) })) }

/-- The desk cache lines of a range made invalid in every core. -/
def State.deskInval (s : State) (r : Range) : State :=
  { s with dists := s.dists.map (fun x => (x.1, { x.2 with core := { x.2.core with desk := x.2.core.desk.filter (fun l => !r.has l.addr) } })) }

/-- The treelets of plot and top copies that a range touches. -/
def State.copiesIn (s : State) (r : Range) : List Nat :=
  s.dists.foldl (fun acc x => x.2.plot.foldl (fun a p =>
    if p.2.tid * 65536 < r.hi && r.lo < (p.2.tid + 1) * 65536 then addNew a p.2.tid else a) acc) []

/-- The plot and top copies that a range touches go `DRAINING`, and loads of them are discarded (R195, R365, R368). -/
def State.plotInval (s : State) (r : Range) : State := (s.copiesIn r).foldl (fun t tid => t.drainTid tid) s

/-- A maintenance operation on a range, in each cache that the target selects (R365). -/
def State.maint (s : State) (op : MaintOp) (target : Nat) (r : Range) : State :=
  if r.hi ≤ r.lo then s
  else
    let w := if op = .zero then r.inner else r.widen
    let s1 := if bit target 0 then s.stackMaint op r else s
    let s2 := if bit target 1 then s1.nodeInval w else s1
    let s3 := if bit target 2 then s2.deskInval w else s2
    if bit target 3 && decide (w.lo < w.hi) then s3.plotInval w else s3

/-- Every on-block copy of a treelet invalidated, what is dirty written first (R125). -/
def State.refitInval (s : State) (tid : Nat) : State := s.maint .cleanInval 0xF { lo := tid * 65536, hi := (tid + 1) * 65536 }

/-- The treelets that a `REFIT` batch has written invalidated on the block, before its completion record is written (R125). -/
def State.invalWrote (s : State) (x : Batch) : State :=
  if x.wrote = [] then s else (x.wrote.foldl State.refitInval s).updBatch x.bid (fun y => { y with wrote := [] })

/-! ## The batch path (R366) -/

/-- The part of a range in granule `g`. -/
def Range.granule (r : Range) (g : Nat) : Range := { lo := max r.lo (g * 65536), hi := min r.hi ((g + 1) * 65536) }

/-- One granule of a `MAINT` batch: acted on where its tenant's live region allows, else skipped and counted. -/
def State.maintGranule (s : State) (x : Batch) (op : MaintOp) (target : Nat) (r : Range) (g : Nat) : State :=
  match regionAt x.regions (g * 65536) with
  | none => s.regViol x.bid
  | some reg =>
    if op = .zero && !reg.write then s.regViol x.bid
    else
      let part := r.granule g
      if op = .inval then ((s.maint .cleanInval (target % 2) part).maint .inval (target / 2 * 2) part) else s.maint op target part

/-- The operation of a `MAINT` batch with its maintenance record. -/
def State.maintBatch (s : State) (x : Batch) (mrec : List Byte) : State :=
  let lo := x.desc.root
  let n := bytesLe mrec 0 8 % 2 ^ 40
  let target := bytesLe mrec 8 1 % 16
  let t := match maintOp? x.desc.submode with
    | none => s
    | some op => if n = 0 then s else (granules lo n).foldl (fun u g => u.maintGranule x op target { lo := lo, hi := lo + n } g) s
  t.updBatch x.bid (fun y => { y with work := false })

/-- `MAINT_OPERATION` (R366): an admitted batch's operation, its record read through its stamp. -/
def execMaintOperation (b : Bid) (s : State) : Res :=
  .next (match s.batch b with
    | none => s
    | some x =>
      if !s.active || !x.work || x.stop || x.status.isSome || decide (x.st ≠ .admitted) then s
      else
        match s.stampRead b x.desc.inAddr 16 with
        | none => s
        | some bs => (s.hostRead 16).maintBatch x bs)

/-! ## The register path (R367) -/

/-- The range that the `BLK_MOP` registers name. -/
def State.mopRange (s : State) : Range :=
  let lo := s.rd Fld.blkMopBaseHiBase * 2 ^ 32 + s.rd Fld.blkMopBaseLoBase * 64
  { lo := lo, hi := lo + s.rd Fld.blkMopLenLen * 256 }

/-- An operation written to `BLK_MOP_CMD`: discarded on a halted page (R473) and, with `OVERRUN`, while one is in progress. A length of
zero does nothing. -/
def State.mop (s : State) (op : MaintOp) (code : Nat) (target : BitVec 4) : State :=
  s.guardWrite 0x00070 (fun t =>
    if t.halted .blk then t.parityCheck 0
    else if t.flag Fld.blkMopCmdBusy then t.wr Fld.blkMopCmdOverrun 1
    else
      let u := t.hostSet 0x00070 (BitVec.ofNat 32 (target.toNat * 256))
      let r := u.mopRange
      if r.hi ≤ r.lo then u
      else
        let v := (u.maint op target.toNat r).wr Fld.blkMopCmdBusy 1
        { v with gate := { v.gate with mop := some (code, target.toNat, r.lo, r.hi) } })

/-- `MOP_INVAL` (R367). -/
def execMopInval (target : BitVec 4) (s : State) : Res := .next (s.mop .inval 1 target)

/-- `MOP_CLEAN` (R367). -/
def execMopClean (target : BitVec 4) (s : State) : Res := .next (s.mop .clean 2 target)

/-- `MOP_CLEAN_INVAL` (R367). -/
def execMopCleanInval (target : BitVec 4) (s : State) : Res := .next (s.mop .cleanInval 3 target)

/-- `MOP_ZERO` (R367). -/
def execMopZero (target : BitVec 4) (s : State) : Res := .next (s.mop .zero 4 target)

/-- `MOP_COMPLETE` (R367): `BUSY` clears once no reset holds the operation (R456). -/
def execMopComplete (s : State) : Res :=
  .next (if !s.flag Fld.blkMopCmdBusy || s.resetHolds then s
    else (State.wr { s with gate := { s.gate with mop := none } } Fld.blkMopCmdBusy 0).status 0 1)

/-! ## Invalidate-all, enable, disable (R360 to R362) -/

/-- A host write to `BLK_CACHE_CTL` that keeps the enable bits, then `f`. -/
def State.cacheCtl (s : State) (f : State → State) : State := s.guardWrite 0x00060 (fun t => f (t.hostSet 0x00060 (t.reg 0x00060)))

/-- Every line of a stack cache invalid, its prefetches discarded, its pending fills stale; the eviction buffer still drains (R360, R368). -/
def State.scInvalAll (s : State) (p : Nat) : State :=
  s.updPort p (fun x => { x with lines := [], misses := staleMisses (fun _ => true) (x.misses.filter (fun m => !m.prefetch)), invDone := true })

/-- Every desk cache line of every core invalid. -/
def State.dcInvalAll (s : State) : State :=
  { s with
    dists := s.dists.map (fun x => (x.1, { x.2 with core := { x.2.core with desk := [] } }))
    gate := { s.gate with dcInv := true } }

/-- Every node cache line of every district invalid. -/
def State.ncInvalAll (s : State) : State :=
  { s with
    dists := s.dists.map (fun x => (x.1, { x.2 with ncache := [] }))
    gate := { s.gate with ncInv := true } }

/-- `SC_INV` (R360). -/
def execScInv (p : Port) (s : State) : Res := .next (s.cacheCtl (fun t => t.scInvalAll p.val))

/-- `DC_INV` (R360). -/
def execDcInv (s : State) : Res := .next (s.cacheCtl State.dcInvalAll)

/-- `NC_INV` (R360). -/
def execNcInv (s : State) : Res := .next (s.cacheCtl State.ncInvalAll)

/-- The enable bit of a cache, by its place in `BLK_CACHE_CTL`. -/
def cacheBit : CacheSel → Nat
  | .node => 0
  | .desk => 1
  | .stack p => 2 + p.val

/-- Whether an invalidate-all of a cache has completed since its enable bit was cleared. -/
def State.invalidated (s : State) (c : CacheSel) : Bool :=
  match c with
  | .node => s.gate.ncInv
  | .desk => s.gate.dcInv
  | .stack p => (s.port p.val).invDone

/-- An enable refused (R361). -/
def State.enableRefused (s : State) : State := (s.wr Fld.blkCacheCtlEnableRefused 1).report none (some 3) unitNone none

/-- `CACHE_ENABLE` (R361), with the arm of R510. -/
def execCacheEnable (c : CacheSel) (s : State) : Res :=
  .next (s.cacheCtl (fun t =>
    let f : Fld := ⟨0x00060, cacheBit c, cacheBit c⟩
    if t.flag f then t
    else if t.armed Fld.errInjectEnableRefused then (t.disarm Fld.errInjectEnableRefused).enableRefused
    else if t.invalidated c then t.hostSet 0x00060 (putField (t.reg 0x00060) (cacheBit c) (cacheBit c) 1)
    else t.enableRefused))

/-- A stack cache disabled (R362): its dirty sectors leave through the eviction buffer, and no prefetch is installed. -/
def State.scDisable (s : State) (p : Nat) : State :=
  let t := (s.port p).lines.foldl (fun u l => u.evictLine p l) s
  t.updPort p (fun x => { x with
    lines := x.lines.map (fun l => { l with secs := l.secs.map (fun y => { y with dirty := false }) })
    misses := staleMisses (fun _ => true) (x.misses.filter (fun m => !m.prefetch)), invDone := false })

/-- `CACHE_DISABLE` (R362). -/
def execCacheDisable (c : CacheSel) (s : State) : Res :=
  .next (s.cacheCtl (fun t =>
    let f : Fld := ⟨0x00060, cacheBit c, cacheBit c⟩
    if !t.flag f then t
    else
      let u := t.hostSet 0x00060 (putField (t.reg 0x00060) (cacheBit c) (cacheBit c) 0)
      match c with
      | .node => { u with gate := { u.gate with ncInv := false } }
      | .desk => { u with gate := { u.gate with dcInv := false } }
      | .stack p => u.scDisable p.val))

/-! ## The aperture (R363) -/

/-- A host access outside the register window: served, or held in Doze and Deep until Ready (R411), and only once the interleave is
fixed. -/
def State.aperture (s : State) (f : State → State) : State :=
  if s.phase ≠ .up then s
  else if 3 ≤ s.rd Fld.blkRungCurrent then { s with gate := { s.gate with held := some 0x100000 } }
  else f s

/-- A host read goes on from its next byte (R355, R363): sectors that its port can serve, then one miss of its stream. Beyond the
installed capacity it reads all-ones. -/
def State.apStep (s : State) (r : ApRead) : Nat → State × ApRead
  | 0 => (s, r)
  | k + 1 =>
    let a := r.next / 64 * 64
    let st := streamHost r.tag
    if r.addr + r.len ≤ r.next then (s, r)
    else if s.installed ≤ a then s.apStep (r.take a (List.replicate 64 0xFF) false) k
    else
      match s.portAt a with
      | none => s.apStep (r.take a (zeroBytes 64) true) k
      | some (p, loc) =>
        if (s.port p).misses.any (fun m => decide (m.addr = a)) then (s, r)
        else
          match s.sectorHit st p loc a with
          | (t, some x) => t.apStep (r.take a x.1 (t.readPoison a r.next (r.addr + r.len) x.2)) k
          | (t, none) =>
            if (t.port p).misses.any (fun m => decide (m.stream = st) && !m.prefetch) then (t, r)
            else
              (((t.count (unitStk p) 4 1).trainStride p st loc true).updPort p (fun x =>
                { x with misses := x.misses ++ [{ stream := st, addr := a, stale := false, prefetch := false }] }), r)

/-- A host read's data returned (R348, R363). -/
def State.apReturn (s : State) (r : ApRead) : State :=
  { s with gate := { s.gate with apTag := r.tag, apData := r.got, apPoison := r.poison } }

/-- The waiting host reads go on in order; those that have all their bytes are returned. -/
def State.apGo (s : State) : State :=
  s.gate.apWait.foldl (fun t r =>
    let q := State.apStep { t with gate := { t.gate with apWait := dropFirst (fun y => decide (y = r)) t.gate.apWait } } r (r.len / 64 + 2)
    if q.2.addr + q.2.len ≤ q.2.next then q.1.apReturn q.2
    else { q.1 with gate := { q.1.gate with apWait := q.1.gate.apWait ++ [q.2] } }) s

/-- The fills that the host reads picked by `f` wait for, made until they are returned; `fuel` bounds the sectors. -/
def State.apFinish (s : State) (f : ApRead → Bool) : (fuel : Nat) → State
  | 0 => s
  | k + 1 =>
    match s.gate.apWait.filter f with
    | [] => s
    | rs => State.apFinish (rs.foldl (fun t r => match t.portAt (r.next / 64 * 64) with
        | none => t
        | some (p, _) =>
          match (t.port p).misses.find? (fun m => decide (m.addr = r.next / 64 * 64) || (decide (m.stream = streamHost r.tag) && !m.prefetch)) with
          | some m => t.fill p m
          | none => t) s).apGo f k

/-- How many fills the waiting host reads may still need. -/
def State.apNeeds (s : State) : Nat := s.gate.apWait.foldl (fun n r => n + r.len / 64 + 2) 0

/-- `APERTURE_READ` (R363) with a host link tag: an earlier read of its stream is returned first (R355); bytes beyond the installed
capacity read as all-ones and are reported; poison is passed on (R348). -/
def execApertureRead (a : ApertureAt) (len : Nat) (s : State) : Res :=
  .next (s.aperture (fun t =>
    let t1 := t.apFinish (fun r => decide (streamHost r.tag = streamHost a.tag)) (t.apNeeds + 1)
    let r : ApRead := { tag := a.tag, addr := a.addr.toNat, len := len, next := a.addr.toNat, got := [], poison := false }
    let u := State.apGo { t1 with gate := { t1.gate with apWait := t1.gate.apWait ++ [r] } }
    if t.installed < a.addr.toNat + len then u.protocolError else u))

/-- `APERTURE_WRITE` (R347, R363): the host's earlier reads of the sectors it touches see what was there before; bytes beyond the
installed capacity are discarded and reported. -/
def execApertureWrite (a : ApertureAt) (data : List Byte) (s : State) : Res :=
  .next (s.aperture (fun t =>
    let t1 := t.apFinish (fun r => decide (r.addr / 64 * 64 < a.addr.toNat + data.length) && decide (a.addr.toNat / 64 * 64 < r.addr + r.len)) (t.apNeeds + 1)
    let inside := min data.length (t.installed - a.addr.toNat)
    let u := t1.sceneWrite (streamHost a.tag) a.addr.toNat (data.take inside)
    if inside < data.length then u.protocolError else u))

/-! ## Fills, prefetches, scrubbing, refresh -/

/-- `STACK_FILL` (R346, R352, R355, R356): the pending miss or prefetch of the stream filled, with the host reads that it serves, or a
sector filled that the stream asks for. -/
def execStackFill (p : Port) (st : Fin 1024) (addr : BitVec 40) (s : State) : Res :=
  let a := addr.toNat / 64 * 64
  .next (if s.phase ≠ .up || (s.port p.val).inResetP || decide ((s.portAt a).map (·.1) ≠ some p.val) then s
    else
      match (s.port p.val).misses.find? (fun m => decide (m.stream = st.val) && decide (m.addr = a)) with
      | some m => (s.fill p.val m).apGo
      | none => ((s.sectorRead st.val a).1).apGo)

/-- `EVICTION_WRITE` (R359): the oldest entry of a port's buffer written to its stack. -/
def execEvictionWrite (p : Port) (s : State) : Res :=
  .next (if (s.port p.val).inResetP then s else s.evictOldest p.val)

/-- A sector that a prefetch may ask for: in the granule of the access, not valid, not pending (R356). -/
def State.prefetchable (s : State) (p g a : Nat) : Bool :=
  decide (a / 65536 = g) && decide (a < s.installed)
    && (match (s.port p).line (a / 256 * 256) with
      | some l => !(l.sec (a % 256 / 64)).valid
      | none => true)
    && (s.port p).misses.all (fun m => decide (m.addr ≠ a))

/-- The prefetches of a stream whose detector has found a stride (R356). -/
def State.prefetchStream (s : State) (p st : Nat) : State :=
  match SMap.find (s.port p).strides st with
  | none => s
  | some k =>
    if !k.hot then s
    else
      match s.sceneOf p k.last with
      | none => s
      | some now =>
        let next (i : Nat) : Int := (k.last : Int) + k.stride * ((i + 1 : Nat) : Int)
        let at' (i : Nat) : Option Nat := if next i < 0 then none else (s.sceneOf p (next i).toNat).map (fun a => a / 64 * 64)
        (List.range (min 8 (s.rd (Fld.stkPfDepth p)))).foldl (fun t i => match at' i with
          | none => t
          | some a =>
            if t.prefetchable p (now / 65536) a then
              (t.updPort p (fun x => { x with misses := x.misses ++ [{ stream := st, addr := a, stale := false, prefetch := true }] })).count
                (unitStk p) 5 1
            else t) s

/-- `PREFETCH` (R356): not by a halted page's port (R473), nor into a disabled cache. -/
def execPrefetch (p : Port) (st : Fin 1024) (s0 : State) : Res :=
  let s := s0.checkPages [8 + p.val]
  .next (if !s.active || !s.present p.val || !s.scOn p.val || s.halted .stk p.val || (s.port p.val).inResetP then s
    else s.prefetchStream p.val st.val)

/-- The bytes a port's stack holds (R341). -/
def State.stackBytes (s : State) (p : Nat) : Nat := s.rd (Fld.stkCapCap p) * 2 ^ 20

/-- Whether the Counting House is dimming for debt (R349, R395). -/
def State.dimming (s : State) : Bool := s.flag Fld.pwrVstatusDim || s.flag Fld.pwrVstatusRowsMasked

/-- One scrub read of 256 bytes (R346, R349), at the port's next local address. -/
def State.scrub (s : State) (p : Nat) : State :=
  let pos := (s.port p).scrubPos
  let s1 := match s.sceneOf p pos with
    | some a => if pos < s.capC then ((s.stackReq p).stackWords p (a / 8) 32).1 else s
    | none => s
  let s2 := s1.count (unitStk p) 7 1
  if pos + 256 < s.stackBytes p then s2.updPort p (fun x => { x with scrubPos := pos + 256, scrubs := x.scrubs + 1 })
  else (s2.updPort p (fun x => { x with scrubPos := 0, scrubs := x.scrubs + 1 })).wr (Fld.stkScrubDone p) (min 65535 (s.rd (Fld.stkScrubDone p) + 1))

/-- `SCRUB_READ` (R349): up to `RATE` in a refresh interval. -/
def execScrubRead (p : Port) (s0 : State) : Res :=
  let s := s0.checkPages [8 + p.val]
  .next (if !s.active || !s.present p.val || s.halted .stk p.val || (s.port p.val).inResetP || s.dimming
        || decide (s.rd (Fld.stkScrubRate p.val) ≤ (s.port p.val).scrubs) then s
    else s.scrub p.val)

/-- `STACK_REFRESH` (R338, R349): a refresh interval of a present port begins. -/
def execStackRefresh (p : Port) (s : State) : Res :=
  .next (if s.present p.val then s.updPort p.val (fun x => { x with scrubs := 0, refresh := x.refresh + 1 }) else s)

end Sys2Proof.Machine
end

