-- ==== Sys2Proof/Machine/Districts.lean ====
section
/-! DEFINITION. Closing and reopening of districts by the host (R177, R181, R188), orderly and fault closures (R189), the
census and its replays (R191, R211, R323, R438), and failed cores (R438, R504, R505). -/

namespace Sys2Proof.Machine

/-! ## The host's controls -/

/-- `DST_CTL` written with `CLOSE` as `on` and `REOPEN` 0. -/
def State.dstCtl (s : State) (d : Nat) (on : Bool) : State :=
  s.guardWrite (pageReg .dst d 0x040) (fun t =>
    (t.hostSet (pageReg .dst d 0x040) (BitVec.ofNat 32 (b2n on))).setReason d rsHost on)

/-- `DST_CLOSE` (R188): `DST_CTL.CLOSE` = 1. -/
def execDstClose (d : Dist) (s : State) : Res := .next (s.dstCtl d.val true)

/-- `DST_OPEN` (R192): `DST_CTL.CLOSE` = 0. -/
def execDstOpen (d : Dist) (s : State) : Res := .next (s.dstCtl d.val false)

/-- `DST_REOPEN` (R188): `DST_CTL.REOPEN` ends a fault closure after a district reset that the district has passed. -/
def execDstReopen (d : Dist) (s : State) : Res :=
  .next (s.guardWrite (pageReg .dst d.val 0x040) (fun t =>
    if (t.dist d.val).renewed && !(t.dist d.val).testFail then t.setReason d.val rsFault false else t))

/-- Walkers of a side street lost because its place has changed (R181). -/
def State.loseStreet (s : State) (d : Nat) : State :=
  State.refreshDrained { s with walkers := s.walkers.filter (fun w => !(decide (w.dist = d) && (match w.st with
    | .spilled | .parked _ => true
    | .entering | .queued | .inProgram | .inSquare _ | .inTransit | .done => false))) } d

/-- `DST_SIDE_BASE_WRITE` (R177, R181, R188): `EN` = 0 closes the district with `NO_SIDE`. -/
def execDstSideBaseWrite (d : Dist) (v : Word) (s : State) : Res :=
  .next (s.guardWrite (pageReg .dst d.val 0x048) (fun t =>
    let u := t.hostSet (pageReg .dst d.val 0x048) v
    let u1 := if u.reg (pageReg .dst d.val 0x048) = t.reg (pageReg .dst d.val 0x048) then u else u.loseStreet d.val
    u1.setReason d.val rsNoSide (!v.getLsbD 0)))

/-! ## Orderly closure -/

/-- A walker sent on from a closed district. -/
def State.leave (s : State) (w : Walker) : State :=
  match s.leaveTo w with
  | some (e, tid) => s.sendWalker w e tid
  | none => s

/-- The walkers an orderly closure sends on (R189): queued, in squares, and unparked in the side street, in the order in which
they came to be there. -/
def State.leavers (s : State) (d : Nat) : List Walker :=
  sortBy (fun a b => decide (a.ord < b.ord)) (s.walkers.filter (fun w => decide (w.dist = d) && (match w.st with
    | .queued | .inSquare _ | .spilled => true
    | .entering | .inProgram | .inTransit | .parked _ | .done => false)))

/-- The squares of a district let go. -/
def State.noSquares (s : State) (d : Nat) : State := s.updDist d (fun x => { x with squares := [] })

/-- An orderly closure carried out (R189): while some district is open the walkers leave; the copies drain. -/
def State.orderly (s : State) (d : Nat) : State :=
  if allDists.any s.isOpen then
    let t := ((s.leavers d).foldl (fun u w => u.leave w) s).noSquares d
    ((t.dist d).plot.foldl (fun u p => u.drainSlot d p.1) t).refreshDrained d
  else s

/-- `ORDERLY_CLOSURE` (R189): not for a fault closure, and not above `TRIP`. -/
def execOrderlyClosure (d : Dist) (s : State) : Res :=
  .next (if s.walking d.val && !s.isOpen d.val then s.orderly d.val else s)

/-! ## Loss and census -/

/-- What a core runs or is to run. -/
def Core.invs (c : Core) : List Invocation :=
  c.waiting ++ (SMap.vals c.groups ++ SMap.vals c.parks).flatMap (·.invs)

/-- Some core holds an invocation that `p` holds of. -/
def State.running? (s : State) (p : Invocation → Bool) : Bool := s.dists.any (fun x => x.2.core.invs.any p)

/-- A walker in a program that no core holds any more. -/
def State.orphan (s : State) (w : Walker) : Bool :=
  decide (w.st = .inProgram) && !s.running? (fun i => decide (i.bid = w.bid) && decide (i.idx = w.idx) && decide (i.gen = w.gen))

/-- Walkers in programs that a fault took away are lost with them (R266, R438). -/
def State.loseOrphans (s : State) : State := { s with walkers := s.walkers.filter (fun w => !s.orphan w) }

/-- A census begun over the open districts (R191 step 2). -/
def State.startCensus (s : State) (d : Nat) : State :=
  { s with house := { s.house with census := some { dist := d, waiting := allDists.filter s.isOpen, since := s.clock } } }

/-- What a district loses with a fault (R189, R266); a failed core or tile stays failed (R504). -/
def District.lost (x : District) : District :=
  { x with squares := [], plot := [], memo := [], asked := [], heaps := [], ncache := [], faultDone := true,
           core := { x.core with waiting := [], groups := [], parks := [], inbox := [], desk := [] } }

/-- Whether a walker's result is written, or needs no write (R190). -/
def Walker.written (w : Walker) : Bool := decide (w.stage = .written) || decide (w.stage = .acked)

/-- Whether a district's fault loses a walker (R189, R194, R214): it is there and not `DONE`, or it is a probe whose heap is there and
whose result is not written. -/
def lostWith (d : Nat) (w : Walker) : Bool :=
  (decide (w.dist = d) && decide (w.st ≠ .inTransit) && decide (w.st ≠ .done)) || (match w.probe with
    | some p => decide (p.home = d) && !(decide (w.st = .done) && w.written)
    | none => false)

/-- A fault closure carried out (R189, R191 steps 1 and 2). -/
def State.faultLoss (s : State) (d : Nat) : State :=
  let t := s.updDist d District.lost
  ((State.loseOrphans { t with walkers := t.walkers.filter (fun w => !lostWith d w) }).startCensus d).refreshDrained d

/-- `FAULT_CLOSURE` (R191): once for each fault closure begun. -/
def execFaultClosure (d : Dist) (s : State) : Res :=
  .next (if (s.dist d.val).reasons.getLsbD 3 && !(s.dist d.val).faultDone then s.faultLoss d.val else s)

/-- Whether every walker message sent to a district before a census began, and that can reach it, has done so (R191 step 3). -/
def State.markersIn (s : State) (d since : Nat) : Bool :=
  s.msgs.all (fun m => !(decide (m.lane = .walker) && decide (m.dst = d) && decide (m.seq < since) && s.reaches m.here d))

/-- A message at a router that no route joins to the Gate's attachments: what it carries reaches no open district (R187). -/
def State.strandedMsg (s : State) (m : Msg) : Bool := gateDoors.all (fun g => !s.reaches m.here g || (s.dist m.here).routerDead)

/-- Walkers in messages that can reach no open district are not reported, and so are lost (R191 step 5); their messages go with them. -/
def State.loseStranded (s : State) : State :=
  let cut := s.msgs.filter (fun m => decide (m.lane = .walker) && s.strandedMsg m)
  if cut = [] then s
  else
    let has (w : Walker) : Bool := cut.any (fun m => match m.body with
      | .walker b i g _ _ => w.is b i g
      | .lookup _ | .lookupReply _ _ _ | .candidates _ _ _ _ _ | .tau _ _ _ _ | .endNotice _ _ _ _ _ | .send _ _ _ _ _ _
      | .sendStatus _ _ _ _ | .marker => false)
    { s with
      msgs := s.msgs.filter (fun m => decide (m ∉ cut))
      walkers := s.walkers.filter (fun w => !(decide (w.st = .inTransit) && has w)) }

/-- `CENSUS_MARKER` (R191 step 4): an open district has the markers and reports. -/
def execCensusMarker (d : Dist) (s : State) : Res :=
  .next (match s.house.census with
    | none => s
    | some c =>
      if d.val ∈ c.waiting ∧ s.markersIn d.val c.since then
        { s with house := { s.house with census := some { c with waiting := c.waiting.filter (fun e => decide (e ≠ d.val)) } } }
      else s)

/-- A walker or a `GENERATE` invocation of a batch is present somewhere. -/
def State.aliveIdx (s : State) (b : Bid) (i : Nat) : Bool :=
  s.walkers.any (fun w => decide (w.bid = b) && decide (w.idx = i))
    || s.running? (fun v => decide (v.bid = b) && decide (v.idx = i) && decide (v.entry = 4))

/-- The lost walkers of a run (R191 step 5): dealt, not done, and held nowhere. -/
def State.lostOf (s : State) (l : LedgerRun) : List Nat :=
  ((maskBits (l.dealt &&& ~~~l.done)).map (fun k => l.run * 64 + k)).filter (fun i => !s.aliveIdx l.bid i)

/-- The whole restart of an accumulating batch (R191, R323, R438). -/
def State.restart (s : State) (x : Batch) : State :=
  let t := s.abandon x.bid
  let u : State := { t with walkers := t.walkers.filter (fun w => decide (w.bid ≠ x.bid))
                            house := { t.house with ledger := t.house.ledger.filter (fun l => decide (l.bid ≠ x.bid)) } }
  (u.updTally x.bid (fun y => { y with
    restarts := y.restarts + 1, hits := 0, zeroed := false, nextIdx := 0, doneCount := 0, nextRun := 0, cursor := 0 })).count unitCh 7 1

/-- The heaps and interlocks of lost walkers let go (R214, R322). -/
def State.forget (s : State) (b : Bid) (is : List Nat) : State :=
  { s with
    locks := s.locks.filter (fun l => !(decide (l.bid = b) && decide (l.idx ∈ is)))
    dists := s.dists.map (fun p => (p.1, { p.2 with
      heaps := p.2.heaps.filter (fun h => !(decide (h.bid = b) && decide (h.idx ∈ is))) })) }

/-- One lost walker dealt again as a new walk (R154, R191 step 6, R214). -/
def State.redealOne (s : State) (x : Batch) (d gen i : Nat) : State :=
  if x.desc.isGen then
    s.invoke d { entry := 4, prog := x.desc.progMain, bid := x.bid, idx := i, gen := gen, cls := x.cls, hit := Hit.none }
  else
    let t := s.enterWalker (Walker.fresh x i (i / 64) gen d s.clock)
    if x.desc.isProbe then
      let a := x.desc.inAddr + 16 * i
      let u := t.stampHost x.bid a 16
      let h := Heap.fresh x.bid i gen (recChunks x.desc.k (s.ixDim (x.desc.root / 64 * 64)) ((s.stampRead x.bid a 16).getD []))
      u.updDist d (fun y => { y with heaps := y.heaps ++ [h] })
    else t

/-- The lost walkers of one run dealt to a district. -/
def State.redealTo (s : State) (x : Batch) (is : List Nat) (d : Nat) : State :=
  let s1 : State := { s with house := { s.house with lastDist := d }, clock := s.clock + 1 }
  ((is.foldl (fun t i => t.redealOne x d s.clock i) s1).count unitCh 6 is.length).wakeDist d

/-- The lost walkers of one run dealt again (R191 step 6), probes where their heaps have room (R211). -/
def State.redeal (s0 : State) (x : Batch) (is : List Nat) : State :=
  let s := s0.forget x.bid is
  if x.desc.isProbe then
    let need := is.length * s.batchChunks x
    match s.dealOrder.find? (fun d => decide (s.heapUsed d + need ≤ s.heapPool d)) with
    | none => s
    | some d =>
      match s.heapClear d need with
      | (t, true) => t.redealTo x is d
      | (t, false) => t
  else
    match s.dealOrder with
    | [] => s
    | d :: _ => s.redealTo x is d

/-- A batch whose lost walkers are walked again: it is not ending and not handed over. -/
def Batch.goesOn (x : Batch) : Bool := decide (x.status = none) && !x.stop && !x.handed

/-- The replays of one batch. -/
def State.replayBatch (s : State) (b : Bid) : State :=
  match s.batch b with
  | none => s
  | some x =>
    let runs := s.house.ledger.filter (fun l => decide (l.bid = b))
    let lost := runs.filter (fun l => decide (s.lostOf l ≠ []))
    if !x.goesOn || decide (lost = []) then s
    else if x.desc.accum then s.restart x
    else lost.foldl (fun t l => t.redeal x (t.lostOf l)) s

/-- Lost walkers are left that have still to be dealt again. -/
def State.stillLost (s : State) : Bool :=
  s.house.ledger.any (fun l => (match s.batch l.bid with
    | some x => x.goesOn
    | none => false) && decide (s.lostOf l ≠ []))

/-- A closure's census over, every district that a fault has closed goes into its reset (R451). -/
def State.resetFaulted (s : State) : State :=
  allDists.foldl (fun t d => let x := t.dist d
    if x.reasons.getLsbD 3 && x.faultDone && !x.renewed && !x.inReset then t.setDist d { x with inReset := true } else t) s

/-- `CENSUS_REPLAY` (R191 steps 5 and 6): once every open district has reported. -/
def execCensusReplay (s : State) : Res :=
  .next (match s.house.census with
    | none => s
    | some c =>
      if c.waiting.any s.isOpen || !s.running then s
      else
        let t := (s.batches.map (·.bid)).foldl (fun u b => u.replayBatch b) s.loseStranded
        if t.stillLost then t
        else State.resetFaulted { t with house := { t.house with census := none } })

/-! ## Failed cores -/

/-- A core fails (R438): its groups are lost with the walkers in them, what waits goes to a neighbour's core, and a census
finds what is to be walked again. -/
def State.failCore (s : State) (d : Nat) : State :=
  if (s.dist d).core.failed then s
  else
    let ws := (s.dist d).core.waiting
    let t := s.updDist d (fun x => { x with core := { x.core with
      failed := true, waiting := [], groups := [], parks := [], inbox := [], desk := [] } })
    ((ws.foldl (fun u i => u.invoke d i) t).loseOrphans).startCensus d

/-- A watch ring of a core expires (R505). -/
def State.coreExpiry (s : State) (d : Nat) : State := (s.report (some (0x40 + d, 2)) (some 17) d none).failCore d

/-- A matrix tile fails (R438, R505); with both failed the core fails. -/
def State.failTile (s : State) (d t : Nat) : State :=
  let u := (s.report (some (0x40 + d, 2)) (some 17) d none).updDist d (fun x => { x with core := { x.core with
    tiles := x.core.tiles ||| BitVec.ofNat 2 (2 ^ t) } })
  if (u.dist d).core.tiles = 3 then u.failCore d else u

end Sys2Proof.Machine
end

