-- ==== Sys2Proof/Machine/Shoot.lean ====
section
/-! DEFINITION. Shootdowns of translations (R376 to R378, R473). -/

namespace Sys2Proof.Machine

/-- The range of a shootdown: its first address and its length. -/
def State.shootRange (s : State) : Nat × Nat :=
  (s.rd Fld.lnkShootVaHiVa * 2 ^ 32 + s.rd Fld.lnkShootVaLoVa * 4096, s.rd Fld.lnkShootLenPages * 4096)

/-- Whether a page touches a range; an empty range touches none. -/
def touches (va size : Nat) (r : Nat × Nat) : Bool := decide (0 < r.2) && decide (va < r.1 + r.2) && decide (r.1 < va + size)

/-- Step 3 of R377: cache entries emptied, stamps withdrawn, and the writes issued with those translations marked; a descriptor not yet
accepted is stamped again. -/
def State.shootStart (s : State) : State :=
  let r := s.shootRange
  let stale (q : Nat) : Bool := s.stamps.any (fun e => decide (e.bid.que.val = q) && (s.batch e.bid).isNone && touches e.va e.size r)
  let qs := s.fetched.keys.filter stale
  let again (m : SMap Fetched) (q : Nat) : SMap Fetched := match SMap.find m q with
    | some f => SMap.put m q { f with stamped := false, fault := none }
    | none => m
  let keep (e : Stamp) : Bool := !((s.batch e.bid).isNone && decide (e.bid.que.val ∈ qs))
  let pages := (s.xc.filter (fun e => touches e.va e.size r)).map (fun e => (e.pa, e.size))
    ++ (s.stamps.filter (fun e => touches e.va e.size r)).map (fun e => (e.pa, e.size))
  let issued (h : HostWr) : HostWr :=
    { h with old := h.old || pages.any (fun p => decide (p.1 ≤ h.pa) && decide (h.pa < p.1 + p.2)) }
  { s with
    xc := s.xc.filter (fun e => !touches e.va e.size r)
    stamps := (s.stamps.filter keep).map (fun e => if touches e.va e.size r then { e with withdrawn := true } else e)
    hostWr := s.hostWr.map issued
    fetched := qs.foldl again s.fetched
    gate := { s.gate with shoot := true } }

/-- The parts of a batch's buffers that lie in a page: the `FACCESS` of their accesses, address, length, whether written. -/
def stampNeeds (d : Desc) (e : Stamp) : List (Nat × Nat × Nat × Bool) :=
  (d.extents.map (fun b => (b.1, max b.2.1 e.va, min (b.2.1 + b.2.2.1) (e.va + e.size) - max b.2.1 e.va, b.2.2.2))).filter (fun b => decide (b.2.2.1 ≠ 0))

/-- Extents stamped up to the first fault, with the `FACCESS` of the extent that faults (R336). -/
def State.stampNamed (s : State) (b : Bid) : List (Nat × Nat × Nat × Bool) → State × Option (Nat × Nat × Nat)
  | [] => (s, none)
  | (acc, va, n, w) :: rest =>
    match s.stampExtent b (bidRoot b) va n w (n / 4096 + 2) with
    | (t, some (c, a)) => (t, some (acc, c, a))
    | (t, none) => t.stampNamed b rest

/-- One withdrawn stamp walked again (R377 step 6): the new translation, or its batch parks. A parked batch is stamped from the start at
its resume (R378). -/
def State.rewalk (s : State) (e : Stamp) : State :=
  match s.batch e.bid with
  | none => s
  | some x =>
    if x.st = .parked then s
    else
      let t : State := { s with stamps := dropFirst (fun y => decide (y = e)) s.stamps }
      match t.stampNamed e.bid (stampNeeds x.desc e) with
      | (u, none) => u
      | (u, some (acc, c, a)) => State.xlateFault { u with stamps := u.stamps ++ [e] } e.bid .walking acc c a noWalker none

/-- Steps 5 to 8 of R377, once the transfers issued with the old translations are acknowledged and no reset holds it (R456); a length of zero completes at once
(R376). Where the new pages find no room in the stamp store the Gate waits (R373). Resumes that waited go on (R378). -/
def State.shootEnd (s : State) : State :=
  if s.gate.shoot && s.hostWr.all (fun h => !h.old) && !s.resetHolds then
    let t := (s.stamps.filter (·.withdrawn)).foldl (fun u e => u.rewalk e) s
    if stampCap < t.stamps.length then s
    else
      ((State.wr { t with gate := { t.gate with shoot := false } } Fld.lnkShootCtlBusy 0).status 1 1).resumeWaiting (fun _ => true)
  else s

/-- A shootdown asked for starts once the page is not halted (R473), and ends as soon as it can. -/
def State.shootTick (s : State) : State :=
  if s.flag Fld.lnkShootCtlBusy then
    (if s.gate.shoot then s else if s.halted .lnk then s else s.shootStart).shootEnd
  else s

/-- `SHOOTDOWN_GO` (R377): with one in progress it is discarded with `OVERRUN`. -/
def execShootdownGo (s : State) : Res :=
  .next (s.guardWrite 0x0106C (fun t =>
    if t.flag Fld.lnkShootCtlBusy then t.wr Fld.lnkShootCtlOverrun 1
    else (if t.halted .lnk then t.parityCheck 1 else t).wr Fld.lnkShootCtlBusy 1 |>.shootTick))

end Sys2Proof.Machine
end

