-- ==== Sys2Proof/Machine/Results.lean ====
section
/-! DEFINITION. Results and delivery: hit records (R303 to R307), probe results (R201, R308), the pack area and flushes (R309
to R315, R320), contributions (R316 to R319), done notices (R190), completion, seal and retirement (R71, R325 to R329, R424,
R425), wake messages and interrupts (R330 to R332, R447), and the fault ring (R333 to R337). -/

namespace Sys2Proof.Machine

/-! ## Records -/

/-- The hit record of a hit (R303, R305), or the miss record (R306). -/
def hitRecord : Option Hit → List Byte
  | some h => leBytes 4 h.t.toNat ++ leBytes 4 h.prim.toNat ++ leBytes 3 h.inst.toNat ++ [h.kind] ++ leBytes 2 (unorm16 h.b1) ++ leBytes 2 (unorm16 h.b2)
  | none => leBytes 4 0x7F800000 ++ leBytes 4 0xFFFFFFFF ++ leBytes 3 0xFFFFFF ++ [0] ++ leBytes 4 0

/-- The results of a probe: its list, padded to `K` (R201, R308). -/
def probeResult (k : Nat) (h : Heap) : List Byte :=
  let found := (h.ents.take k).flatMap (fun e => leBytes 4 e.2.1.toNat ++ leBytes 4 e.1.toNat)
  found ++ ((List.range (k - h.ents.length)).flatMap (fun _ => leBytes 4 0xFFFFFFFF ++ leBytes 4 0x7F800000))

/-- The walkers of a district in `DONE` at a stage, oldest first. -/
def State.doneAt (s : State) (d : Nat) (p : Walker → Bool) : List Walker :=
  sortBy (fun a b => decide (a.ord < b.ord)) (s.walkers.filter (fun w => decide (w.dist = d) && decide (w.st = .done) && p w))

/-! ## Result writes -/

/-- Whether any contribution of a walker is still to be retired or acknowledged (R318, R319). -/
def State.contributing (s : State) (w : Walker) : Bool :=
  s.contribs.any (fun c => decide (c.bid = w.bid) && decide (c.idx = w.idx))
    || s.hostWr.any (fun h => decide (h.fr = .result w.bid w.idx 0))

/-- A walker whose result needs no write of its own, or whose write has been acknowledged. -/
def State.ackWalker (s : State) (w : Walker) (hits : Nat) : State := s.setWalker { w with stage := .acked, hits := hits }

/-- A result written through the batch's stamps; a held transfer waits (R377, R427). -/
def State.putResult (s : State) (w : Walker) (va : Nat) (bs : List Byte) (hits : Nat) : State :=
  if !s.mayWrite w.bid then s
  else
    match s.stampWrite w.bid va bs (.result w.bid w.idx w.gen) with
    | none => s
    | some t => (t.gateTrip w.dist).setWalker { w with stage := .written, hits := hits }

/-- A probe's result, once its heap is complete (R201, R202, R213, R215). -/
def State.probeWrite (s : State) (x : Batch) (w : Walker) : State :=
  match s.heapOf w.dist w with
  | none => s
  | some h =>
    if h.total ≠ some h.got || (decide (x.desc.progMain ≠ 0) && !h.rerank) then s
    else if x.desc.k = 0 then s.ackWalker w h.visits
    else s.putResult w (x.desc.outAddr / 8 * 8 + w.idx * x.desc.k * 8) (probeResult x.desc.k h) h.ents.length

/-- The result of one walker of a batch that does not pack (R303, R318, R308). -/
def State.writeOne (s : State) (x : Batch) (w : Walker) : State :=
  if x.desc.isProbe then s.probeWrite x w
  else if x.desc.accum then (if s.contributing w then s else s.ackWalker w (b2n w.contrib))
  else if x.desc.raylike then s.putResult w (x.desc.outAddr / 16 * 16 + w.idx * 16) (hitRecord w.best) (b2n w.best.isSome)
  else s.ackWalker w w.hits

/-- Whether a walker waits for a write of its own. -/
def State.ownWrite (s : State) (w : Walker) : Bool :=
  decide (w.stage = .toWrite) && (match s.batch w.bid with
    | some x => !x.desc.packs
    | none => true)

/-- The first walker of a district whose result `f` moves on. -/
def State.firstMoved (s : State) (f : Walker → State) : List Walker → State
  | [] => s
  | w :: rest => if f w = s then s.firstMoved f rest else f w

/-- `RESULT_WRITE` (R303): the oldest result of a district that can be written. -/
def execResultWrite (d : Dist) (s : State) : Res :=
  .next (if !s.active then s
    else s.firstMoved (fun w => match s.batch w.bid with
      | none => s.ackWalker w 0
      | some x => s.writeOne x w) (s.doneAt d.val s.ownWrite))

/-! ## The pack area -/

/-- What a walker leaves in its pack block (R309, R314, R320): its hit record, or its partial with the slot it is for. -/
def packBytes (x : Batch) (w : Walker) : List Byte :=
  if x.desc.accum then wordsBytes w.part ++ leBytes 4 w.ray.slot.toNat else hitRecord w.best

/-- The scene address of a pack block, by its ledger entry's place (R309). -/
def State.packAt (s : State) (k : Nat) : Nat := s.rd Fld.chPackBaseBase * 65536 + 1024 * k

/-- A walker's output written into its place in the pack block of its run (R309, R311). -/
def State.packOne (s : State) (x : Batch) (w : Walker) : State :=
  let own (l : LedgerRun) : Bool := decide (l.bid = w.bid) && decide (l.run = w.run)
  let put (l : LedgerRun) : LedgerRun := { l with pack := SMap.put l.pack (w.idx % 64) (packBytes x w) }
  let hit := if x.desc.accum then w.contrib else w.best.isSome
  match s.house.ledger.find? own with
  | none => s.ackWalker w (b2n hit)
  | some l =>
    let t := s.recordPut streamPack (s.packAt l.place + 16 * (w.idx % 64)) 16
    State.ackWalker { t with house := { t.house with ledger := updFirst own put t.house.ledger } } w (b2n hit)

/-- Whether a walker waits for its place in a pack block; an unordered accumulating one only once its contributions are
acknowledged. -/
def State.packReady (s : State) (w : Walker) : Bool :=
  decide (w.stage = .toWrite) && (match s.batch w.bid with
    | some x => x.desc.packs && !(x.desc.accum && !x.desc.ordered && s.contributing w)
    | none => false)

/-- `PACK_WRITE` (R311). -/
def execPackWrite (d : Dist) (s : State) : Res :=
  .next (if !s.active then s
    else match s.doneAt d.val s.packReady with
    | [] => s
    | w :: _ => match s.batch w.bid with
      | none => s
      | some x => s.packOne x w)

/-- The four words of a slot as host memory shows them. -/
def State.slotWords (s : State) (x : Batch) (slot : Nat) : Option (List Word) :=
  (s.stampRead x.bid (x.desc.slotAddr / 16 * 16 + slot * 16) 16).map (fun bs => (List.range 4).map (fun i => bytesWord bs (4 * i)))

/-- Words added to a slot (R318). -/
def State.addSlot (s : State) (x : Batch) (slot : Nat) (ws : List Word) (fr : AckFor) : Option State :=
  match s.slotWords x slot with
  | none => none
  | some old => (s.hostRead 16).stampWrite x.bid (x.desc.slotAddr / 16 * 16 + slot * 16) (wordsBytes ((addWords old ws).take ws.length)) fr

/-- The partials of a run retired in ascending walker index (R320). -/
def State.retirePartials (s : State) (x : Batch) (l : LedgerRun) : List Nat → Option State
  | [] => some s
  | k :: rest =>
    let bs := (SMap.find l.pack k).getD []
    match s.addSlot x (bytesLe bs 16 4) ((List.range 4).map (fun i => bytesWord bs (4 * i))) (.batch x.bid) with
    | none => none
    | some t => t.retirePartials x l rest

/-- The bytes that the flush of a run writes at the cursor: the records of the walkers that hit (R314). -/
def flushRecords (l : LedgerRun) : List Byte := (maskBits l.hit).flatMap (fun k => (SMap.find l.pack k).getD [])

/-- The writes of a run's flush (R313 to R315, R320); `none` while a stamp is withdrawn. -/
def State.flushWrites (s : State) (x : Batch) (l : LedgerRun) : Option State :=
  let s1 := if x.desc.compress then
      s.stampWrite x.bid (x.desc.bitmapAddr / 8 * 8 + l.run * 8) (leBytes 8 l.hit.toNat) (.batch x.bid) else some s
  match s1 with
  | none => none
  | some t =>
    if x.desc.accum then (if x.desc.ordered then t.retirePartials x l (maskBits l.hit) else some t)
    else t.stampWrite x.bid (x.desc.outAddr / 16 * 16 + 16 * x.cursor) (flushRecords l) (.batch x.bid)

/-- `RUN_FLUSH` (R311): the batch's next run, once it has closed, its pack block read; a poisoned block is lost scene data (R348; DEDUCED,
assumption log 81). -/
def execRunFlush (b : Bid) (s : State) : Res :=
  .next (match s.batch b with
    | none => s
    | some x =>
      match s.house.ledger.find? (fun l => decide (l.bid = b) && decide (l.run = x.nextRun)) with
      | none => s
      | some l =>
        if !s.active || !x.desc.packs || x.status.isSome || x.stop || decide (l.done ≠ l.dealt) || !s.mayWrite b then s
        else
          let r := s.recordGet streamPack (s.packAt l.place) 1024
          if r.2 then r.1.sceneLost b none
          else
          match r.1.flushWrites x l with
          | none => s
          | some t => t.updBatch b (fun y => { y with nextRun := y.nextRun + 1, cursor := y.cursor + maskCount l.hit }))

/-! ## Contributions -/

/-- `CONTRIBUTION` (R319): the contribution that the Gate takes next, at its place in the waiting list. Those to a locked slot
wait (R322). -/
def execContribution (pick : Nat) (s : State) : Res :=
  .next (match s.contribs[pick]? with
    | none => s
    | some c =>
      match s.batch c.bid with
      | none => { s with contribs := s.contribs.eraseIdx pick }
      | some x =>
        if !s.active || !s.mayWrite c.bid || s.locks.any (fun l => decide (l.bid = c.bid) && decide (l.slot = c.slot)) then s
        else
          match State.addSlot { s with contribs := s.contribs.eraseIdx pick } x c.slot c.words (.result c.bid c.idx 0) with
          | none => s
          | some t => t)

/-! ## Done notices -/

/-- A done walker's bits set in its run's masks; a walker counted twice is counted once (R190). -/
def State.ledgerDone (s : State) (x : Batch) (w : Walker) : State :=
  let isRun (l : LedgerRun) : Bool := decide (l.bid = w.bid) && decide (l.run = w.run)
  match s.house.ledger.find? isRun with
  | none => s
  | some l =>
    let m := maskOne (w.idx % 64)
    if l.done &&& m ≠ 0 then s
    else
      let new (r : LedgerRun) : LedgerRun := { r with done := r.done ||| m, hit := if w.hits = 0 then r.hit else r.hit ||| m }
      State.updBatch { s with house := { s.house with ledger := updFirst isRun new s.house.ledger } } x.bid
        (fun y => { y with doneCount := y.doneCount + 1, hits := (y.hits + w.hits) % 2 ^ 32 })

/-- One walker's done notice (R190, R194, R211): its slot and its chunks are freed. Those of a batch that has stopped count
no more (R326). -/
def State.noticeOne (s : State) (w : Walker) : State :=
  let t := match s.batch w.bid with
    | none => s
    | some x => if x.status.isSome || x.stop then s else s.ledgerDone x w
  State.updDist { t with walkers := dropFirst (fun y => y.is w.bid w.idx w.gen) t.walkers } w.dist (fun x => { x with
    heaps := x.heaps.filter (fun h => !(decide (h.bid = w.bid) && decide (h.idx = w.idx) && decide (h.gen = w.gen))) })

/-- The `STATE` messages that carry the charges with a done notice (R423). -/
def State.noticeTwin (s : State) (b : Bid) : State :=
  match s.batch b with
  | none => s
  | some x => if b.held || !s.mirrored then s else s.twinSend (.state (BitVec.ofNat 14 x.tly) x.stateRec)

/-- `DONE_NOTICE` (R190, R380): one notice, merged for the walkers of one run that are acknowledged at a district, whose entry in the ledger
is read and written back; the charges that the district's meter reports with it. -/
def execDoneNotice (r : DoneReport) (s : State) : Res :=
  .next (if !s.active then s
    else match s.doneAt r.dist.val (fun w => decide (w.stage = .acked)) with
    | [] => s
    | w :: rest =>
      let same := w :: rest.filter (fun y => decide (y.bid = w.bid) && decide (y.run = w.run))
      let t := r.charges.foldl (fun u c => u.meter (.district r.dist) c.1 c.2) s
      ((((same.foldl (fun u y => u.noticeOne y) t).ledgerUpd w.bid w.run id).noticeTwin w.bid)).refreshDrained r.dist.val)

/-! ## The tally at completion -/

/-- A batch's entries read before it completes (R437): a lost entry stops its queue, a lost header every queue that holds an
unsealed batch. -/
def State.tallyOk (s : State) (x : Batch) : State × Bool :=
  if x.bid.held then (s, true)
  else
    let h := s.tallyEntryRead x.tly
    if !h.2 then
      (h.1.headerLost, false)
    else
      let r := (List.range (x.entries - 1)).foldl (fun r j => let q := r.1.tallyEntryRead (r.1.tallyIdx x.tly (j + 1)); (q.1, r.2 && q.2)) (h.1, true)
      if r.2 then r else ({ r.1 with tallyStop := addNew r.1.tallyStop x.bid.que.val }, false)

/-! ## Completion -/

/-- The completion record (R325 to R328). -/
def completionRecord (s : State) (x : Batch) : List Byte :=
  let status : Byte := match x.status with
    | some c => c
    | none => if x.trapped then 0x40 else if 0 < x.cdefer then 0x01 else 0x00
  let sat (n m : Nat) : Nat := min n m
  leBytes 4 x.bid.seq.toNat
  ++ [status, BitVec.ofNat 8 (x.mode + (if x.desc.fmt = 1 then 4 else 0) + (if 0 < x.restarts then 8 else 0) + s.side * 16),
      BitVec.ofNat 8 x.bid.que.val, BitVec.ofNat 8 (sat x.cdefer 255)]
  ++ leBytes 4 (if x.desc.isMaint then 0 else x.desc.count) ++ leBytes 4 (x.hits % 2 ^ 32) ++ leBytes 4 (sat x.beads 0xFFFFFFFF)
  ++ leBytes 4 x.desc.tag.toNat
  ++ leBytes 2 (sat x.fmtv 65535) ++ leBytes 2 (sat x.regv 65535)
  ++ [x.crcode, BitVec.ofNat 8 (sat x.parks 255), BitVec.ofNat 8 (sat x.restarts 255), BitVec.ofNat 8 (sat x.traps 255)]

/-- Every write of a batch's results has been acknowledged. -/
def State.writesAcked (s : State) (b : Bid) : Bool :=
  s.hostWr.all (fun h => match h.fr with
    | .result x _ _ => decide (x ≠ b)
    | .batch x | .store x _ _ => decide (x ≠ b)
    | .completion _ | .fault | .free => true)

/-- Step 9 of R71 may be taken: every result acknowledged, every run flushed (R311), or the status fixed. -/
def State.finished (s : State) (x : Batch) : Bool :=
  s.writesAcked x.bid && (x.status.isSome || (!x.stop && decide (0 < x.admitOrd) && decide (x.doneCount = x.desc.walkers) && !x.refit && !x.work
    && (!x.desc.packs || decide (x.desc.walkers ≤ x.nextRun * 64)) && s.contribs.all (fun c => decide (c.bid ≠ x.bid))))

/-- A batch in a state from which step 9 goes on: not parked, or parked for work that its fixed status has ended. -/
def Batch.completable (x : Batch) : Bool :=
  match x.st with
  | .accepted | .admitted => true
  | .parked => x.status.isSome && !(decide (x.parkAt = some .completion) || decide (x.parkAt = some .sealing))
  | .completing | .isSealed => false

/-- A seal word has passed a sequence number (R424). -/
def passed (w seq : Word) : Bool := let d := (w - seq).toNat; decide (1 ≤ d) && decide (d ≤ 2 ^ 31 - 1)

/-- The new `EST` of a queue (R387). -/
def estNext (est beads walkers : Nat) : Nat := est - est / 8 + beads * 256 / walkers / 8

/-- Whether the seal of a batch updates its queue's estimate (R387). -/
def estCounts (x : Batch) : Bool := decide (x.status = none) && !x.trapped && !x.desc.isMaint && decide (1 ≤ x.desc.count)

/-- Status bits of a queue when its last batches seal (R482). -/
def State.queueSealed (s : State) (q : Nat) (was : Nat) : State :=
  let t := if decide (q ∈ s.cancels) && (s.unsealed q).all (fun x => !x.canceled) then
      State.status { s with cancels := s.cancels.filter (fun x => decide (x ≠ q)) } (0xC0 + q) 3 else s
  if was = 3 ∧ t.queState q = 1 then t.status (0xC0 + q) 2 else t

/-- `CBEADS` of a batch (R328): as its completion record gave it, saturated. -/
def Batch.spent (x : Batch) : Nat := x.cbeads.getD (min x.beads 0xFFFFFFFF)

/-- Step 11 of R71: accounts settled (R382, R387, R393), entries and stamps freed, the twin told (R419, R432); a batch that is
still to be announced stays, sealed. -/
def State.retire (s : State) (x : Batch) (didSeal : Bool) : State :=
  let q := x.bid.que.val
  let was := s.queState q
  let s1 := if decide (0 < x.admitOrd) then
      s.setDeficit x.tenant x.cls (s.deficit x.tenant x.cls + ((x.est : Nat) : Int) - ((x.spent : Nat) : Int)) else s
  let s2 := if didSeal && estCounts x then
      s1.setReg (pageReg .que q 0x070) (BitVec.ofNat 32 (estNext (s1.rd (Fld.queEstEst q)) x.spent x.desc.count)) else s1
  let s3 := (if x.bid.held then s2 else
      s2.updTally x.bid (fun y => if didSeal then { y with st := .isSealed, parkAt := none } else y)).clearBatch x
  let s4 := if x.bid.held then (if x.twinCopy && didSeal then s3.twinSend (.sealDone x.bid.que x.bid.seq) else s3)
    else (if s3.mirrored then s3.twinSend (.retire (BitVec.ofNat 14 x.tly)) else s3).count unitTly 1 x.entries
  let s5 : State := if x.bid.held then
      { s4 with twin := { s4.twin with mirrors := s4.twin.mirrors.filter (fun m => decide (m.idx.toNat ≠ x.tly)) } } else s4
  let s6 : State := if didSeal && (x.wake || x.irq) then { s5 with batches := s5.batches ++ [{ x with st := .isSealed, parkAt := none, cmtLeft := 0 }] } else s5
  ((s6.topSweep).wantRound).queueSealed q was

/-- The seal detector's report of R424 and R425. -/
def State.sealConflict (s : State) : State := s.report none (some 13) unitGate (some 0x0B)

/-- A held batch handed off by a live twin waits for the seal before it (R69, R71). -/
def State.sealWaits (s : State) (x : Batch) (w : Word) : Bool :=
  x.bid.held && !s.flag Fld.twnStatusHolding && decide (w ≠ x.bid.seq) && !passed w x.bid.seq

/-- Step 9 of R71 for a batch whose turn it is (R69, R73, R424). -/
def State.completeNow (s : State) (x : Batch) : State :=
  let b := x.bid
  let r := s.queRec b
  let s0 := if x.st = .parked then s.updTally b (fun y => { y with st := if y.admitOrd = 0 then .accepted else .admitted, parkAt := none }) else s
  match s0.readVa (bidRoot b) (recSeal r) 8 with
  | (t, .fault c a) => t.xlateFault b .completion 0x06 c a noWalker none
  | (t, .ok bs) =>
    if t.sealWaits x (bytesWord bs 0) then t
    else if passed (bytesWord bs 0) b.seq then t.sealConflict.retire x false
    else
      match t.writeVa (bidRoot b) (recCompl r + b.seq.toNat % (field r.depth 16 0) * 32) (completionRecord t x) (.completion b) with
      | (u, .fault c a) => u.xlateFault b .completion 0x05 c a noWalker none
      | (u, .ok ()) => u.updTally b (fun y => { y with st := .completing, parkAt := none, cbeads := some (min x.beads 0xFFFFFFFF) })

/-- `COMPLETION_WRITE` (R71 step 9), after the treelets that the batch has written are invalidated (R125). -/
def execCompletionWrite (b : Bid) (s0 : State) : Res :=
  let s := s0.checkPages (if b.held then [] else [0xC0 + b.que.val])
  .next (match s.batch b with
    | none => s
    | some x =>
      if !s.active || !x.completable || !s.finished x || x.handed || decide (s.earlier x ≠ []) || !s.mayWrite b
          || decide (b.que.val ∈ s.tallyStop && !b.held) || (!b.held && s.halted .que b.que.val) then s
      else
        match s.tallyOk x with
        | (t, false) => t
        | (t, true) => (t.invalWrote x).completeNow x)

/-! ## Seal -/

/-- Step 10 of R71: the compare-and-swap of the seal word, and what it comes to (R73, R425). -/
def State.sealNow (s : State) (x : Batch) : State :=
  let b := x.bid
  let va := recSeal (s.queRec b)
  match s.xlate (bidRoot b) va 8 true with
  | (t, .fault c a) => t.xlateFault b .sealing 0x06 c a noWalker none
  | (t, .ok ps) =>
    if t.armed Fld.lnkInjectSealCas then ((t.disarm Fld.lnkInjectSealCas).sealConflict).park b .sealing
    else
      let u := t.hostRead 8
      let w : Word := BitVec.ofNat 32 (leNat ((ps.flatMap (fun p => u.hostBytes p.1 p.2)).take 4))
      if w = b.seq then (((u.hostWriteParts ps (leBytes 8 ((b.seq.toNat + 1) % 2 ^ 32)) .free).count unitGate 2 1)).retire x true
      else if passed w b.seq then u.sealConflict.retire x false
      else (u.sealConflict).park b .sealing

/-- `SEAL_CAS` (R425): after the completion record is acknowledged and the seal before it. -/
def execSealCas (b : Bid) (s : State) : Res :=
  .next (match s.batch b with
    | none => s
    | some x =>
      if !s.active || decide (x.st ≠ .completing) || s.hostWr.any (fun h => decide (h.fr = .completion b)) || decide (s.earlier x ≠ [])
          || !s.mayWrite b then s
      else s.sealNow x)

/-! ## Wake and interrupts -/

/-- An interrupt message: a 4-byte write to a fabric address that is never translated; an address of zero sends nothing
(R447). -/
def State.sendIrq (s : State) (lo hi data : Nat) : State × Bool :=
  let a := (s.reg hi).toNat % 2 ^ 20 * 2 ^ 32 + (s.reg lo).toNat / 4 * 4
  if a = 0 then (s, false)
  else
    let t : State := { s with host := Memory.store s.host a (leBytes 4 (s.reg data).toNat), gate := { s.gate with irqs := s.gate.irqs ++ [(a, s.reg data)] } }
    ((t.count unitGate 4 4).hostArm, true)

/-- The wake message (R330), or the record of its fault (R332). -/
def State.wakeWrite (s : State) (x : Batch) : State :=
  let status : Byte := match x.status with
    | some c => c
    | none => if x.trapped then 0x40 else if 0 < x.cdefer then 0x01 else 0x00
  let msg := leBytes 4 x.bid.seq.toNat ++ [status, BitVec.ofNat 8 x.bid.que.val, 0, 0] ++ leBytes 4 x.desc.tag.toNat ++ leBytes 4 0
  match s.writeVa (bidRoot x.bid) (x.desc.wakeAddr / 16 * 16) msg .free with
  | (t, .ok ()) => t.count unitGate 9 1
  | (t, .fault c a) =>
    let r := faultBytes 4 0x0A 0 (t.sideOf x.bid) x.bid.seq x.bid.que.val c x.tenant a noWalker
    State.report { t with faults := t.faults ++ [{ bytes := r, bid := x.bid, gate := true, key := 0 }] } none (some 19) unitGate none

/-- The queue's interrupt (R330, R447), or `HELD_IRQ` for a batch of the twin's side (R430). -/
def State.queueIrq (s : State) (x : Batch) : State :=
  if x.bid.held then s.twnEvent Fld.twnEventHeldIrq
  else
    let q := x.bid.que.val
    match s.sendIrq (pageReg .que q 0x074) (pageReg .que q 0x078) (pageReg .que q 0x07C) with
    | (t, true) => t.count unitGate 0x0A 1
    | (t, false) => t

/-- `WAKE_MESSAGE` (R330): after a seal the wake message, then the interrupt, at most once (R331). -/
def execWakeMessage (b : Bid) (s : State) : Res :=
  .next (match s.batch b with
    | none => s
    | some x =>
      if !s.active || decide (x.st ≠ .isSealed) || !s.mayWrite b then s
      else
        let t := if x.wake then s.wakeWrite x else s
        let u := if x.irq then t.queueIrq x else t
        match u.batch b with
        | some y => u.goneBatch y
        | none => u)

/-- `EVENT_INTERRUPT` (R447): the requests merged since the last are sent as one message. -/
def execEventInterrupt (s0 : State) : Res :=
  let s := s0.checkPages [1]
  .next (if !s.gate.evtWant || s.halted .lnk then s
    else (State.sendIrq { s with gate := { s.gate with evtWant := false } } 0x01070 0x01074 0x01078).1)

/-! ## The fault ring -/

/-- The fault ring is full (R333). -/
def State.fringFull (s : State) : Bool :=
  decide (s.rd Fld.lnkFringTailIndex = s.rd Fld.lnkFringHeadIndex) && decide (s.rd Fld.lnkFringTailPhase ≠ s.rd Fld.lnkFringHeadPhase)

/-- The record at the front gone: the report it was formed from is marked written, and a resume that waited for it is made (R72, R264, R334). -/
def State.recordDone (s : State) (f : FaultRec) : State :=
  let kind := bytesLe f.bytes 0 1
  let own (r : ParkReport) : Bool := decide (r.bid = f.bid) && decide (r.key = f.key)
    && ((decide (kind = 1) && !r.absent) || (decide (kind = 2) && r.absent))
  (State.resumeWaiting { s with faults := s.faults.drop 1, reports := updFirst own (fun r => { r with written := true }) s.reports }
    (fun x => decide (x.bid = f.bid))).trapsOver f.bid

/-- A trap record written counts in `CTRAPS` (R328). -/
def State.countTrap (s : State) (f : FaultRec) : State :=
  if bytesLe f.bytes 0 1 = 3 then s.updBatch f.bid (fun x => { x with traps := x.traps + 1 }) else s

/-- A record discarded and counted in `LOST` (R333, R334). -/
def State.recordLost (s : State) (f : FaultRec) : State :=
  ((s.recordDone f).wr Fld.lnkFringCtlLost (min 255 (s.rd Fld.lnkFringCtlLost + 1))).status 1 4

/-- `FAULT_RECORD_WRITE` (R334): the oldest record formed, one at a time. -/
def execFaultRecordWrite (s0 : State) : Res :=
  let s := s0.checkPages [1]
  .next (match s.faults with
    | [] => s
    | f :: _ =>
      if s.halted .lnk || s.hostWr.any (fun h => decide (h.fr = .fault)) then s
      else if s.rd Fld.lnkFringCtlDepth = 0 then s.recordLost f
      else if s.fringFull then
        (if s.flag Fld.lnkFringCtlFull then s else (s.wr Fld.lnkFringCtlFull 1).status 1 2)
      else
        let va := s.rd Fld.lnkFringHiAddrHi * 2 ^ 32 + s.rd Fld.lnkFringLoAddrLo * 64 + s.rd Fld.lnkFringTailIndex * 64
        match s.writeVa .gate va f.bytes .fault with
        | (t, .fault _ _) => t.recordLost f
        | (t, .ok ()) => t)

/-- `FRING_HEAD_WRITE` (R333, R334): the host has read records; the Gate waits no longer once there is room. -/
def execFringHeadWrite (v : Word) (s : State) : Res :=
  .next (s.guardWrite 0x01050 (fun t =>
    let u := t.hostSet 0x01050 v
    if u.fringFull then u else u.wr Fld.lnkFringCtlFull 0))

/-- The record at the tail acknowledged: the tail advances, and the fault interrupt follows if enabled (R334). -/
def State.recordAcked (s : State) : State :=
  let s1 := match s.faults with
    | [] => s
    | f :: _ => (s.countTrap f).recordDone f
  let i := s1.rd Fld.lnkFringTailIndex + 1
  let s2 := if i < s1.rd Fld.lnkFringCtlDepth then s1.wr Fld.lnkFringTailIndex i
    else (s1.wr Fld.lnkFringTailIndex 0).wr Fld.lnkFringTailPhase (1 - s1.rd Fld.lnkFringTailPhase)
  (s2.count unitGate 8 1).status 1 0

/-! ## The host link -/

/-- What an acknowledgement lets happen (R71, R190, R334). -/
def State.acked (s : State) (fr : AckFor) : State :=
  match fr with
  | .result b i g =>
    if s.hostWr.any (fun h => decide (h.fr = .result b i g)) then s
    else s.updWalker (fun w => w.is b i g && decide (w.stage = .written)) (fun w => { w with stage := .acked })
  | .fault => if s.hostWr.any (fun h => decide (h.fr = .fault)) then s else s.recordAcked
  | .batch _ | .store _ _ _ | .completion _ | .free => s

/-- `HOST_WRITE_ACK` (R71): host memory acknowledges the write at a place of the list of those outstanding. -/
def execHostWriteAck (n : Nat) (s : State) : Res :=
  .next (match s.hostWr[n]? with
    | none => s
    | some h => (State.acked { s with hostWr := s.hostWr.eraseIdx n } h.fr).shootTick)

/-- `HOST_READ_DATA` (R445): host memory shows the block these bytes at a physical address. -/
def execHostReadData (pa : BitVec 52) (data : List Byte) (s : State) : Res :=
  .next { s with host := Memory.store s.host pa.toNat data }

end Sys2Proof.Machine
end

