-- ==== Sys2Proof/Machine/Traverse.lean ====
section
/-! DEFINITION. Traversal and triangle cells: node steps with the refinement cascade (R93 to R106, R132 to R138), links,
instance entry (R139 to R143), leaves with programs (R112, R133), and triangle tests (R107, R108, R144 to R149). -/

namespace Sys2Proof.Machine

/-! ## A cell takes a walker -/

/-- Walkers a cell of a district may take: `QUEUED`, with work that `p` admits and the bytes at hand (R174, R175, R182). -/
def State.ready (s : State) (d : Nat) (p : WItem → Bool) : List Walker :=
  s.walkers.filter (fun w => decide (w.dist = d) && decide (w.st = .queued) && (match w.work with
    | i :: _ => p i && (s.stays w.bid || (s.copyFor w (i.addr / 65536)).isSome)
    | [] => false))

/-- The walker a free cell takes: Express first, the others in the order in which they became `QUEUED` (R174). -/
def State.nextReady (s : State) (d : Nat) (p : WItem → Bool) : Option Walker :=
  leastBy (fun w => (if w.express then 0 else 2 ^ 64) + w.ord) (s.ready d p)

/-- The district's step ring expires (R505): fault closure. -/
def State.stepExpiry (s : State) (d : Nat) : State := (s.report (some (0x40 + d, 2)) (some 17) d none).faultClose d

/-- A walker taken by a cell: its slot read, and the `STEP` arm (R507, R509). `none` where the district closes for it. -/
def State.takeWalker (s : State) (w : Walker) : State × Option Walker :=
  let r := s.readSlot w
  if r.1.armed (Fld.dstInjectStep w.dist) then ((r.1.disarm (Fld.dstInjectStep w.dist)).stepExpiry w.dist, none) else r

/-- A list begun at another place: the order in which accepted children are visited is free (R153). -/
def rotate {α : Type} (l : List α) (n : Nat) : List α :=
  if l = [] then l else l.drop (n % l.length) ++ l.take (n % l.length)

/-! ## Nodes -/

/-- The children of a node a ray may be tested against (R62, R63, R102, R104), malformed ones left out. -/
def openChildren (w : Walker) (bs : List Byte) (len : Nat) : List Nat :=
  (List.range (nodeChildren bs)).filter (fun c =>
    let k := childKind bs c
    !childEmpty bs c && !childBad bs len c && decide (w.ray.mask.toNat &&& childMask bs c ≠ 0)
      && !(w.ray.skipTri && decide (k = 4)) && !(w.ray.skipCustom && decide (6 ≤ k)))

/-- The format violations of a node's present children (R101, R102, R119). -/
def badChildren (bs : List Byte) (len : Nat) : Nat :=
  (List.range (nodeChildren bs)).foldl (fun n c => if childEmpty bs c then n else n + childViols bs len c) 0

/-- What the cascade of R137 leaves of a node's children, with the beats it takes (R138) and the malformed exact entries
it reads (R103). `tab` is the exact-box table. -/
def cascade (x : Batch) (w : Walker) (c : Carry) (bs tab : List Byte) (len : Nat) : List Nat × Nat × Nat :=
  let tmin := f32 w.ray.tmin
  let tlim := tLimit x w
  let fine := nodeFine bs
  let l4 := (openChildren w bs len).filter (childTest c tmin tlim bs true)
  let wide := fine && decide (2 ≤ x.desc.refine) && decide (l4 ≠ [])
  let l8 := if wide then l4.filter (childTest c tmin tlim bs false) else l4
  let leafy (k : Nat) : Bool := decide (4 ≤ childKind bs k)
  let exact := nodeExact bs && decide (x.desc.refine = 3) && l8.any leafy
  let entry (k : Nat) : V3 × V3 := boxFaces tab (32 * (exactChildren bs).idxOf k)
  let bad := if exact then l8.filter (fun k => leafy k && boxBad (entry k)) else []
  let l32 := if exact then l8.filter (fun k => !leafy k || (!boxBad (entry k) && facesTest c tmin tlim (entry k))) else l8
  (l32, 1 + b2n wide + b2n exact, bad.length)

/-- The work a visited child adds (R93, R101, R102, R105): for a leaf child, its records that are in place. -/
def childItem (bs : List Byte) (len base ctx : Nat) (fl : PathFlags) (c : Nat) : WItem :=
  let a := base + 64 * childUnit bs c
  let f := childFlags bs c
  let fl1 : PathFlags := { fl with noAnyhit := fl.noAnyhit || bit f 0, noCull := fl.noCull || bit f 1 }
  match childKind bs c with
  | 1 => .node a (some 1) ctx fl1
  | 2 => .node a (some 2) ctx fl1
  | 3 => .link a ctx fl1
  | k => let g := childGood bs len c; .leaf k (a + 64 * kindUnits k * g.1) g.2 ctx fl1

/-- A step done: the walker goes on with `work` (R194). -/
def State.goOn (s : State) (w : Walker) (work : List WItem) : State := s.place { w with work := work }

/-- A malformed node prunes the branch that led to it (R119). -/
def State.prune (s : State) (w : Walker) (rest : List WItem) : State := (s.fmtViol w.bid).goOn w rest

/-- The length in units of a treelet by its header, `none` where `TL_KIND` is reserved (R92, R119). -/
def treeletLen (hdr : List Byte) : Option Nat := if 2 ≤ tlKind hdr then none else some (tlLen hdr)

/-- A ray node's own checks (R94, R95, R102, R103, R106): its class, its place, its table. -/
def rayNodeBad (bs : List Byte) (len unit : Nat) (cls : Option (BitVec 2)) : Bool :=
  let k := nodeClass bs
  !(decide (k = 1) || decide (k = 2)) || (match cls with
    | some c => decide (k ≠ c.toNat)
    | none => false)
  || decide (unit = 0) || decide (len < unit + nodeUnits k) || nodeBad bs
  || (nodeExact bs && decide (exactUnits bs ≠ 0) && decide (len < exactUnit bs + exactUnits bs))

/-- The carried ray a long ray forms at its root node (R129), or a miss (R64); others keep theirs. -/
def formCarry (w : Walker) (bs : List Byte) (bad : Bool) : Option Walker :=
  if w.ray.long && decide (w.ctxs = []) then
    (topCarryLong w.ray (if bad then V3.zero else nodeOrigin bs)).map (fun c => { w with ctxs := [c] })
  else some w

/-- The bytes of a node after its first 64: the second half of a fine node, then the exact-box table where it is read. -/
def State.nodeRest (s : State) (w : Walker) (a len : Nat) (b0 : List Byte) : State × WRead :=
  if nodeFine b0 && decide (a % 65536 / 64 + 1 < len) then
    match s.walkRead w .node (a + 64) 64 with
    | (t, .ok b1) => (t, .ok (b0 ++ b1))
    | (t, r) => (t, r)
  else (s, .ok b0)

/-- The exact-box table of a node, read at `REFINE` = 3 (R103). -/
def State.nodeTable (s : State) (x : Batch) (w : Walker) (base : Nat) (bs : List Byte) (bad : Bool) : State × WRead :=
  if !bad && nodeExact bs && decide (x.desc.refine = 3) && decide (exactUnits bs ≠ 0) then
    s.walkRead w .node (base + 64 * exactUnit bs) (64 * exactUnits bs)
  else (s, .ok [])

/-- A node step (R132 to R138) at a scene address. A root in a treelet of a reserved `TL_KIND` is malformed (R119), so a long ray forms its
carried ray there with L = 0 first (R129; DEDUCED, assumption log 97). -/
def State.stepNode (s : State) (x : Batch) (w : Walker) (pick a : Nat) (cls : Option (BitVec 2)) (ctx : Nat) (fl : PathFlags)
    (rest : List WItem) : State :=
  let base := a / 65536 * 65536
  match s.walkRead w .node base 64 with
  | (s1, .ok hdr) =>
    match treeletLen hdr with
    | none =>
      (match formCarry w [] true with
       | none => s1.endWalk { w with best := none }
       | some w1 => s1.prune w1 rest)
    | some len =>
      match s1.walkRead w .node a 64 with
      | (s2, .ok b0) =>
        match s2.nodeRest w a len b0 with
        | (s3, .ok bs) =>
          let bad := rayNodeBad bs len (a % 65536 / 64) cls
          match formCarry w bs bad with
          | none => s3.endWalk { w with best := none }
          | some w1 =>
            match s3.nodeTable x w1 base bs bad with
            | (s4, .ok tab) =>
              if bad then (s4.count w.dist 1 1).prune w1 rest
              else
                let r := cascade x w1 (w1.carry ctx) bs tab len
                let items := rotate (r.1.map (childItem bs len base ctx fl)) pick
                ((s4.count w.dist 1 r.2.1).fmtViols w.bid (badChildren bs len + r.2.2)).goOn w1 (items ++ rest)
            | (s4, r) => s4.readFail w 0x10 r
        | (s3, r) => s3.readFail w 0x10 r
      | (s2, r) => s2.readFail w 0x10 r
  | (s1, r) => s1.readFail w 0x10 r

/-- A link record followed (R106). -/
def State.stepLink (s : State) (w : Walker) (a ctx : Nat) (fl : PathFlags) (rest : List WItem) : State :=
  match s.walkRead w .node a 64 with
  | (t, .ok bs) => t.goOn w (.node (linkTarget bs) (some (BitVec.ofNat 2 (linkClass bs))) ctx fl :: rest)
  | (t, r) => t.readFail w 0x10 r

/-! ## Instances -/

/-- An instance record's own context (R110), by its address. -/
def instOf (a : Nat) (bs : List Byte) : InstCtx :=
  { recAt := a, id := BitVec.ofNat 24 (bytesLe bs 0x6C 4), user := bytesWord bs 0x74, flip := bit (bytesLe bs 0x6A 2) 0,
    opq := bit (bytesLe bs 0x6A 2) 1, noCull := bit (bytesLe bs 0x6A 2) 2 }

/-- The root of an instance (R110). -/
def instRoot (bs : List Byte) : Nat := sceneField bs 0x60 64
def instMask (bs : List Byte) : Nat := bytesLe bs 0x68 2
def instClass (bs : List Byte) : Nat := bytesLe bs 0x70 1 % 4

/-- Entry into one instance record (R139, R141, R111): the ray in its object space, which then goes to the district of the root. -/
def State.stepInstance (s : State) (w : Walker) (a left ctx : Nat) (fl : PathFlags) (rest : List WItem) : State :=
  let more := if 1 < left then [WItem.leaf 5 (a + 128) (left - 1) ctx fl] else []
  match s.walkRead w .leaf a 128 with
  | (s1, .ok bs) =>
    if (w.inst ctx).isSome || instanceBad bs then s1.prune w (more ++ rest)
    else if w.ray.mask.toNat &&& instMask bs = 0 then s1.goOn w (more ++ rest)
    else
      match objRay w.ray bs with
      | none => (s1.count w.dist 1 2).goOn w (more ++ rest)
      | some o =>
        let i := instOf a bs
        let fl1 : PathFlags := { fl with opq := fl.opq || i.opq, noCull := fl.noCull || i.noCull }
        s1.goOn w (.root (instRoot bs) (BitVec.ofNat 2 (instClass bs)) o i fl1 :: (more ++ rest))
  | (s1, r) => s1.readFail w 0x11 r

/-- The root node of an instance reached (R110, R139, R141, R175): two beats; its origin gives L. -/
def State.stepRoot (s : State) (w : Walker) (a : Nat) (cls : BitVec 2) (o : ObjRay) (i : InstCtx) (fl : PathFlags) (rest : List WItem) : State :=
  match s.walkRead w .node a 64 with
  | (t, .ok root) =>
    if nodeClass root ≠ cls.toNat then t.prune w rest
    else
      let u := t.count w.dist 1 2
      match o.carry (nodeOrigin root) i with
      | none => u.goOn w rest
      | some c => u.goOn { w with ctxs := w.ctxs ++ [c] } (.node a (some cls) w.ctxs.length fl :: rest)
  | (t, r) => t.readFail w 0x10 r

/-! ## Leaves with programs -/

/-- The hit an invocation of a leaf begins with (R232). -/
def leafHit (w : Walker) (kind a ctx : Nat) (bs : List Byte) (fl : PathFlags) (tlim : Fp) : Hit :=
  let i := w.inst ctx
  { t := toF32 tlim, prim := bytesWord bs 0x1C, inst := (i.map (·.id)).getD 0xFFFFFF, iuser := (i.map (·.user)).getD 0,
    kind := if kind = 6 then 2 else 3, b1 := 0, b2 := 0, front := false, recA := a,
    luser := bytesWord bs (if kind = 6 then 0x28 else 0x44), ctx := ctx,
    fl := { fl with opq := fl.opq || bit (bytesLe bs 0x1A 2) 0, noCull := fl.noCull || bit (bytesLe bs 0x1A 2) 1 } }

/-- A custom or neural primitive's leaf record: its box test, one beat, then its program (R112, R133, R231). -/
def State.stepCustom (s : State) (x : Batch) (w : Walker) (kind a left ctx : Nat) (fl : PathFlags) (rest : List WItem) : State :=
  let size := if kind = 6 then 64 else 128
  let more := if 1 < left then [WItem.leaf kind (a + size) (left - 1) ctx fl] else []
  match s.walkRead w .leaf a size with
  | (t, .ok bs) =>
    if leafBad (decide (kind = 7)) bs then t.prune w (more ++ rest)
    else
      let u := t.count w.dist 1 1
      let tlim := tLimit x w
      if facesTest (w.carry ctx) (f32 w.ray.tmin) tlim (boxFaces bs 0) then
        u.callProgram { w with work := more ++ rest } (if kind = 6 then 1 else 5) (bytesLe bs 0x18 2) (leafHit w kind a ctx bs fl tlim)
      else u.goOn w (more ++ rest)
  | (t, r) => t.readFail w 0x11 r

/-! ## The node step command -/

/-- Work a traversal cell does. -/
def cellItem : WItem → Bool
  | .node _ _ _ _ | .link _ _ _ | .root _ _ _ _ _ | .plink _ _ => true
  | .leaf k _ _ _ _ => decide (k ≠ 4)
  | .tri _ _ _ _ _ | .pnode _ _ | .pleaf _ _ => false

/-- Whether a child with this bound is pruned at a threshold: b − a > τ (R204). -/
def pruned (bound : Option (Word × Word)) (tau : Word) : Bool :=
  match bound with
  | none => false
  | some (b, a) =>
    match f32 b with
    | .fin q => (f32 tau).lt (.fin (q.sub (v32 a)))
    | .inf neg => !neg && (f32 tau).lt (.inf false)
    | .nan => false

/-- Whether a walker goes past a record whose bound its present threshold prunes (R204). -/
def Walker.past (w : Walker) (bound : Option (Word × Word)) : Bool :=
  match w.probe with
  | some p => pruned bound p.tau
  | none => false

/-- A probe tree's link record followed (R115, R106), if its bound still survives (R204). One whose `TCLASS` is not 3 can name no probe node
of that class: it is pruned as malformed without a read of its target (DESIGN CHOICE, assumption log 98). -/
def State.stepProbeLink (s : State) (w : Walker) (a : Nat) (bound : Option (Word × Word)) (rest : List WItem) : State :=
  if w.past bound then s.goOn w rest
  else match s.walkRead w .node a 64 with
  | (t, .ok bs) => if linkClass bs = 3 then t.goOn w (.pnode (linkTarget bs) bound :: rest) else t.prune w rest
  | (t, r) => t.readFail w 0x10 r

/-- One piece of a traversal cell's work. -/
def State.cellStep (s : State) (x : Batch) (w : Walker) (pick : Nat) : State :=
  match w.work with
  | [] => s.place w
  | .node a cls ctx fl :: rest => s.stepNode x w pick a cls ctx fl rest
  | .link a ctx fl :: rest => s.stepLink w a ctx fl rest
  | .leaf k a left ctx fl :: rest =>
    if k = 5 then s.stepInstance w a left ctx fl rest
    else if k = 4 then s
    else s.stepCustom x w k a left ctx fl rest
  | .root a cls o i fl :: rest => s.stepRoot w a cls o i fl rest
  | .plink a bound :: rest => s.stepProbeLink w a bound rest
  | .tri _ _ _ _ _ :: _ | .pnode _ _ :: _ | .pleaf _ _ :: _ => s

/-- A walker of a stopped or vanished batch ends at its next node step (R74, R265); another is handed to `f`. -/
def State.withBatch (s : State) (w : Walker) (f : State → Batch → State) : State :=
  match s.batch w.bid with
  | none => s.dropWalker w
  | some x => if x.stop || x.status.isSome then s.dropWalker w else f s x

/-- `NODE_STEP` (R132). -/
def execNodeStep (d : Dist) (pick : Nat) (s : State) : Res :=
  .next (if !s.walking d.val then s
    else match s.nextReady d.val cellItem with
    | none => s
    | some w =>
      match s.takeWalker w with
      | (t, none) => t
      | (t, some w1) => t.withBatch w1 (fun u x => u.cellStep x w1 pick))

/-! ## Triangles -/

/-- Work a triangle cell does. -/
def triItem : WItem → Bool
  | .leaf k _ _ _ _ => decide (k = 4)
  | .tri _ _ _ _ _ => true
  | .node _ _ _ _ | .link _ _ _ | .root _ _ _ _ _ | .plink _ _ | .pnode _ _ | .pleaf _ _ => false

/-- One triangle of a block tested (R145, R146). -/
def State.testTri (s : State) (x : Batch) (w : Walker) (bs : List Byte) (a j ctx : Nat) (fl : PathFlags) (rest : List WItem) (tie : Bool) :
    State :=
  match triVerts bs j with
  | none => s.goOn w rest
  | some v =>
    if vertsBad v then s.prune w rest
    else
      let r := triTest (w.carry ctx) v
      let s1 := s.count w.dist 2 1
      let s2 := if r.2 then s1.count w.dist 3 1 else s1
      match r.1 with
      | none => s2.goOn w rest
      | some h =>
        let i := w.inst ctx
        let front := h.front != ((i.map (·.flip)).getD false)
        let f := triFlags bs j
        let noCull := fl.noCull || bit f 1
        let t := f32 h.t
        let inside := t.isFin && (f32 w.ray.tmin).le t && t.le (tLimit x w)
        if !inside || culled w front noCull then s2.goOn w rest
        else
          let hit : Hit :=
            { t := h.t, prim := bytesWord bs 0x30 + BitVec.ofNat 32 j, inst := (i.map (·.id)).getD 0xFFFFFF,
              iuser := (i.map (·.user)).getD 0, kind := 1, b1 := h.b1, b2 := h.b2, front := front, recA := a,
              luser := bytesWord bs 0x38, ctx := ctx, fl := fl }
          s2.offer x { w with work := rest } hit (fl.opq || bit f 0) fl.noAnyhit tie

/-- A triangle cell's step: the next triangle of a block, or a new block and its first present triangle. -/
def State.triStep (s : State) (x : Batch) (w : Walker) (pick : Nat) (tie : Bool) : State :=
  match w.work with
  | .tri a bs j ctx fl :: rest => s.testTri x w bs a j ctx fl rest tie
  | .leaf _ a left ctx fl :: rest =>
    let more := if 1 < left then [WItem.leaf 4 (a + 64) (left - 1) ctx fl] else []
    match s.walkRead w .leaf a 64 with
    | (t, .ok bs) =>
      let js := rotate ((List.range 4).filter (fun j => (triVerts bs j).isSome)) pick
      match js with
      | [] => t.goOn w (more ++ rest)
      | j :: others => t.testTri x w bs a j ctx fl (others.map (fun k => .tri a bs k ctx fl) ++ (more ++ rest)) tie
    | (t, r) => t.readFail w 0x11 r
  | [] | .node _ _ _ _ :: _ | .link _ _ _ :: _ | .root _ _ _ _ _ :: _ | .plink _ _ :: _ | .pnode _ _ :: _ | .pleaf _ _ :: _ => s

/-- `TRIANGLE_TEST` (R145). `tie` says whether a candidate at the best t replaces the best hit (R146). -/
def execTriangleTest (d : Dist) (pick : Nat) (tie : Bool) (s : State) : Res :=
  .next (if !s.walking d.val then s
    else match s.nextReady d.val triItem with
    | none => s
    | some w =>
      match s.takeWalker w with
      | (t, none) => t
      | (t, some w1) => t.withBatch w1 (fun u x => u.triStep x w1 pick tie))

end Sys2Proof.Machine
end

