-- ==== Sys2Proof/Machine/Probe.lean ====
section
/-! DEFINITION. Probe walks (R199 to R216, R515): bounds and pruning at probe nodes, leaf scores, tally heaps, candidate messages,
end notices and the rerank, and the matrix tiles' jobs for them. -/

namespace Sys2Proof.Machine

/-! ## Sums (R281, R515) -/

/-- A group sum through the window of R281. -/
def groupSum (ps : List Q) : Q :=
  let top := ps.foldl (fun m p => Q.max m p.abs) (Q.int 0)
  if top.isZero then Q.int 0
  else
    let e := top.log2 - 26
    ps.foldl (fun acc p => acc.add (p.truncAt e)) (Q.int 0)

/-- The exact sum of the group sums of products f i × g i over `dim` elements, in groups of 32 (R515). -/
def windowSum (dim : Nat) (f g : Nat → Q) : Q :=
  (List.range ((dim + 31) / 32)).foldl (fun acc k =>
    acc.add (groupSum ((List.range (min 32 (dim - 32 * k))).map (fun i => (f (32 * k + i)).mul (g (32 * k + i)))))) (Q.int 0)

/-- An exact sum of squares. -/
def sumSquares (n : Nat) (f : Nat → Q) : Q := (List.range n).foldl (fun acc i => acc.add ((f i).mul (f i))) (Q.int 0)

/-! ## Bounds (R203, R204) -/

/-- Element `i` of a probe's query before `QSCALE` (R198). -/
def ProbeRec.elem (p : ProbeRec) (i : Nat) : Q := (queryElem p.qfmt.toNat p.query i).val

/-- The exact value of `QSCALE`. -/
def ProbeRec.scale (p : ProbeRec) : Q := v32 p.qscale

/-- Child `c` of a probe node: its bound b and allowance a (R204); `none` where b − a is −∞, so that nothing is pruned. -/
def childBound (p : ProbeRec) (bs : List Byte) (c : Nat) : Option (Word × Word) :=
  let dim := p.dim
  let s := v32 (bytesWord bs 4)
  let k (i : Nat) : Q := Q.int (centroidCode bs dim c i)
  let kk := sumSquares dim k
  let qq := p.scale.mul p.scale |>.mul (sumSquares dim p.elem)
  let qn2lo := v32 (rd32 qq)
  let qnW := ru32 qq.sqrt
  let q1W := ru32 (p.scale.mul ((List.range dim).foldl (fun acc i => acc.add (p.elem i).abs) (Q.int 0)))
  let g := p.scale.mul (windowSum dim p.elem k)
  let gam : Fp := if p.qfmt = 3 then (if (f32 q1W).isFin then f32 (ru32 ((Q.pow2 (-17)).mul (v32 q1W))) else f32 q1W) else .fin (Q.int 0)
  let cnW := ru32 (s.mul s |>.mul kk).sqrt
  match probeRadius bs 0x40 c, probeRadius bs 0x60 c with
  | .fin r, .fin e =>
    let rhoW := ru32 (r.add e)
    if !(f32 rhoW).isFin || !(f32 qnW).isFin || !(f32 cnW).isFin then none
    else
      let rho := v32 rhoW
      let qn := v32 qnW
      let cn := v32 cnW
      if p.dist = 0 then
        let dl := match gam with
          | .fin gm => v32 (rd32 (Q.max (v32 (rd32 ((qn2lo.sub ((Q.int 2).mul (s.mul (g.add gm)))).add ((s.mul s).mul kk)))) (Q.int 0)).sqrt)
          | .inf _ | .nan => Q.int 0
        let b := if dl.le rho then 0 else rd32 ((dl.sub rho).mul (dl.sub rho))
        let t := (qn.add cn).add rho
        let a := ru32 (((Q.pow2 (-20)).mul (t.mul t)).add (Q.pow2 (-126)))
        if (f32 a).isFin then some (b, a) else none
      else
        match gam with
        | .fin gm =>
          let b := rd32 ((s.mul (g.add gm)).neg.sub (qn.mul rho))
          let a := ru32 (((Q.pow2 (-20)).mul (qn.mul (cn.add rho))).add (Q.pow2 (-126)))
          if (f32 a).isFin then some (b, a) else none
        | .inf _ | .nan => none
  | _, _ => none

/-! ## Heaps (R200, R203, R209) -/

/-- Rank order: by score, then by identifier (R200). -/
def rankLt (a b : Word × Word × Nat) : Bool :=
  (f32 a.1).lt (f32 b.1) || ((f32 a.1).eq (f32 b.1) && decide (a.2.1.toNat < b.2.1.toNat))

/-- Whether two candidates count as one. -/
def rankSame (a b : Word × Word × Nat) : Bool := (f32 a.1).eq (f32 b.1) && decide (a.2.1 = b.2.1)

/-- A qualifying candidate put into a heap of `k` entries, kept in rank order (R203). -/
def heapInsert (k : Nat) (l : List (Word × Word × Nat)) (e : Word × Word × Nat) : List (Word × Word × Nat) :=
  if l.any (fun x => rankSame x e) then l else (insertBy rankLt e l).take k

/-- A candidate qualifies (R200). -/
def qualifies (x : Batch) (limit score : Word) : Bool := decide (x.desc.submode = 0) || (f32 score).le (f32 limit)

/-- A heap changed, by its probe. -/
def State.updHeap (s : State) (d : Nat) (b : Bid) (idx gen : Nat) (f : Heap → Heap) : State :=
  s.updDist d (fun x => { x with heaps := updFirst (fun h => decide (h.bid = b) && decide (h.idx = idx) && decide (h.gen = gen)) f x.heaps })

/-! ## Leaf scores (R206, R515) -/

/-- The score of a vector, `none` where it is NaN or infinite. -/
def leafScore (p : ProbeRec) (leaf vec : List Byte) : Option Word :=
  if (List.range p.dim).any (fun i => !(vectorElem leaf vec p.dim i).isFin) then none
  else
    let y (i : Nat) : Q := (vectorElem leaf vec p.dim i).val
    let ix := v32 p.iscale
    let a := windowSum p.dim p.elem y
    let v := if p.dist = 0 then
        let n := windowSum p.dim y y
        ((p.scale.mul p.scale |>.mul (sumSquares p.dim p.elem)).sub ((Q.int 2).mul ((p.scale.mul ix).mul a))).add ((ix.mul ix).mul n)
      else ((p.scale.mul ix).mul a).neg
    let w := rn32 v
    if (f32 w).isFin then some w else none

/-- A vector of a leaf as it is read: its identifier, its scene address and its bytes. -/
structure LeafVec where
  id   : Word
  addr : Nat
  data : List Byte
  deriving DecidableEq, Repr

/-- The vectors and identifiers of a leaf from vector `i` on (R117, R118). -/
def State.readVectors (s : State) (w : Walker) (leaf : List Byte) (size i : Nat) : Nat → State × WRead × List LeafVec
  | 0 => (s, .ok [], [])
  | n + 1 =>
    let va := sceneField leaf 0 64 + i * bytesLe leaf 0x1A 2
    let ids := sceneField leaf 0x10 4
    match s.walkRead w .leaf va size with
    | (t, .ok v) =>
      let idr := if ids = 0 then (t, WRead.ok (leBytes 4 (bytesLe leaf 0xC 4 + i))) else t.walkRead w .leaf (ids + 4 * i) 4
      (match idr with
       | (u, .ok idb) =>
         let r := u.readVectors w leaf size (i + 1) n
         (r.1, r.2.1, { id := bytesWord idb 0, addr := va, data := v } :: r.2.2)
       | (u, r) => (u, r, []))
    | (t, r) => (t, r, [])

/-! ## The end of a probe (R213 to R215) -/

/-- The home district's next step once a probe's messages are all in: the rerank, if there is one (R213, R215). -/
def State.finishProbe (s : State) (d : Nat) (b : Bid) (idx gen : Nat) : State :=
  match s.batch b, s.walker b idx gen with
  | some x, some w =>
    match s.heapOf d w, w.probe with
    | some h, some p =>
      if decide (w.st = .done) && decide (w.stage = .toWrite) && decide (h.total = some h.got) && decide (x.desc.progMain ≠ 0) && !h.rerank
          && !x.stop && x.status.isNone then
        (if p.query = [] then s.updHeap d b idx gen (fun y => { y with rerank := true }) else s.callProgram w 5 x.desc.progMain Hit.none)
      else s
    | _, _ => s
  | _, _ => s

/-- An end notice received at home (R213). -/
def State.endAtHome (s : State) (d : Nat) (b : Bid) (idx gen sent visits : Nat) : State :=
  let t := s.updHeap d b idx gen (fun h => { h with total := some sent, visits := visits })
  (t.updWalker (fun w => w.is b idx gen && decide (w.stage = .none)) (fun w => { w with stage := .toWrite })).finishProbe d b idx gen

/-- A probe whose walk has ended gives notice (R213): to its own district, or by a message to its home. -/
def State.giveNotice (s : State) (w : Walker) (p : ProbeRec) : State :=
  if w.dist = p.home then s.endAtHome p.home w.bid w.idx w.gen p.sent p.visits
  else
    ((s.setWalker { w with dist := p.home, stage := .none }).sendMsg .walker w.dist p.home
      (.endNotice w.bid w.idx w.gen p.sent p.visits)).refreshDrained w.dist

/-- Whether a district handles its heap messages now (R214). -/
def State.heapWorks (s : State) (d : Nat) : Bool := s.active && !(s.dist d).tripHeld && !(s.dist d).inReset

/-- The walkers of a district whose walks have ended without a notice yet. -/
def State.unnoticed (s : State) (d : Nat) : List Walker :=
  s.doneAt d (fun w => decide (w.stage = .toWrite) && (match w.probe with
    | some p => decide (w.dist ≠ p.home) || (match s.heapOf d w with
      | some h => decide (h.total = none)
      | none => false)
    | none => false))

/-- `END_NOTICE` (R213): a notice received, or the oldest one given. One of an older walk generation finds no heap and is discarded
(R214). -/
def execEndNotice (d : Dist) (s : State) : Res :=
  .next (if !s.heapWorks d.val then s
    else match s.nextMsg d.val (fun p => match p with
      | .endNotice _ _ _ _ _ => true
      | .walker _ _ _ _ _ | .lookup _ | .lookupReply _ _ _ | .candidates _ _ _ _ _ | .tau _ _ _ _ | .send _ _ _ _ _ _
      | .sendStatus _ _ _ _ | .marker => false) with
    | some m =>
      (match m.body with
       | .endNotice b i g sent visits => (s.dropMsg m).endAtHome d.val b i g sent visits
       | .walker _ _ _ _ _ | .lookup _ | .lookupReply _ _ _ | .candidates _ _ _ _ _ | .tau _ _ _ _ | .send _ _ _ _ _ _
       | .sendStatus _ _ _ _ | .marker => s)
    | none =>
      match s.unnoticed d.val with
      | [] => s
      | w :: _ =>
        match w.probe with
        | none => s
        | some p => s.giveNotice w p)

/-! ## Candidate messages (R212) -/

/-- Candidates taken into the heap at home, and the threshold it answers with. -/
def takeCandidates (x : Batch) (h : Heap) (limit : Word) (ents : List (Word × Word × Nat)) : Heap × Word :=
  let l := (ents.filter (fun e => qualifies x limit e.1)).foldl (heapInsert x.desc.k) h.ents
  ({ h with ents := l }, heapTau x limit l)

/-- A candidate message received at home (R212): the entries inserted, the heap's threshold answered, and carried by the walker if it is
at home. -/
def State.candidatesIn (s : State) (d src : Nat) (b : Bid) (idx gen : Nat) (ents : List (Word × Word × Nat)) : State :=
  match s.batch b, s.walker b idx gen with
  | some x, some w =>
    match (s.dist d).heaps.find? (fun h => decide (h.bid = b) && decide (h.idx = idx) && decide (h.gen = gen)) with
    | none => s
    | some h =>
      let r := takeCandidates x h (Walker.limit x w) ents
      let t := s.updHeap d b idx gen (fun _ => { r.1 with got := h.got + 1 })
      let u := if w.dist = d ∧ w.st ≠ .inTransit then t.setWalker (t.atHome w) else t
      (u.sendMsg .response d src (.tau b idx gen r.2)).finishProbe d b idx gen
  | _, _ => s

/-- `CANDIDATE_MESSAGE` (R212). Messages of an older walk generation are discarded (R214). -/
def execCandidateMessage (d : Dist) (s : State) : Res :=
  .next (if !s.heapWorks d.val then s
    else match s.nextMsg d.val (fun p => match p with
      | .candidates _ _ _ _ _ => true
      | .walker _ _ _ _ _ | .lookup _ | .lookupReply _ _ _ | .tau _ _ _ _ | .endNotice _ _ _ _ _ | .send _ _ _ _ _ _
      | .sendStatus _ _ _ _ | .marker => false) with
    | none => s
    | some m =>
      match m.body with
      | .candidates b i g _ ents => (s.dropMsg m).candidatesIn d.val m.src b i g ents
      | .walker _ _ _ _ _ | .lookup _ | .lookupReply _ _ _ | .tau _ _ _ _ | .endNotice _ _ _ _ _ | .send _ _ _ _ _ _
      | .sendStatus _ _ _ _ | .marker => s)

/-- `TAU_REPLY` (R212): the carried threshold lowered, if the walker is still there. -/
def execTauReply (d : Dist) (s : State) : Res :=
  .next (if !s.heapWorks d.val then s
    else match s.nextMsg d.val (fun p => match p with
      | .tau _ _ _ _ => true
      | .walker _ _ _ _ _ | .lookup _ | .lookupReply _ _ _ | .candidates _ _ _ _ _ | .endNotice _ _ _ _ _ | .send _ _ _ _ _ _
      | .sendStatus _ _ _ _ | .marker => false) with
    | none => s
    | some m =>
      match m.body with
      | .tau b i g tau =>
        (s.dropMsg m).updWalker (fun w => w.is b i g && decide (w.dist = d.val) && decide (w.st ≠ .inTransit)) (fun w =>
          { w with probe := w.probe.map (fun p => { p with tau := if (f32 tau).lt (f32 p.tau) then tau else p.tau }) })
      | .walker _ _ _ _ _ | .lookup _ | .lookupReply _ _ _ | .candidates _ _ _ _ _ | .endNotice _ _ _ _ _ | .send _ _ _ _ _ _
      | .sendStatus _ _ _ _ | .marker => s)

/-! ## Jobs (R207) -/

/-- The children of a probe node that survive at a threshold, as work, with the format violations counted: malformed children, and the
malformed radii of the others, one for each value (R102, R115, R116, R119, R204; the count: DEDUCED, assumption log 101). -/
def probeChildren (x : Batch) (p : ProbeRec) (bs : List Byte) (base len : Nat) : List WItem × Nat :=
  let n := bytesLe bs 0 1 % 32
  let present := (List.range n).filter (fun c => decide (probeKind bs c ≠ 0))
  let bad (c : Nat) : Bool := decide (probeUnit bs c = 0) || decide (len ≤ probeUnit bs c)
  let good := present.filter (fun c => !bad c)
  let count := decide (x.desc.submode = 0) && decide (x.desc.k = 0)
  let item (c : Nat) : Option WItem :=
    let bd := if count then none else childBound p bs c
    if pruned bd p.tau then none
    else
      let a := base + 64 * probeUnit bs c
      some (match probeKind bs c with
        | 1 => .pnode a bd
        | 2 => .pleaf a bd
        | _ => .plink a bd)
  (good.filterMap item, (present.filter bad).length + (good.map (badRadii bs)).foldl (· + ·) 0)

/-- A node bound job for one probe (R204). -/
def State.probeNode (s : State) (x : Batch) (w : Walker) (p : ProbeRec) (pick a : Nat) (bs : List Byte) (bad : Bool) (len : Nat)
    (rest : List WItem) : State :=
  if bad then s.prune w rest
  else
    let r := probeChildren x p bs (a / 65536 * 65536) len
    (s.fmtViols w.bid r.2).goOn w (rotate r.1 pick ++ rest)

/-- Candidate messages of up to 7 entries sent home (R212). -/
def State.sendCandidates (s : State) (w : Walker) (p : ProbeRec) : Nat → Nat → List (Word × Word × Nat) → State × Nat
  | 0, n, _ => (s, n)
  | k + 1, n, ents =>
    if ents = [] then (s, n)
    else (s.sendMsg .walker w.dist p.home (.candidates w.bid w.idx w.gen n (ents.take 7))).sendCandidates w p k (n + 1) (ents.drop 7)

/-- A leaf job for one probe: its vectors scored, its candidates counted, inserted or sent (R200, R202, R206, R212). -/
def State.probeLeaf (s : State) (x : Batch) (w : Walker) (p : ProbeRec) (leaf : List Byte) (vs : List LeafVec) (rest : List WItem) : State :=
  let limit := probeLimit x p.dist
  let scores := vs.map (fun v => (leafScore p leaf v.data, v))
  let bad := scores.any (fun r => r.1.isNone)
  let ents := scores.filterMap (fun r => r.1.map (fun sc => (sc, r.2.id, r.2.addr)))
  let ok := ents.filter (fun e => qualifies x limit e.1)
  let s1 := if bad then s.fmtViol w.bid else s
  let put (q : ProbeRec) : Walker := { w with probe := some q }
  if x.desc.k = 0 then
    let fresh := ok.foldl (fun l e => if l.any (fun y => rankSame y e) then l else l ++ [e]) p.seen
    s1.goOn (put { p with visits := p.visits + (fresh.length - p.seen.length), seen := fresh }) rest
  else if w.dist = p.home then
    match s1.heapOf w.dist w with
    | none => s1.goOn w rest
    | some h =>
      let r := takeCandidates x h limit ok
      (s1.updHeap w.dist w.bid w.idx w.gen (fun _ => r.1)).goOn (put { p with tau := r.2 }) rest
  else
    let near := ok.filter (fun e => (f32 e.1).le (f32 p.tau))
    let r := s1.sendCandidates w p (near.length + 1) p.sent near
    r.1.goOn (put { p with sent := r.2 }) rest

/-- Tile beats of a job (R207). -/
def nodeBeats (qfmt dim : Nat) : Nat := (match qfmt with
  | 0 => 2
  | 3 => 4
  | _ => 1) * dim / 32

/-- Tile beats of a leaf job: per block of 32 vectors. -/
def leafBeats (qfmt : Nat) (leaf : List Byte) (dim : Nat) : Nat :=
  let vf := bytesLe leaf 0x18 1
  let c := if bytesLe leaf 0x19 1 % 4 ≠ 0 ∨ qfmt = 3 then 4 else if vf % 2 = 0 ∨ qfmt = 0 then 2 else 1
  (bytesLe leaf 8 4 + 31) / 32 * (c * dim / 32)

/-- A job done for each of its probes in turn. -/
def State.eachProbe (s : State) (ws : List Walker) (f : State → Walker → ProbeRec → List WItem → State) : State :=
  ws.foldl (fun t w0 => match t.walker w0.bid w0.idx w0.gen with
    | none => t
    | some w => match w.probe, w.work with
      | some p, _ :: rest => f t w p rest
      | _, _ => t) s

/-- A read for a job fails for each of its probes (R84, R88, R348). -/
def State.jobFail (s : State) (ws : List Walker) (facc : Nat) (r : WRead) : State :=
  s.eachProbe ws (fun t w _ _ => t.readFail w facc r)

/-- A node bound job (R207): the node read once. Its place is judged as far as its length is known before it is read (R102). -/
def State.nodeJob (s : State) (x : Batch) (w0 : Walker) (p0 : ProbeRec) (ws : List Walker) (pick a : Nat) : State :=
  let unit := a % 65536 / 64
  let prune (t : State) : State := t.eachProbe ws (fun u w _ rest => u.prune w rest)
  match s.walkRead w0 .node (a / 65536 * 65536) 64 with
  | (s1, .ok hdr) =>
    match treeletLen hdr with
    | none => prune s1
    | some len =>
      if unit = 0 ∨ len < unit + 2 then prune s1
      else
        match s1.walkRead w0 .node a 128 with
        | (s2, .ok b0) =>
          let n := bytesLe b0 0 1 % 32
          let bad := probeNodeBad b0 p0.dim || decide (len < unit + probeUnits n p0.dim)
          let more := n * p0.dim / 2
          let q := if bad || decide (more = 0) then (s2, WRead.ok []) else s2.walkRead w0 .node (a + 128) more
          match q with
          | (s3, .ok b1) =>
            (s3.count w0.dist 6 (nodeBeats p0.qfmt.toNat p0.dim)).eachProbe ws (fun t w p rest => t.probeNode x w p pick a (b0 ++ b1) bad len rest)
          | (s3, r) => s3.jobFail ws 0x10 r
        | (s2, r) => s2.jobFail ws 0x10 r
  | (s1, r) => s1.jobFail ws 0x10 r

/-- A leaf job (R207): the record and its vectors read once, all of them before any is scored, so that a read that fails its region check
leaves none of this leaf's vectors among the neighbours found (R84; DESIGN CHOICE, assumption log 100). With `K` = 0 a k-nearest walk
only counts (R202). -/
def State.leafJob (s : State) (x : Batch) (w0 : Walker) (p0 : ProbeRec) (ws : List Walker) (a : Nat) : State :=
  match s.walkRead w0 .leaf a 64 with
  | (s1, .ok leaf) =>
    let n := bytesLe leaf 8 4
    if n = 0 then s1.eachProbe ws (fun t w _ rest => t.goOn w rest)
    else if probeLeafBad leaf p0.dim then s1.eachProbe ws (fun t w _ rest => t.prune w rest)
    else if x.desc.submode = 0 ∧ x.desc.k = 0 then
      s1.eachProbe ws (fun t w p rest => t.goOn { w with probe := some { p with visits := p.visits + n } } rest)
    else
      let ex := bytesLe leaf 0x19 1
      let size := vectorBytes p0.dim (bytesLe leaf 0x18 1) (ex % 4) (decide (ex / 4 % 2 = 1))
      match s1.readVectors w0 leaf size 0 n with
      | (s2, .ok _, vs) =>
        (s2.count w0.dist 6 (leafBeats p0.qfmt.toNat leaf p0.dim)).eachProbe ws (fun t w p rest => t.probeLeaf x w p leaf vs rest)
      | (s2, r, _) => s2.jobFail ws 0x11 r
  | (s1, r) => s1.jobFail ws 0x11 r

/-- Work a tile does for probes, with the record's address and the bound it was last tested with. -/
def WItem.probeJob? : WItem → Option (Bool × Nat × Option (Word × Word))
  | .pnode a b => some (true, a, b)
  | .pleaf a b => some (false, a, b)
  | .node _ _ _ _ | .link _ _ _ | .leaf _ _ _ _ _ | .root _ _ _ _ _ | .tri _ _ _ _ _ | .plink _ _ => none

/-- A probe that waits at a record whose bound its present threshold prunes goes past it (R204). -/
def Walker.skipPruned (w : Walker) : Bool :=
  match w.work with
  | i :: _ => (match i.probeJob? with
    | some (_, _, b) => w.past b
    | none => false)
  | [] => false

/-- The query format of a probe (R198). -/
def Walker.qfmt (w : Walker) : Option (BitVec 8) := w.probe.map (·.qfmt)

/-- The tile that takes the next job or instruction, if one works: the lower-numbered (R255, R438). -/
def District.tile (x : District) : Option Nat :=
  if !x.core.tiles.getLsbD 0 then some 0 else if !x.core.tiles.getLsbD 1 then some 1 else none

/-- The job of the probes that wait with `w` at its record, up to 32 of one batch (R207) and of one query format, by which the beats are
counted (DESIGN CHOICE, assumption log 99). -/
def State.job (s : State) (d pick : Nat) (w : Walker) : State :=
  match w.work, w.probe with
  | i :: rest, some p =>
    (match i.probeJob? with
     | none => s
     | some (node, a, _) =>
       if w.skipPruned then s.goOn w rest
       else
         let same := (s.ready d (fun j => decide (j.probeJob?.map (fun r => (r.1, r.2.1)) = some (node, a)))).filter
           (fun y => decide (y.bid = w.bid) && decide (y.qfmt = w.qfmt) && !y.skipPruned && decide (y.idx ≠ w.idx))
         let ws := (w :: same).take 32
         s.withBatch w (fun t x => if node then t.nodeJob x w p ws pick a else t.leafJob x w p ws a))
  | _, _ => s

/-! ## The tiles' queue (R255) -/

/-- The order of work in the tiles' one queue: by class, Express first, then by arrival. -/
def tileKey (cls ord : Nat) : Nat := cls * 2 ^ 64 + ord

/-- The waiting probe that comes first. -/
def State.nextProbe (s : State) (d : Nat) : Option Walker :=
  leastBy (fun w => tileKey w.cls w.ord) (s.ready d (fun i => i.probeJob?.isSome))

/-- The matrix instructions of a district's groups, by their order. -/
def State.mtxKeys (s : State) (d : Nat) : List Nat :=
  (s.dist d).core.groups.flatMap (fun p => p.2.mtx.map (fun o => tileKey p.2.cls o.ord))

/-- Whether work of this order comes first in the queue. -/
def State.tileFirst (s : State) (d key : Nat) : Bool :=
  (s.mtxKeys d).all (fun n => decide (key ≤ n)) && (match s.nextProbe d with
    | some w => decide (key ≤ tileKey w.cls w.ord)
    | none => true)

/-- `PROBE_JOB` (R207, R255): the tile takes the first waiting probe's job, where no matrix instruction comes before it, with the `TILE` arm
(R509) and the scene code of the walker's slot. -/
def execProbeJob (d : Dist) (pick : Nat) (s : State) : Res :=
  .next (if !s.walking d.val then s
    else match s.nextProbe d.val, (s.dist d.val).tile with
    | some w, some k =>
      if !s.tileFirst d.val (tileKey w.cls w.ord) then s
      else if s.armed (Fld.dstInjectTile d.val) then (s.disarm (Fld.dstInjectTile d.val)).failTile d.val k
      else
        (match s.readSlot w with
         | (t, none) => t
         | (t, some w1) => t.job d.val pick w1)
    | _, _ => s)

end Sys2Proof.Machine
end

