-- ==== Sys2Proof/Machine/Cores.lean ====
section
/-! DEFINITION. Groups of the intersection cores: the scene code of registers and local store (R34, R504), traps and their records (R261, R262,
R265), and how a group ends or stops (R243, R263). -/

namespace Sys2Proof.Machine

/-! ## Groups -/

/-- The group in a slot of a district's core. -/
def State.group (s : State) (d k : Nat) : Option Group := SMap.find (s.dist d).core.groups k

/-- A core changed. -/
def State.updCore (s : State) (d : Nat) (f : Core → Core) : State := s.updDist d (fun x => { x with core := f x.core })

/-- The group of a slot set. -/
def State.putGroup (s : State) (d k : Nat) (g : Group) : State := s.updCore d (fun c => { c with groups := SMap.put c.groups k g })

/-- A slot freed, with the registers and local store of its group (R243). -/
def State.dropGroup (s : State) (d k : Nat) : State := s.updCore d (fun c => { c with groups := SMap.del c.groups k })

/-- Work of a group that has not completed: matrix instructions, fills, statuses of messages (R244, R263). -/
def Group.busy (g : Group) : Bool := !(g.mtx.isEmpty && g.fills.isEmpty && g.sends.isEmpty)

/-- `DST_CORE_CTL.HALT` (R270). -/
def State.coreHalt (s : State) (d : Nat) : Bool := s.flag (Fld.dstCoreCtlHalt d)

/-- A group that is not to issue: parked and not replayed, or chosen for pre-emption (R263, R264, R267, R270). -/
def State.heldGroup (s : State) (d : Nat) (g : Group) : Bool :=
  g.preWant || (g.parked.isSome && (!g.replay || s.coreHalt d))

/-- A core works (R404, R438). -/
def State.coreOn (s : State) (d : Nat) : Bool := s.walking d && !(s.dist d).core.failed

/-! ## Scene code of the register file and local store (R504, R508) -/

/-- The register words of active threads, of the registers an instruction reads, that are in error. -/
def Group.badRegs (g : Group) (rs : List Nat) : SMap (BitVec 72) :=
  g.rfErr.filter (fun e => decide (e.2 ≠ 0) && g.active.getLsbD (e.1 / 256) && decide (e.1 % 256 ∈ rs))

/-- Words read through the code, each judged and reported; whether every one of them could be used (R34, R504). -/
def State.judgeWords (s : State) (d : Nat) (es : SMap (BitVec 72)) : State × Bool :=
  (es.foldl (fun t e => t.dstCode d (codeJudge e.2)) s, es.all (fun e => !codePoison e.2))

/-- The registers an instruction reads: corrected where the code corrects them; an uncorrectable one fails the core (`none`). -/
def State.readRegs (s : State) (d : Nat) (g : Group) (rs : List Nat) : State × Option Group :=
  match g.badRegs rs with
  | [] => (s, some g)
  | es =>
    let t := s.judgeWords d es
    if t.2 then (t.1, some { g with rfErr := g.rfErr.filter (fun e => decide (e ∉ es)) }) else (t.1.failCore d, none)

/-- The `RF` arm acts on the first register word an instruction writes; a write of a word in error replaces it. -/
def State.wroteRegs (s : State) (d : Nat) (g : Group) (keys : List Nat) : State × Group :=
  match keys with
  | [] => (s, g)
  | k :: _ =>
    let v := s.rd (Fld.dstInjectRf d)
    let g1 := { g with rfErr := g.rfErr.filter (fun e => decide (e.1 ∉ keys)) }
    if v = 0 then (s, g1) else (s.disarm (Fld.dstInjectRf d), { g1 with rfErr := SMap.put g1.rfErr k (armPattern v) })

/-- The 64-bit words of local store, of those that `touch` names by their bytes, that are in error. -/
def Group.badLocal (g : Group) (touch : Nat × Nat → Bool) : SMap (BitVec 72) := g.lsErr.filter (fun e => decide (e.2 ≠ 0) && touch (e.1 * 8, 8))

/-- Local store read. -/
def State.readLocal (s : State) (d : Nat) (g : Group) (touch : Nat × Nat → Bool) : State × Option Group :=
  match g.badLocal touch with
  | [] => (s, some g)
  | es =>
    let t := s.judgeWords d es
    if t.2 then (t.1, some { g with lsErr := g.lsErr.filter (fun e => decide (e ∉ es)) }) else (t.1.failCore d, none)

/-- Two ranges overlap. -/
def overlap (a b : Nat × Nat) : Bool := decide (0 < a.2) && decide (0 < b.2) && decide (a.1 < b.1 + b.2) && decide (b.1 < a.1 + a.2)

/-- A range overlaps one of a list. -/
def overlaps (rs : List (Nat × Nat)) (r : Nat × Nat) : Bool := rs.any (overlap r)

/-- A byte of a group's local store; what it holds before anything is written to it is not stated. -/
def Group.lbyte (g : Group) (a : Nat) : Byte :=
  match SMap.find g.lstore a with
  | some b => b
  | none => Config.undefLocal g.seed a

/-- Bytes of a group's local store. -/
def Group.lbytes (g : Group) (a n : Nat) : List Byte := (List.range n).map (fun i => g.lbyte (a + i))

/-- Bytes put into a group's local store. -/
def Group.lput (g : Group) (a : Nat) : List Byte → Group
  | [] => g
  | b :: bs => Group.lput { g with lstore := SMap.put g.lstore a b } (a + 1) bs

/-- Bytes written to local store, with the `DESK` arm on the first word written. -/
def State.writeLocal (s : State) (d : Nat) (g : Group) (a : Nat) (bs : List Byte) : State × Group :=
  let v := s.rd (Fld.dstInjectDesk d)
  let covers (w : Nat) : Bool := decide (a ≤ w * 8) && decide (w * 8 + 8 ≤ a + bs.length)
  let g1 := { g.lput a bs with lsErr := g.lsErr.filter (fun e => !covers e.1) }
  if v = 0 || bs.isEmpty then (s, g1)
  else (s.disarm (Fld.dstInjectDesk d), { g1 with lsErr := SMap.put g1.lsErr (a / 8) (armPattern v) })

/-! ## How invocations end -/

/-- The walker an invocation waits for. -/
def State.invWalker (s : State) (i : Invocation) : Option Walker :=
  s.walkers.find? (fun w => w.is i.bid i.idx i.gen && decide (w.st = .inProgram))

/-- The walker of a `GENERATE` invocation, which begins with its program (R219). -/
def State.genWalker (x : Batch) (d : Nat) (i : Invocation) (ord : Nat) : Walker := Walker.fresh x i.idx (i.idx / 64) i.gen d ord

/-- An invocation's walker ends with no further result (R265). -/
def State.dropInv (s : State) (d : Nat) (i : Invocation) : State :=
  if i.entry = 4 then
    match s.batch i.bid with
    | none => s
    | some x => State.tick { s with walkers := s.walkers ++ [{ State.genWalker x d i s.clock with st := .done, stage := .acked }] }
  else
    match s.invWalker i with
    | none => s
    | some w => s.dropWalker w

/-- A probe's rerank over: its entries sorted by rank without those that are NaN or infinite, to be written (R215). -/
def State.rerankDone (s : State) (w : Walker) (ents : List (Word × Word × Nat)) : State :=
  let good := sortBy rankLt (ents.filter (fun e => (f32 e.1).isFin))
  let t := s.updHeap w.dist w.bid w.idx w.gen (fun h => { h with rerank := true, ents := good })
  (t.setWalker { w with st := .done, stage := .toWrite, ord := t.clock }).tick

/-- An invocation whose program cannot run ends its walker as a miss (R262): a probe keeps its neighbours, an update record is
skipped. -/
def State.missInv (s : State) (d : Nat) (i : Invocation) : State :=
  match s.batch i.bid with
  | none => s
  | some x =>
    if i.entry = 4 then
      State.tick { s with walkers := s.walkers ++ [{ State.genWalker x d i s.clock with st := .done, stage := .toWrite }] }
    else
      match s.invWalker i with
      | none => s
      | some w =>
        match w.probe with
        | some _ =>
          s.rerankDone w (match s.heapOf w.dist w with
            | some h => h.ents
            | none => [])
        | none => if x.desc.isRefit then s.endQuiet w else s.endWalk (if x.desc.accum then w else { w with best := none })

/-! ## Traps -/

/-- The bytes of a trap record (R262). -/
def State.trapBytes (s : State) (d : Nat) (g : Group) (t : TrapInfo) (handle : Nat) : List Byte :=
  let ten := match s.batch g.bid with
    | some x => x.tenant
    | none => 0
  [3, t.cause, BitVec.ofNat 8 d, BitVec.ofNat 8 handle] ++ leBytes 4 g.bid.seq.toNat
  ++ [BitVec.ofNat 8 (g.bid.que.val + 64 * s.sideOf g.bid), BitVec.ofNat 8 g.entry] ++ leBytes 2 g.prog ++ leBytes 2 ten ++ zeroBytes 2
  ++ leBytes 4 t.pc ++ leBytes 4 t.tword.toNat ++ leBytes 8 g.active.toNat ++ leBytes 8 g.launch.toNat
  ++ (t.detail ++ zeroBytes (16 - t.detail.length)) ++ zeroBytes 8

/-- A trap's record formed, for the Gate to write (R262). -/
def State.trapRecord (s : State) (d : Nat) (g : Group) (t : TrapInfo) (handle : Nat) : State :=
  { s with faults := s.faults ++ [{ bytes := s.trapBytes d g t handle, bid := g.bid, gate := false, key := 0 }] }

/-- What a trap reports (R482, R504): the district's `TRAP` bit, and for a NaN the detector's bit. -/
def State.trapReport (s : State) (d : Nat) (cause : Byte) : State :=
  if cause = 8 then s.report (some (0x40 + d, 1)) (some 18) d none else s.status (0x40 + d) 1

/-- A batch that will complete `PROGRAM_TRAP` once its other walkers are done (R265). -/
def State.trapBatch (s : State) (b : Bid) : State := s.updBatch b (fun x => { x with trapped := true })

/-- The invocations of a group's live threads. -/
def Group.liveInvs (g : Group) : List Invocation := (((List.range g.invs.length).zip g.invs).filter (fun p => g.live.getLsbD p.1)).map (·.2)

/-- A group taken out of its slot, its threads' interlocks released (R322). -/
def State.freeGroup (s : State) (d k : Nat) (g : Group) : State :=
  let t := s.dropGroup d k
  { t with locks := t.locks.filter (fun l => !(decide (l.bid = g.bid) && g.liveInvs.any (fun i => decide (i.idx = l.idx)))) }

/-- A group ended by a trap (R265, R322): its threads' interlocks are released, its walkers end with no further result. -/
def State.killGroup (s : State) (d k : Nat) (g : Group) : State := g.liveInvs.foldl (fun v i => v.dropInv d i) (s.freeGroup d k g)

/-- A trap raised by a group (R261, R265): with `PARK_ON_TRAP` the group stops and its batch parks, and GROUP_PARK writes the record with
its handle; without, the record is formed and the group ends. -/
def State.raise (s : State) (d k : Nat) (g : Group) (t : TrapInfo) : State :=
  let s1 := s.trapReport d t.cause
  if g.parkTrap then
    (s1.putGroup d k { g with parked := some .trap, replay := false, settled := false, trap := some t, nanPend := [], ir := none }).park g.bid .walking
  else ((s1.trapRecord d g t 0x7F).killGroup d k g).trapBatch g.bid

/-- A trap of the instruction at the group's own address. -/
def State.raiseHere (s : State) (d k : Nat) (g : Group) (cause : Nat) (tword : BitVec 16) (detail : List Byte) : State :=
  s.raise d k g { cause := BitVec.ofNat 8 cause, pc := g.pc, tword := tword, detail := detail }

/-- A group stopped at an instruction whose data is absent or does not translate (R247, R249, R263). -/
def State.faultGroup (s : State) (d k : Nat) (g : Group) : State :=
  s.putGroup d k { g with parked := some .fault, replay := false, settled := false, ir := none }

end Sys2Proof.Machine
end

