-- ==== Sys2Proof/Machine/Matrix.lean ====
section
/-! DEFINITION. Matrix descriptors (R252, R253), operand elements with block exponents and the FP32 split (R276 to R279), products on the
integer and float paths (R280 to R282), the accumulator output (R284, R285), soft maximum and reductions (R290 to R293), and the NaN events
of each (R298, R300, R301). -/

namespace Sys2Proof.Machine

/-! ## Descriptors (R252) -/

/-- A matrix descriptor decoded. -/
structure Mdesc where
  aOff : Nat
  bOff : Nat
  cOff : Nat
  dOff : Nat
  m    : Nat
  n    : Nat
  k    : Nat
  afmt : Nat
  bfmt : Nat
  acc  : Nat
  out  : Nat
  flags : Nat
  passes : Nat
  scale : Word
  bias : Nat
  aexp : Nat
  bexp : Nat
  lda  : Nat
  ldb  : Nat
  ldc  : Nat
  ldd  : Nat

/-- The descriptor in 64 bytes. -/
def mdescOf (b : List Byte) : Mdesc :=
  { aOff := bytesLe b 0 4, bOff := bytesLe b 4 4, cOff := bytesLe b 8 4, dOff := bytesLe b 0xC 4, m := bytesLe b 0x10 2,
    n := bytesLe b 0x12 2, k := bytesLe b 0x14 2, afmt := bytesLe b 0x16 1, bfmt := bytesLe b 0x17 1, acc := bytesLe b 0x18 1,
    out := bytesLe b 0x19 1, flags := bytesLe b 0x1A 1, passes := bytesLe b 0x1B 1, scale := bytesWord b 0x1C,
    bias := bytesLe b 0x20 4, aexp := bytesLe b 0x24 4, bexp := bytesLe b 0x28 4, lda := bytesLe b 0x2C 2, ldb := bytesLe b 0x2E 2,
    ldc := bytesLe b 0x30 2, ldd := bytesLe b 0x32 2 }

/-- The offset that stands for none. -/
def noOff : Nat := 0xFFFFFFFF

/-- Flags of `DFLAGS`. -/
def Mdesc.accum (x : Mdesc) : Bool := bit x.flags 0
def Mdesc.clip (x : Mdesc) : Bool := bit x.flags 1
def Mdesc.bexpA (x : Mdesc) : Bool := bit x.flags 2 && decide (x.acc = 1)
def Mdesc.bexpB (x : Mdesc) : Bool := bit x.flags 3 && decide (x.acc = 1)
def Mdesc.transA (x : Mdesc) : Bool := bit x.flags 4
def Mdesc.transB (x : Mdesc) : Bool := bit x.flags 5

/-- Bits of an operand element and of an output element. -/
def fmtBits (f : Nat) : Nat := if f = 0 ∨ f = 1 ∨ f = 4 then 4 else if f = 2 ∨ f = 3 then 8 else if f = 5 ∨ f = 6 then 16 else 32
def outBits (f : Nat) : Nat := if f = 0 ∨ f = 1 then 32 else if f = 2 ∨ f = 3 then 16 else if f = 4 then 8 else 4

/-- Rows of bytes in local store. -/
structure Strip where
  off    : Nat
  rows   : Nat
  len    : Nat
  stride : Nat
  deriving DecidableEq, Repr

/-- A stored matrix: rows, row length in elements, element bits, stride. -/
def matStrip (off rows len bits stride : Nat) : Strip := { off := off, rows := rows, len := (len * bits + 7) / 8, stride := stride }

/-- Bytes that follow one another. -/
def flatStrip (off n : Nat) : Strip := { off := off, rows := 1, len := n, stride := 0 }

/-- The range from a strip's first byte to its last. -/
def Strip.hull (x : Strip) : Nat × Nat := (x.off, if x.rows = 0 ∨ x.len = 0 then 0 else (x.rows - 1) * x.stride + x.len)

/-- A range overlaps some row of a strip: the first row that ends beyond the range's beginning decides. -/
def Strip.meets (x : Strip) (r : Nat × Nat) : Bool :=
  let i := if x.stride = 0 then 0 else (r.1 + x.stride - (x.off + x.len)) / x.stride
  decide (i < x.rows) && overlap (x.off + i * x.stride, x.len) r

/-- Two strips share a byte. -/
def Strip.clash (x y : Strip) : Bool := (List.range y.rows).any (fun i => x.meets (y.off + i * y.stride, y.len))

/-- Stored rows and row length of A and of B. -/
def Mdesc.rowsA (x : Mdesc) : Nat × Nat := if x.transA then (x.k, x.m) else (x.m, x.k)
def Mdesc.rowsB (x : Mdesc) : Nat × Nat := if x.transB then (x.n, x.k) else (x.k, x.n)

/-- Blocks of 32 in a row (R277). -/
def blocks (len : Nat) : Nat := (len + 31) / 32

/-- Whether an operation is `MMA`; 1 is `MSMAX` and 2 `MRED`. -/
def MtxOp.mma (o : MtxOp) : Bool := decide (o.op = 0)

/-- C, if it is added. -/
def Mdesc.cStrips (x : Mdesc) (op : Nat) : List Strip := if op = 0 ∧ x.accum then [matStrip x.cOff x.m x.n 32 x.ldc] else []

/-- The inputs other than A, B and C: the biases and the exponents of `MMA`, the row mask of `MSMAX` and `MRED` (R252, R254). -/
def Mdesc.sideStrips (x : Mdesc) (op : Nat) : List Strip :=
  (if x.bias = noOff then [] else [flatStrip x.bias (if op = 0 then x.m * 4 else x.m * ((x.n + 7) / 8))])
  ++ (if op = 0 ∧ x.bexpA then [flatStrip x.aexp (x.rowsA.1 * blocks x.rowsA.2)] else [])
  ++ (if op = 0 ∧ x.bexpB then [flatStrip x.bexp (x.rowsB.1 * blocks x.rowsB.2)] else [])

/-- A and B, or the rows that `MSMAX` and `MRED` read. -/
def Mdesc.abStrips (x : Mdesc) (op : Nat) : List Strip :=
  if op = 0 then [matStrip x.aOff x.rowsA.1 x.rowsA.2 (fmtBits x.afmt) x.lda, matStrip x.bOff x.rowsB.1 x.rowsB.2 (fmtBits x.bfmt) x.ldb]
  else [matStrip x.aOff x.m x.n 32 x.lda]

/-- The input ranges of an outstanding instruction (R256), A first. -/
def mtxInputs (op : Nat) (x : Mdesc) : List (Nat × Nat) := (x.abStrips op ++ x.cStrips op ++ x.sideStrips op).map Strip.hull

/-- Columns of the result. -/
def Mdesc.cols (x : Mdesc) (op : Nat) : Nat := if op = 2 then 1 else x.n

/-- D. -/
def Mdesc.dStrip (x : Mdesc) (op : Nat) : Strip := matStrip x.dOff x.m (x.cols op) (outBits x.out) x.ldd

/-- The output ranges: D, and the row flags of `MSMAX` and `MRED` (R291). -/
def mtxOutputs (op : Nat) (x : Mdesc) : List (Nat × Nat) :=
  (x.dStrip op).hull :: (if op = 0 then [] else [(x.dOff + x.m * x.ldd, x.m)])

/-- Nothing to do (R253, R293). -/
def Mdesc.empty (x : Mdesc) (op : Nat) : Bool := decide (x.m = 0) || decide (x.n = 0) || (decide (op = 0) && decide (x.k = 0))

/-- A descriptor that traps (R253): a reserved code or reserved content, formats that do not go together, a range outside an allocation of
`room` bytes. `MSMAX` and `MRED` ignore the fields they do not use (R254). -/
def mdescBad (op : Nat) (raw : List Byte) (x : Mdesc) (room : Nat) : Bool :=
  decide (6 < x.out) || decide (4096 < x.m) || decide (4096 < x.n)
  || (decide (op = 0) && (decide (7 < x.afmt) || decide (7 < x.bfmt) || decide (1 < x.acc) || decide (4096 < x.k) || decide (3 < x.passes)
    || decide (x.flags / 64 ≠ 0) || decide (bytesLe raw 0x34 12 ≠ 0) || (decide (x.acc = 1) && decide (x.out = 0))
    || (decide (x.acc = 1) && (decide (x.afmt < 4) || decide (x.bfmt < 4)))
    || (decide (x.acc = 0) && (decide (4 ≤ x.afmt) || decide (4 ≤ x.bfmt)))))
  || (mtxInputs op x ++ mtxOutputs op x).any (fun r => decide (0 < r.2) && decide (room < r.1 + r.2))

/-! ## Elements (R271 to R279) -/

/-- The stored code of element `c` of row `r`. -/
def Group.code (g : Group) (off stride bits r c : Nat) : Nat :=
  if bits = 4 then
    (let b := (g.lbyte (off + r * stride + c / 2)).toNat
     if c % 2 = 0 then b % 16 else b / 16)
  else leNat (g.lbytes (off + r * stride + c * (bits / 8)) (bits / 8))

/-- The value of an operand code (R252, R271). -/
def operandVal (f c : Nat) : Fp :=
  match f with
  | 0 => .fin (Q.int (signedOf 4 c))
  | 1 => .fin (Q.int (c : Nat))
  | 2 => .fin (Q.int (signedOf 8 c))
  | 3 => .fin (Q.int (c : Nat))
  | 4 => f4Read c
  | 5 => fmtB.read c
  | 6 => fmt16.read c
  | _ => fmt32.read c

/-- A value rounded into BF16, the largest finite on overflow (R279). -/
def bfPiece (v : Q) : Q :=
  let r := fmtB.roundO v .near
  (fmtB.read (if r.2 then fmtB.maxCode v.isNeg else r.1)).val

/-- The pieces of an operand (R279): hi, lo, lo2. -/
def pieces (f : Nat) (x : Fp) : List Fp :=
  if f = 7 then
    match x with
    | .fin v =>
      let hi := bfPiece v
      let lo := bfPiece (v.sub hi)
      [.fin hi, .fin lo, .fin (bfPiece ((v.sub hi).sub lo))]
    | .nan => [.nan, .fin (Q.int 0), .fin (Q.int 0)]
    | .inf n => [.inf n, .fin (Q.int 0), .fin (Q.int 0)]
  else [x, .fin (Q.int 0), .fin (Q.int 0)]

/-- An operand element: its pieces with their block factor, and what it consumes if it is a NaN: the element or its exponent. -/
structure Elem where
  ps  : List Fp
  nan : Option Bool
  deriving DecidableEq, Repr

/-- An element under its block exponent, if it has one (R276). -/
def elemOf (f : Nat) (exp : Option Nat) (raw : Nat) : Elem :=
  match exp with
  | some 0 => { ps := [.fin (Q.int 0), .fin (Q.int 0), .fin (Q.int 0)], nan := none }
  | some e =>
    if e = 255 then { ps := [.nan, .nan, .nan], nan := some true }
    else
      let x := operandVal f raw
      { ps := (pieces f x).map (fun p => p.mul (.fin (Q.pow2 ((e : Int) - 127)))), nan := if x.isNan then some false else none }
  | none => let x := operandVal f raw; { ps := pieces f x, nan := if x.isNan then some false else none }

/-- Element (i, kk) of A, and (kk, j) of B. -/
def Group.elemA (g : Group) (x : Mdesc) (i kk : Nat) : Elem :=
  let p : Nat × Nat := if x.transA then (kk, i) else (i, kk)
  elemOf x.afmt (if x.bexpA then some (g.lbyte (x.aexp + p.1 * blocks x.rowsA.2 + p.2 / 32)).toNat else none)
    (g.code x.aOff x.lda (fmtBits x.afmt) p.1 p.2)
def Group.elemB (g : Group) (x : Mdesc) (kk j : Nat) : Elem :=
  let p : Nat × Nat := if x.transB then (j, kk) else (kk, j)
  elemOf x.bfmt (if x.bexpB then some (g.lbyte (x.bexp + p.1 * blocks x.rowsB.2 + p.2 / 32)).toNat else none)
    (g.code x.bOff x.ldb (fmtBits x.bfmt) p.1 p.2)

/-- The product kinds, as pieces of A and of B, in accumulation order (R279). -/
def kindsOf (x : Mdesc) (passes : Nat) : List (Nat × Nat) :=
  if x.afmt ≠ 7 ∧ x.bfmt ≠ 7 then [(0, 0)]
  else if passes = 3 then [(2, 0), (1, 1), (0, 2), (1, 0), (0, 1), (0, 0)]
  else if passes = 2 then [(1, 0), (0, 1), (0, 0)]
  else [(0, 0)]

/-! ## Group sums (R281, R282) -/

/-- The sum of a group's products through the window, and whether a non-zero product lay wholly below it. -/
def windowOf (ps : List Fp) : Fp × Bool :=
  if ps.any Fp.isNan || (ps.any (fun p => decide (p = .inf false)) && ps.any (fun p => decide (p = .inf true))) then (.nan, false)
  else if ps.any (fun p => decide (p = .inf false)) then (.inf false, false)
  else if ps.any (fun p => decide (p = .inf true)) then (.inf true, false)
  else
    let qs := (ps.map Fp.val).filter (fun q => !q.isZero)
    match qs with
    | [] => (.fin (Q.int 0), false)
    | q0 :: rest =>
      let e := rest.foldl (fun m q => max m q.log2) q0.log2
      let ts := qs.map (fun q => q.truncAt (e - 26))
      (.fin (Q.sum ts), ts.any Q.isZero)

/-- Rounding into FP32, an overflow giving an infinity (R281). -/
def rnFp (x : Fp) : Fp := f32 (toF32 x)

/-- How accumulation stands: the value, crushed sums, and where it became a NaN from values that are none: kind and first k. -/
structure AccSt where
  acc   : Fp
  crush : Nat
  made  : Option (Nat × Nat)
  deriving DecidableEq, Repr

/-- One group sum added. -/
def AccSt.step (a : AccSt) (ps : List Fp) (kind k0 : Nat) : AccSt :=
  let w := windowOf ps
  let v := rnFp (a.acc.add w.1)
  { acc := v, crush := a.crush + b2n w.2, made := if v.isNan && !a.acc.isNan && a.made.isNone then some (kind, k0) else a.made }

/-- The float path for one element (R281). -/
def floatAcc (as bs : List Elem) (kinds : List (Nat × Nat)) (k : Nat) (c : Fp) : AccSt :=
  (List.range (blocks k)).foldl (fun a q =>
    (kinds.zip (List.range kinds.length)).foldl (fun a2 y =>
      let ps := ((as.zip bs).drop (32 * q)).take 32 |>.map (fun e => (e.1.ps.getD y.1.1 .nan).mul (e.2.ps.getD y.1.2 .nan))
      a2.step ps y.2 (32 * q)) a) { acc := c, crush := 0, made := none }

/-- An addition that saturates in int32 (R280), with the count of saturations. -/
def satAdd (a : Int × Nat) (v : Int) : Int × Nat :=
  let r := a.1 + v
  if r < -2147483648 then (-2147483648, a.2 + 1) else if 2147483647 < r then (2147483647, a.2 + 1) else (r, a.2)

/-- The integer path for one element (R280). -/
def intAcc (as bs : List Elem) (k : Nat) (c : Int) : Int × Nat :=
  (List.range (blocks k)).foldl (fun a q =>
    satAdd a ((((as.zip bs).drop (32 * q)).take 32).foldl (fun (t : Int) e =>
      t + ((e.1.ps.getD 0 .nan).mul (e.2.ps.getD 0 .nan)).val.rint) 0)) (c, 0)

/-! ## The accumulator output (R284, R285) -/

/-- The floating format of an output code. -/
def outFmt (o : Nat) : Fmt := if o = 1 then fmt32 else if o = 2 then fmtB else fmt16

/-- A value written in `OUTFMT`: the code, and whether it saturated. -/
def outWrite (o : Nat) (clip : Bool) (v : Fp) : Nat × Bool :=
  match o with
  | 0 => let r := intWrite (-2147483648) 2147483647 v; ((r.1 % (2 ^ 32 : Nat)).toNat, r.2)
  | 4 => let r := intWrite (-128) 127 v; ((r.1 % 256).toNat, r.2)
  | 5 => let r := intWrite (-8) 7 v; ((r.1 % 16).toNat, r.2)
  | 6 => f4Write v
  | _ =>
    let m := outFmt o
    match v with
    | .nan => (m.nan, false)
    | .inf n => if clip then (m.maxCode n, true) else (m.infCode n, false)
    | .fin q =>
      let r := m.roundO q .near
      if r.2 then (if clip then (m.maxCode q.isNeg, true) else (m.infCode q.isNeg, false)) else (r.1, false)

/-- One row of codes as bytes; the last byte of a row of an odd number of 4-bit codes keeps its high half. -/
def rowBytes (bits : Nat) (codes : List Nat) (old : Byte) : List Byte :=
  if bits = 4 then
    (List.range ((codes.length + 1) / 2)).map (fun i =>
      BitVec.ofNat 8 (codes.getD (2 * i) 0 + 16 * codes.getD (2 * i + 1) (old.toNat / 16)))
  else codes.flatMap (fun c => leBytes (bits / 8) c)

/-! ## Results -/

/-- `TDETAIL` of a matrix instruction (R301). -/
def mtxDetail (off opnd kind row col nk : Nat) : List Byte :=
  leBytes 4 off ++ [BitVec.ofNat 8 opnd, BitVec.ofNat 8 kind, 0xFF, 0] ++ leBytes 2 row ++ leBytes 2 col ++ leBytes 2 nk ++ zeroBytes 2

/-- What a matrix instruction computes: the codes of D by rows, the row flags, the counts of `CLIP` and `CRUSH`, and the first NaN event
(R300) as `TDETAIL`. -/
structure MtxRes where
  rows  : List (List Nat)
  flags : List Nat
  clip  : Nat
  crush : Nat
  event : Option (List Byte)
  deriving DecidableEq, Repr

/-- One element's part of a result. -/
structure ElemRes where
  code  : Nat
  clip  : Nat
  crush : Nat
  event : Option (List Byte)
  deriving DecidableEq, Repr

/-- The first kind that multiplies the hi piece of A, or of B (R301). -/
def hiKind (kinds : List (Nat × Nat)) (ofA : Bool) : Nat := kinds.findIdx (fun y => decide ((if ofA then y.1 else y.2) = 0))

/-- The first NaN an element of D consumes (R298, R300): lowest k, A before B, then C, bias, `SCALE`. -/
def mmaConsumed (x : Mdesc) (kinds : List (Nat × Nat)) (off i j : Nat) (as bs : List Elem) (c bias : Fp) : Option (List Byte) :=
  let atK (kk : Nat) : Option (List Byte) :=
    match (as[kk]?).bind (·.nan), (bs[kk]?).bind (·.nan) with
    | some true, _ =>
      let p : Nat × Nat := if x.transA then (kk, i) else (i, kk)
      some (mtxDetail off 5 0 p.1 (p.2 / 32) kk)
    | some false, _ => some (mtxDetail off 0 (hiKind kinds true) i kk kk)
    | none, some true =>
      let p : Nat × Nat := if x.transB then (j, kk) else (kk, j)
      some (mtxDetail off 6 0 p.1 (p.2 / 32) kk)
    | none, some false => some (mtxDetail off 1 (hiKind kinds false) kk j kk)
    | none, none => none
  match (List.range x.k).findSome? atK with
  | some e => some e
  | none =>
    if c.isNan then some (mtxDetail off 2 0 i j 0)
    else if bias.isNan then some (mtxDetail off 3 0 i 0 0)
    else if (f32 x.scale).isNan then some (mtxDetail off 4 0 0 0 0)
    else none

/-- One element of D (R278 to R285). `inject` makes it consume a NaN (R509). -/
def Group.mmaElem (g : Group) (x : Mdesc) (passes off : Nat) (inject : Bool) (i j : Nat) : ElemRes :=
  let kinds := kindsOf x passes
  let as := (List.range x.k).map (fun kk => g.elemA x i kk)
  let bs := (List.range x.k).map (fun kk => g.elemB x kk j)
  let craw := if x.accum then g.code x.cOff x.ldc 32 i j else 0
  let bias : Fp := if x.bias = noOff then .fin (Q.int 0) else fmt32.read (leNat (g.lbytes (x.bias + 4 * i) 4))
  let c : Fp := if x.acc = 1 then fmt32.read craw else .fin (Q.int (signedOf 32 craw))
  let ia := intAcc as bs x.k (signedOf 32 craw)
  let fa := floatAcc as bs kinds x.k c
  let acc : Fp := if x.acc = 1 then fa.acc else .fin (Q.int ia.1)
  let v : Fp := if inject then .nan else (acc.mul (f32 x.scale)).add bias
  let o := outWrite x.out x.clip v
  let event :=
    if inject then some (mtxDetail off (if x.acc = 1 then 0 else 4) (if x.acc = 1 then hiKind kinds true else 0) 0 0 0)
    else match mmaConsumed x kinds off i j as bs (if x.accum then c else .fin (Q.int 0)) bias with
      | some e => some e
      | none =>
        match (if x.acc = 1 then fa.made else none) with
        | some (kd, k0) => some (mtxDetail off 8 kd i j k0)
        | none => if v.isNan && !acc.isNan then some (mtxDetail off 9 0 i j 0) else none
  { code := o.1, clip := (if x.acc = 1 then 0 else ia.2) + b2n o.2, crush := if x.acc = 1 then fa.crush else 0, event := event }

/-- `MMA` (R278 to R285). -/
def Group.mmaRes (g : Group) (x : Mdesc) (passes off : Nat) (inject : Bool) : MtxRes :=
  let es := (List.range x.m).map (fun i => (List.range x.n).map (fun j => g.mmaElem x passes off (inject && decide (i = 0 ∧ j = 0)) i j))
  let all := es.flatten
  { rows := es.map (fun r => r.map (·.code)), flags := [], clip := (all.map (·.clip)).foldl (· + ·) 0,
    crush := (all.map (·.crush)).foldl (· + ·) 0, event := all.findSome? (·.event) }

/-! ## Soft maximum and reductions (R290 to R293) -/

/-- Whether position `j` of row `r` is unmasked (R254, R291). -/
def Group.unmasked (g : Group) (x : Mdesc) (r j : Nat) : Bool :=
  decide (x.bias = noOff) || bit (g.lbyte (x.bias + r * ((x.n + 7) / 8) + j / 8)).toNat (j % 8)

/-- The unmasked positions of a row. -/
def Group.rowU (g : Group) (x : Mdesc) (r : Nat) : List Nat := (List.range x.n).filter (fun j => g.unmasked x r j)

/-- An input of a row as FP32. -/
def Group.rowX (g : Group) (x : Mdesc) (r j : Nat) : Fp := fmt32.read (g.code x.aOff x.lda 32 r j)

/-- What one row gives: its values, its flags, the position of the NaN it consumes, whether it produces one, crushed sums. -/
structure RowRes where
  vals  : List Fp
  flags : Nat
  eaten : Option Nat
  made  : Bool
  crush : Nat
  deriving DecidableEq, Repr

/-- One row of `MSMAX` (R290). -/
def Group.softRow (g : Group) (x : Mdesc) (r : Nat) (inject : Bool) : RowRes :=
  let us := g.rowU x r
  let v (j : Nat) : Fp := if inject && decide (us.head? = some j) then .nan else g.rowX x r j
  let zero : Fp := .fin (Q.int 0)
  let all (f : Nat → Fp) : List Fp := (List.range x.n).map f
  if us.all (fun j => decide (v j = .inf true)) then { vals := all (fun _ => zero), flags := 1, eaten := none, made := false, crush := 0 }
  else match us.find? (fun j => (v j).isNan) with
    | some j => { vals := all (fun _ => .nan), flags := 2, eaten := some j, made := false, crush := 0 }
    | none =>
      let tops := us.filter (fun j => decide (v j = .inf false))
      if tops ≠ [] then
        { vals := all (fun j => if j ∈ tops then .fin { num := 1, den := tops.length } else zero), flags := 4, eaten := none, made := false, crush := 0 }
      else
        let m := us.foldl (fun a j => if a.lt (v j) then v j else a) (.inf true)
        let t (j : Nat) : Fp := f32 (fExp2 (rnFp ((rnFp ((v j).add m.neg)).mul (f32 0x3FB8AA3B))))
        let s := us.foldl (fun a j => rnFp (a.add (t j))) zero
        { vals := all (fun j => if j ∈ us then rnFp ((t j).div s) else zero), flags := 0, eaten := none, made := false, crush := 0 }

/-- What a reduction of no position gives (R292), as a code of `OUTFMT`. -/
def redIdentity (op o : Nat) : Nat :=
  match op with
  | 0 => 0
  | 1 => if o = 1 then 0x3F800000 else if o = 2 then 0x3F80 else if o = 3 then 0x3C00 else if o = 6 then 2 else 1
  | 2 => if o = 1 then 0xFF800000 else if o = 2 then 0xFF80 else if o = 3 then 0xFC00 else if o = 6 then 15
         else if o = 0 then 0x80000000 else if o = 4 then 0x80 else 8
  | _ => if o = 1 then 0x7F800000 else if o = 2 then 0x7F80 else if o = 3 then 0x7C00 else if o = 6 then 7
         else if o = 0 then 0x7FFFFFFF else if o = 4 then 0x7F else 7

/-- One row of `MRED` with at least one position (R292). -/
def Group.redRow (g : Group) (x : Mdesc) (op r : Nat) (inject : Bool) : RowRes :=
  let us := g.rowU x r
  let v (j : Nat) : Fp := if inject && decide (us.head? = some j) then .nan else g.rowX x r j
  match us.find? (fun j => (v j).isNan) with
  | some j => { vals := [.nan], flags := 2, eaten := some j, made := false, crush := 0 }
  | none =>
    match op with
    | 0 =>
      let a := (List.range (blocks x.n)).foldl (fun (a : AccSt) q =>
        a.step ((us.filter (fun j => decide (j / 32 = q))).map v) 0 (32 * q)) { acc := .fin (Q.int 0), crush := 0, made := none }
      { vals := [a.acc], flags := 0, eaten := none, made := a.acc.isNan, crush := a.crush }
    | 1 =>
      let p := us.foldl (fun a j => rnFp (a.mul (v j))) (.fin (Q.int 1))
      { vals := [p], flags := 0, eaten := none, made := p.isNan, crush := 0 }
    | 2 => { vals := [us.foldl (fun a j => if a.lt (v j) then v j else a) (.inf true)], flags := 0, eaten := none, made := false, crush := 0 }
    | _ => { vals := [us.foldl (fun a j => if (v j).lt a then v j else a) (.inf false)], flags := 0, eaten := none, made := false, crush := 0 }

/-- `MSMAX` and `MRED` (R290 to R293), as if `CLIP` were 0. -/
def Group.rowRes (g : Group) (op typ : Nat) (x : Mdesc) (off : Nat) (inject : Bool) : MtxRes :=
  let rs := (List.range x.m).map (fun r =>
    let here := inject && decide (r = 0)
    if op = 1 then
      (let y := g.softRow x r here
       (y, y.vals.map (outWrite x.out false)))
    else if g.rowU x r = [] then
      ({ vals := [], flags := 1, eaten := none, made := false, crush := 0 }, [(redIdentity typ x.out, false)])
    else
      (let y := g.redRow x typ r here
       (y, y.vals.map (outWrite x.out false))))
  let event (p : (RowRes × List (Nat × Bool)) × Nat) : Option (List Byte) :=
    match p.1.1.eaten with
    | some j => some (mtxDetail off 0x0A 0 p.2 (if op = 2 then 0 else j) 0)
    | none => if p.1.1.made then some (mtxDetail off 0x0B 0 p.2 0 0) else none
  { rows := rs.map (fun p => p.2.map (·.1)), flags := rs.map (fun p => p.1.flags),
    clip := ((rs.map (fun p => (p.2.filter (·.2)).length)).foldl (· + ·) 0), crush := (rs.map (fun p => p.1.crush)).foldl (· + ·) 0,
    event := (rs.zip (List.range rs.length)).findSome? event }

/-- What an outstanding instruction computes from the group's local store. -/
def Group.mtxRes (g : Group) (o : MtxOp) (passes : Nat) (inject : Bool) : MtxRes :=
  let x := mdescOf o.desc
  if o.op = 0 then g.mmaRes x passes o.off inject else g.rowRes o.op o.typ x o.off inject

/-- Tile beats (R255). -/
def mtxBeats (op : Nat) (x : Mdesc) (passes : Nat) : Nat :=
  let q (n : Nat) : Nat := (n + 31) / 32
  if op = 0 then
    (let w := max (fmtBits x.afmt) (fmtBits x.bfmt)
     let c := if w = 4 then 1 else if w = 8 then 2 else if w = 16 then 4 else if passes = 3 then 24 else if passes = 2 then 12 else 4
     q x.m * q x.n * q x.k * c)
  else q x.m * q x.n * 4

/-- D overlaps an operand other than a C that it coincides with, at the same offset and the same row stride (R283). -/
def mtxClash (op : Nat) (x : Mdesc) : Bool :=
  let d := x.dStrip op
  (x.abStrips op ++ x.sideStrips op).any (fun r => r.clash d)
  || (x.cStrips op).any (fun c => c.clash d && decide (c ≠ d))

/-! ## What is read (R276, R278) -/

/-- The blocks of a stored operand whose elements are read, those of exponent zero left out (R276). -/
def Group.liveBlocks (g : Group) (exp off stride bits : Nat) (rows : Nat × Nat) : List Strip :=
  (List.range rows.1).flatMap (fun r => (List.range (blocks rows.2)).filterMap (fun b =>
    if g.lbyte (exp + r * blocks rows.2 + b) = 0 then none
    else some (flatStrip (off + r * stride + b * 32 * bits / 8) ((min 32 (rows.2 - 32 * b) * bits + 7) / 8))))

/-- The bytes of local store that an instruction reads, as strips. -/
def Group.mtxReads (g : Group) (op : Nat) (x : Mdesc) : List Strip :=
  let ab := if op = 0 then
      (if x.bexpA then g.liveBlocks x.aexp x.aOff x.lda (fmtBits x.afmt) x.rowsA else [matStrip x.aOff x.rowsA.1 x.rowsA.2 (fmtBits x.afmt) x.lda])
      ++ (if x.bexpB then g.liveBlocks x.bexp x.bOff x.ldb (fmtBits x.bfmt) x.rowsB else [matStrip x.bOff x.rowsB.1 x.rowsB.2 (fmtBits x.bfmt) x.ldb])
    else x.abStrips op
  ab ++ x.cStrips op ++ x.sideStrips op

end Sys2Proof.Machine
end

