-- ==== Sys2Proof/Machine/Issue.lean ====
section
/-! DEFINITION. When a core instruction may issue (R225, R226): what makes it wait in each class, the order among ready groups, and issue
itself. -/

namespace Sys2Proof.Machine

/-! ## Interlocks (R256) -/

/-- The output ranges of a group's outstanding matrix instructions, and their input ranges. -/
def Group.mtxOut (g : Group) : List (Nat × Nat) := g.mtx.flatMap (fun o => mtxOutputs o.op (mdescOf o.desc))
def Group.mtxIn (g : Group) : List (Nat × Nat) := g.mtx.flatMap (fun o => mtxInputs o.op (mdescOf o.desc))

/-- A read of local store waits: it overlaps an output of an outstanding matrix instruction. -/
def Group.readWaits (g : Group) (r : Nat × Nat) : Bool := overlaps g.mtxOut r

/-- A write of local store waits: it overlaps an output or an input of one. -/
def Group.writeWaits (g : Group) (r : Nat × Nat) : Bool := overlaps g.mtxOut r || overlaps g.mtxIn r

/-- Bytes of a group's allocation. -/
def Group.room (g : Group) : Nat := g.localK * 1024

/-- A local offset: a register and a signed immediate. -/
def localOff (a : Word) (imm : BitVec 16) : Int := (a.toNat : Int) + imm.toInt

/-- A range of `n` bytes lies within the allocation and is aligned to `al` (R246). -/
def Group.inside (g : Group) (off : Int) (n al : Nat) : Bool :=
  decide (0 ≤ off) && decide (off.toNat + n ≤ g.room) && decide (off.toNat % al = 0)

/-! ## What an instruction waits for (R226) -/

/-- The offset of a thread's access. -/
def Group.localAt (g : Group) (f : Fields) (j : Nat) : Int := localOff (g.srcA f j) f.imm

/-- A wait counter (R251). -/
def Group.counter (g : Group) (n : Nat) : Nat := SMap.get 0 g.wctr n

/-- A wait counter changed. -/
def Group.bumpCtr (g : Group) (c : Nat) (up : Bool) : Group :=
  { g with wctr := SMap.set 0 g.wctr c (if up then g.counter c + 1 else g.counter c - 1) }

/-- A matrix instruction waits: for its counter, for one of eight places, for its descriptor, or for the ranges it would share with an
outstanding one (R251, R256). -/
def Group.mtxWaits (g : Group) (op : Nat) (f : Fields) : Bool :=
  let off := localOff (g.srcA f g.lowest) f.imm
  let raw := g.lbytes off.toNat 64
  let x := mdescOf raw
  decide (g.active ≠ 0) && g.inside off 64 1
    && (g.readWaits (off.toNat, 64) || decide (63 ≤ g.counter (f.dst.toNat % 4)) || decide (8 ≤ g.mtx.length)
      || (!x.empty op && !mdescBad op raw x g.room && ((mtxInputs op x).any g.readWaits || (mtxOutputs op x).any g.writeWaits)))

/-- The group, by batch and `seed`, that a host write is a store of. -/
def AckFor.storeOf : AckFor → Option (Bid × Nat)
  | .store b n _ => some (b, n)
  | .result _ _ _ | .batch _ | .completion _ | .fault | .free => none

/-- Accesses of a group that are not complete (R244): the group's own work and its stores to host memory. -/
def State.unfinished (s : State) (g : Group) : Bool := g.busy || s.hostWr.any (fun h => decide (h.fr.storeOf = some (g.bid, g.seed)))

/-- A mask entry without the threads of X. -/
def MaskEntry.lose (e : MaskEntry) (x : Mask) : MaskEntry := { outer := e.outer &&& ~~~x, pend := e.pend &&& ~~~x }

/-- A group that has run its instruction goes on to the next. -/
def Group.next (g : Group) : Group := { g with pc := g.pc + 8 }

/-- A group after its active threads have exited (R240). -/
def Group.exited (g : Group) : Group :=
  { g.next with live := g.live &&& ~~~g.active, mstack := g.mstack.map (fun e => e.lose g.active), active := 0 }

/-- Whether a value that a thread returns at `EXIT` is still to come: the outputs of R233 lie in v0 to v16. -/
def Group.exitWaits (g : Group) : Bool :=
  (decide (g.exited.live = 0) && g.busy) || g.sends.any (fun p => g.active.getLsbD p.1 && decide (p.2 ≤ 16))

/-! ## A thread's slot (R317, R321) -/

/-- A `GENERATE` program's emission stalls while its walkers would pass the most that may be held (R178). -/
def State.emitStalls (s : State) (g : Group) : Bool := decide (g.entry = 4) && decide (heldMax < s.heldWalkers.length + g.threads.length)

/-- The batch, the walker and the slot of a thread: none for a walker whose batch does not accumulate, that is still being generated, or
whose slot lies beyond `COUNT` (R317). -/
def State.slotOf (s : State) (g : Group) (t : Nat) : Option (Batch × Walker) :=
  match g.invs[t]? with
  | none => none
  | some i =>
    match s.batch i.bid, s.invWalker i with
    | some x, some w => if x.desc.accum && decide (w.ray.slot.toNat < x.desc.count) then some (x, w) else none
    | _, _ => none

/-- The host address of word `k` of a slot (R317). -/
def slotAddr (x : Batch) (w : Walker) (k : Nat) : Nat := x.desc.slotAddr / 16 * 16 + w.ray.slot.toNat * 16 + 4 * k

/-- The interlock of a thread's slot taken: `false` while another thread holds it or the table of 1,024 is full. -/
def State.lockOne (s : State) (g : Group) (t : Nat) : State × Bool :=
  match s.slotOf g t with
  | none => (s, true)
  | some (x, w) =>
    if x.desc.ordered then (s, true)
    else
      match s.locks.find? (fun l => decide (l.bid = w.bid) && decide (l.slot = w.ray.slot.toNat)) with
      | some l => (s, decide (l.idx = w.idx))
      | none =>
        if 1024 ≤ s.locks.length then (s, false)
        else ({ s with locks := s.locks ++ [{ bid := w.bid, slot := w.ray.slot.toNat, idx := w.idx }] }, true)

/-- The interlocks of the slots of a group's active threads taken, as far as they can be had, and whether all were. -/
def State.lockAll (s : State) (g : Group) : State × Bool :=
  g.threads.foldl (fun p j => let u := p.1.lockOne g j; (u.1, p.2 && u.2)) (s, true)

/-- What a thread reads: the partial of an ordered batch, host memory through the stamps, or, with no slot, a value the spec does not
state (log 3). `none` while a stamp is withdrawn (R377). -/
def State.slotRead (s : State) (g : Group) (f : Fields) (t : Nat) : Option (List Word) :=
  match s.slotOf g t with
  | none => some ((List.range (slotCount f)).map (fun i => Config.freeWord s.freeCtr (4 * t + i)))
  | some (x, w) =>
    if x.desc.ordered then some ((w.part.drop (slotWord f)).take (slotCount f))
    else (s.stampRead x.bid (slotAddr x w (slotWord f)) (4 * slotCount f)).map
      (fun bs => (List.range (slotCount f)).map (fun i => bytesWord bs (4 * i)))

/-- One thread's write; `none` while the transfer is held (R377, R427). -/
def State.slotWrite (s : State) (g : Group) (f : Fields) (t : Nat) : Option State :=
  let ws := (List.range (slotCount f)).map (fun k => g.srcA f t k)
  match s.slotOf g t with
  | none => some s
  | some (x, w) =>
    if x.desc.ordered then
      let part := (List.range 4).map (fun i =>
        if slotWord f ≤ i ∧ i < slotWord f + slotCount f then ws.getD (i - slotWord f) 0 else w.part.getD i 0)
      some (s.setWalker { w with part := part })
    else if !s.mayWrite x.bid then none
    else s.stampWrite x.bid (slotAddr x w (slotWord f)) (wordsBytes ws) (.store g.bid g.seed w.dist)

/-- The writes of the active threads, in thread order. -/
def State.slotWrites (s : State) (g : Group) (f : Fields) : List Nat → Option State
  | [] => some s
  | t :: rest =>
    match s.slotWrite g f t with
    | none => none
    | some u => u.slotWrites g f rest

/-- Whether a register that `RECV` may write is still to receive a status (R226). -/
def Group.recvWaits (g : Group) (f : Fields) : Bool :=
  g.sends.any (fun p => decide (p.2 ≠ 255) && ((decide (f.dst.toNat ≤ p.2) && decide (p.2 < f.dst.toNat + 28)) || decide (p.2 = f.sa.toNat)))

/-- `FILL.L`: where a thread's copy goes. -/
def Group.fillTo (g : Group) (f : Fields) (j : Nat) : Nat := (g.srcB f j).toNat

/-- Whether an instruction at the front of a group's stream has to wait, its operands apart (R226). -/
def State.opWaits (s : State) (g : Group) (cls op : Nat) (f : Fields) : Bool :=
  let n := memBytes f.typ.toNat
  let inLocal (m : Nat) : Bool := g.threads.all (fun j => g.inside (g.localAt f j) m m)
  match cls, op with
  | 4, 0x10 => decide (g.active = g.launch) && s.unfinished g
  | 4, 0x11 => s.unfinished g
  | 4, 0x12 => decide (f.imm.toNat / 4 % 64 < g.counter (f.imm.toNat % 4))
  | 4, 0x18 => g.exitWaits || s.emitStalls g
  | 5, 0 => inLocal n && g.threads.any (fun j => g.readWaits ((g.localAt f j).toNat, n))
  | 5, 1 => inLocal n && g.threads.any (fun j => g.writeWaits ((g.localAt f j).toNat, n))
  | 5, 3 => g.threads.all (fun j => g.inside (g.fillTo f j : Nat) f.imm.toNat 64)
      && (decide (63 ≤ g.counter (f.dst.toNat % 4)) || g.threads.any (fun j => g.writeWaits (g.fillTo f j, f.imm.toNat)))
  | 5, 5 => !s.mayWrite g.bid
  | 6, _ => g.mtxWaits op f
  | 7, 1 => g.recvWaits f
  | 8, 0 => !(s.lockAll g).2
  | 8, 1 => g.threads.any (fun j => (s.slotRead g f j).isNone)
  | 8, 2 => (s.slotWrites g f g.threads).isNone
  | _, _ => false

/-- A group that waits at `SLOT.LOCK` takes the interlocks it can have meanwhile. -/
def State.waiting (s : State) (g : Group) (cls op : Nat) : State := if cls = 8 ∧ op = 0 then (s.lockAll g).1 else s

/-- A register that an operation names is still to receive the status of a message (R226, R258); 256 up are uniform registers. -/
def Group.pendingReg (g : Group) (cls op : Nat) (f : Fields) : Bool :=
  let m := opForm cls op f
  g.sends.any (fun p => (decide (p.2 ≠ 255) && decide (p.2 ∈ m.reads f ++ m.writes f)) || (decide (256 ≤ p.2) && decide (p.2 - 256 ∈ opUregs cls op f)))

/-- Whether a class acts for the active threads alone, so that an instruction of it does nothing where there is none (R239, R257). -/
def laneOnly (cls : Nat) : Bool := decide (cls ≠ 4) && decide (cls ≠ 6)

/-- Whether a group's instruction can issue without waiting (R226). A trap, an illegal encoding and an instruction that no thread runs do not
wait. -/
def State.canIssue (s : State) (g : Group) (cls op : Nat) (f : Fields) : Bool :=
  decide (g.nanPend ≠ []) || (!g.pendingReg cls op f
    && (!g.legal cls op f || (laneOnly cls && decide (g.active = 0)) || !s.opWaits g cls op f))

/-! ## The order of issue (R225) -/

/-- A group is ready with an instruction of one kind, lane or unit. -/
def State.readyGroup (s : State) (d : Nat) (unit : Bool) (g : Group) : Bool :=
  !s.heldGroup d g && (match g.ir with
    | none => false
    | some w => decide (unitClass (wordClass w) = unit) && s.canIssue g (wordClass w) (wordOp w) (wordFields w))

/-- Whether no ready group with an instruction of the same kind comes before a group: by class, Express first, then by age. -/
def State.leads (s : State) (d k cls : Nat) (g : Group) : Bool :=
  (s.dist d).core.groups.all (fun p => decide (p.1 = k) || !s.readyGroup d (unitClass cls) p.2
    || decide (g.cls < p.2.cls) || (decide (g.cls = p.2.cls) && decide (g.age ≤ p.2.age)))

/-! ## Issue -/

/-- What an instruction comes to. -/
inductive Act where
  /-- It is done: the group afterwards, its address included, and the register words it wrote. -/
  | done (s : State) (g : Group) (keys : List Nat)
  /-- It traps, with a cause, TWORD and TDETAIL. -/
  | trap (s : State) (cause : Nat) (tword : BitVec 16) (detail : List Byte)
  /-- The state already says all: the group ended or stopped, or its core failed. -/
  | gone (s : State)

/-- A done instruction's state: the group as it is now, running, and the instruction counted (R497). -/
def State.retireIns (s : State) (d k : Nat) (g : Group) (keys : List Nat) : State :=
  let r := s.wroteRegs d g keys
  (r.1.putGroup d k { r.2 with ir := none, parked := none, replay := false, settled := false }).count d 4 1

/-- The outcome of an instruction put into effect. -/
def Act.apply (a : Act) (d k : Nat) (g : Group) : State :=
  match a with
  | .done s h keys => s.retireIns d k h keys
  | .trap s c w det => s.raiseHere d k g c w det
  | .gone s => s

/-- The registers of active threads that an instruction names. -/
def Group.keys (g : Group) (rs : List Nat) : List Nat := g.threads.flatMap (fun t => (rs.filter (fun r => decide (r ≠ 255))).map (fun r => t * 256 + r))

/-- An instruction word reaches the front of a group's stream (R225, R226, R236, R237, R239, R261): the group must be free to issue it and come
before the other ready groups, and it must be the word fetched. A NaN trap of a matrix instruction is taken first (R302); then come the
fetch limit, the scoreboard, the encoding, the empty mask, the waits of R226, and the registers read. -/
def State.issue (s : State) (r : GRef) (cls op : Nat) (f : Fields) (body : State → Group → Act) : State :=
  let d := r.dist.val
  let k := r.slot.val
  if !s.coreOn d then s
  else
    match s.group d k with
    | none => s
    | some g =>
      if s.heldGroup d g || !s.leads d k cls g || (match g.ir with
          | some x => decide (x ≠ insWord cls op f)
          | none => false) then s
      else if s.armed (Fld.dstInjectCore d) then (s.disarm (Fld.dstInjectCore d)).coreExpiry d
      else
        match g.nanPend with
        | t :: _ => s.raise d k g t
        | [] =>
          if g.codeLen ≤ g.pc then s.raiseHere d k g 2 0 []
          else if g.pendingReg cls op f then s
          else if !g.legal cls op f then s.raiseHere d k g 1 0 []
          else if laneOnly cls && decide (g.active = 0) then s.retireIns d k { g with pc := g.pc + 8 } []
          else if s.opWaits g cls op f then s.waiting g cls op
          else
            match s.readRegs d g ((opForm cls op f).reads f) with
            | (t, none) => t
            | (t, some h) => (body t h).apply d k h

/-- A lane result: the words of each active thread put into the destination, the address moved on. -/
def laneDone (s : State) (g : Group) (m : Form) (f : Fields) (val : Nat → List Word) : Act :=
  .done s (g.putLanes f val).next (g.keys (m.writes f))

end Sys2Proof.Machine
end

