-- ==== Sys2Proof/Machine/Control.lean ====
section
/-! DEFINITION. Control instructions of the intersection cores (class CTL: R234, R237, R240 to R245, R251, R261), and what threads return at
`EXIT` (R233, R113, R146, R152, R318). -/

namespace Sys2Proof.Machine

/-- A control instruction: it acts on the group whatever the mask (R239); `TYPE` and `IB` are 0 (R514). -/
def State.ctlIns (s : State) (r : GRef) (f : Fields) (code : Nat) (body : State → Group → Act) : Res :=
  .next (s.issue r 4 code f body)

/-- The target of a branch (R237): the instruction's address plus `IMM16` × 8, signed. -/
def Group.target (g : Group) (f : Fields) : Nat := (((g.pc : Int) + f.imm.toInt * 8) % (2 ^ 32 : Nat)).toNat

/-- A group that goes on at an address. -/
def Group.jump (g : Group) (a : Nat) : Group := { g with pc := a }

/-- The predicate of a control instruction: field `SC` (R514). -/
def Group.predC (g : Group) (f : Fields) : Mask := g.pred f.sc.toNat

/-! ## Branches (R242) and calls (R234, R237) -/

/-- `BRA` (R242). -/
def execBra (r : GRef) (f : Fields) (s : State) : Res := s.ctlIns r f 0x00 (fun t g => .done t (g.jump (g.target f)) [])

/-- A branch taken where a condition holds. -/
def Group.branch (g : Group) (f : Fields) (c : Bool) : Group := if c then g.jump (g.target f) else g.next

/-- `BRA.ANY` (R242). -/
def execBraAny (r : GRef) (f : Fields) (s : State) : Res :=
  s.ctlIns r f 0x01 (fun t g => .done t (g.branch f (decide (g.active &&& g.predC f ≠ 0))) [])

/-- `BRA.NONE` (R242). -/
def execBraNone (r : GRef) (f : Fields) (s : State) : Res :=
  s.ctlIns r f 0x02 (fun t g => .done t (g.branch f (decide (g.active &&& g.predC f = 0))) [])

/-- `BRA.EMPTY` (R242). -/
def execBraEmpty (r : GRef) (f : Fields) (s : State) : Res :=
  s.ctlIns r f 0x03 (fun t g => .done t (g.branch f (decide (g.active = 0))) [])

/-- The group's return address put into u63 (R234). -/
def Group.link (g : Group) : Group := g.setU 63 (BitVec.ofNat 32 (g.pc + 8))

/-- A computed target (R237): not a multiple of 8, or at or above `CODE_LEN`, traps with cause `FETCH`. -/
def Group.badTarget (g : Group) (a : Nat) : Bool := decide (a % 8 ≠ 0) || decide (g.codeLen ≤ a)

/-- `CALL` (R234). -/
def execCall (r : GRef) (f : Fields) (s : State) : Res := s.ctlIns r f 0x04 (fun t g => .done t (g.link.jump (g.target f)) [])

/-- `CALLR` (R237). -/
def execCallr (r : GRef) (f : Fields) (s : State) : Res :=
  s.ctlIns r f 0x05 (fun t g =>
    let a := (g.ureg f.sa.toNat).toNat
    if g.badTarget a then .trap t 2 0 [] else .done t (g.link.jump a) [])

/-- `RET` (R237). -/
def execRet (r : GRef) (f : Fields) (s : State) : Res :=
  s.ctlIns r f 0x06 (fun t g =>
    let a := (g.ureg 63).toNat
    if g.badTarget a then .trap t 2 0 [] else .done t (g.jump a) [])

/-! ## The mask stack (R240, R241), its top first -/

/-- `PUSH` (R240, R241). -/
def execPush (r : GRef) (f : Fields) (s : State) : Res :=
  s.ctlIns r f 0x08 (fun t g =>
    if 16 ≤ g.mstack.length then .trap t 3 0 []
    else
      let e : MaskEntry := { outer := g.active, pend := g.active &&& ~~~(g.predC f) }
      .done t { g.next with mstack := e :: g.mstack, active := g.active &&& g.predC f } [])

/-- `ELSE` (R240, R241). -/
def execElseM (r : GRef) (f : Fields) (s : State) : Res :=
  s.ctlIns r f 0x09 (fun t g =>
    match g.mstack with
    | [] => .trap t 4 0 []
    | e :: rest => .done t { g.next with mstack := { e with pend := 0 } :: rest, active := e.pend } [])

/-- The threads of X leave the active mask: entry `n` keeps them pending, every entry above it loses them (R240). -/
def brkStack (x : Mask) : Nat → List MaskEntry → List MaskEntry
  | _, [] => []
  | 0, e :: rest => { e with pend := e.pend ||| x } :: rest
  | n + 1, e :: rest => { outer := e.outer &&& ~~~x, pend := e.pend &&& ~~~x } :: brkStack x n rest

/-- `BRK` (R240, R241). -/
def execBrk (r : GRef) (f : Fields) (s : State) : Res :=
  s.ctlIns r f 0x0A (fun t g =>
    let n := f.imm.toNat % 16
    if g.mstack.length ≤ n then .trap t 4 0 []
    else
      let x := g.active &&& g.predC f
      .done t { g.next with mstack := brkStack x n g.mstack, active := g.active &&& ~~~x } [])

/-- `RECONV` (R240, R241). -/
def execReconv (r : GRef) (f : Fields) (s : State) : Res :=
  s.ctlIns r f 0x0B (fun t g =>
    match g.mstack with
    | [] => .trap t 4 0 []
    | e :: rest => .done t { g.next with mstack := { e with pend := 0 } :: rest, active := g.active ||| e.pend } [])

/-- `POP` (R240, R241). -/
def execPop (r : GRef) (f : Fields) (s : State) : Res :=
  s.ctlIns r f 0x0C (fun t g =>
    match g.mstack with
    | [] => .trap t 4 0 []
    | e :: rest => .done t { g.next with mstack := rest, active := e.outer } [])

/-! ## Barriers and waits (R244, R245, R251) -/

/-- `BAR.ALL` (R245): it is passed once the group's earlier accesses are complete (R244). -/
def execBarAll (r : GRef) (f : Fields) (s : State) : Res :=
  s.ctlIns r f 0x10 (fun t g => if g.active ≠ g.launch then .trap t 5 0 [] else .done t g.next [])

/-- `BAR.ACTIVE` (R245). -/
def execBarActive (r : GRef) (f : Fields) (s : State) : Res := s.ctlIns r f 0x11 (fun t g => .done t g.next [])

/-- `WAIT` (R251): passed once the counter `IMM16`[1:0] is at most `IMM16`[7:2]. -/
def execWait (r : GRef) (f : Fields) (s : State) : Res := s.ctlIns r f 0x12 (fun t g => .done t g.next [])

/-- `TRAP` (R261): `IMM16` is recorded. -/
def execTrap (r : GRef) (f : Fields) (s : State) : Res := s.ctlIns r f 0x19 (fun t _ => .trap t 9 f.imm [])

/-- `NOP` (R237). -/
def execNop (r : GRef) (f : Fields) (s : State) : Res := s.ctlIns r f 0x1F (fun t g => .done t g.next [])

/-! ## What threads return (R233) -/

/-- A free choice of one bit, drawn afresh (R153). -/
def State.freeBit (s : State) : State × Bool := ({ s with freeCtr := s.freeCtr + 1 }, (Config.freeByte s.freeCtr 0).getLsbD 0)

/-- A candidate returned by an `INTERSECT` or leaf `SCORE` program (R152, R146): discarded when its t is not finite or outside its interval, or when it is culled. -/
def State.progHit (s : State) (x : Batch) (w : Walker) (g : Group) (j : Nat) (h : Hit) : State :=
  let t := f32 (g.vreg j 1)
  let flip := ((w.inst h.ctx).map (·.flip)).getD false
  let front := (g.vreg j 4).getLsbD 0 != flip
  if !(t.isFin && (f32 w.ray.tmin).le t && t.le (tLimit x w)) || culled w front h.fl.noCull then s.place w
  else
    let r := s.freeBit
    r.1.offer x w { h with t := g.vreg j 1, b1 := g.vreg j 2, b2 := g.vreg j 3, front := front } h.fl.opq h.fl.noAnyhit r.2

/-- An any-hit program's answer (R233): 1 accepts, 2 accepts and ends the walk, others reject. -/
def State.anyhitDone (s : State) (x : Batch) (w : Walker) (v0 : Nat) (h : Hit) : State :=
  if v0 = 1 ∨ v0 = 2 then
    let r := s.freeBit
    r.1.acceptHit x w h r.2 (decide (v0 = 2))
  else s.place { w with cand := none }

/-- A contribution returned by an `ACCUMULATE` program (R233, R318): up to four words; `v5`[0] ends the walk. -/
def State.accumDone (s : State) (x : Batch) (w : Walker) (g : Group) (j : Nat) : State :=
  let n := (g.vreg j 0).toNat
  let words := if n ≤ 4 then (List.range n).map (fun i => g.vreg j (1 + i)) else []
  let r := s.contribute x { w with cand := none } words
  if (g.vreg j 5).getLsbD 0 then r.1.endWalk r.2 else r.1.place r.2

/-- A walker generated (R219, R233): its ray record is in `v1` up; `v0` other than 1 makes a miss. -/
def State.genDone (s : State) (x : Batch) (d : Nat) (g : Group) (j : Nat) (i : Invocation) : State :=
  let w := State.genWalker x d i s.clock
  let t := s.enterWalker w
  if g.regvs.getLsbD j then (t.regViol i.bid).endWalk w
  else if g.vreg j 0 = 1 then
    t.enterRay x w (rayOf x.desc.recF (wordsBytes ((List.range (x.desc.rayBytes / 4)).map (fun k => g.vreg j (1 + k)))))
  else t.endWalk w

/-- An update record returned by a `REFIT` program (R233, R121): applied as `v1` to `v16` hold it, or skipped. -/
def State.refitDone (s : State) (w : Walker) (g : Group) (j : Nat) : State :=
  if g.vreg j 0 = 1 then
    let u := wordsBytes ((List.range 16).map (fun k => g.vreg j (1 + k)))
    s.applyUpdate { w with upd := u, contrib := true } u
  else s.endQuiet w

/-- A rerank's scores read from local store (R215): the invocation keeps where its entries lie. -/
def State.scoreDone (s : State) (w : Walker) (g : Group) (i : Invocation) : State :=
  match s.heapOf w.dist w with
  | none => s.endQuiet w
  | some h =>
    s.rerankDone w ((h.ents.zip (List.range h.ents.length)).map (fun p =>
      (BitVec.ofNat 32 (leNat (g.lbytes (i.hit.recA + 16 * p.2) 4)), p.1.2.1, p.1.2.2)))

/-- A thread's walker goes on with what its program returned (R233); after a failed region check the walk ends (R247, R84). -/
def State.exitWalker (s : State) (x : Batch) (w : Walker) (g : Group) (j : Nat) (i : Invocation) : State :=
  let bad := g.regvs.getLsbD j
  if x.desc.isProbe then (if bad then s.regViol w.bid else s).scoreDone w g i
  else if x.desc.isRefit then (if bad then (s.regViol w.bid).endQuiet w else s.refitDone w g j)
  else if bad then s.violate { w with cand := none }
  else
    match i.entry with
    | 2 => s.anyhitDone x w (g.vreg j 0).toNat i.hit
    | 3 => s.accumDone x w g j
    | _ => if g.vreg j 0 = 1 then s.progHit x w g j i.hit else s.place w

/-- One thread exits: it releases its slot lock, and its outputs are taken (R233, R238, R322). -/
def State.exitThread (s : State) (d : Nat) (g : Group) (j : Nat) : State :=
  match g.invs[j]? with
  | none => s
  | some i =>
    let t : State := { s with locks := s.locks.filter (fun l => !(decide (l.bid = i.bid) && decide (l.idx = i.idx))) }
    match t.batch i.bid with
    | none => t
    | some x =>
      if x.stop || x.status.isSome then t.dropInv d i
      else if i.entry = 4 then t.genDone x d g j i
      else
        match t.invWalker i with
        | none => t
        | some w => t.exitWalker x w g j i

/-- `EXIT` (R233, R240, R243): the group ends when its live mask becomes empty, once its outstanding work has completed. -/
def execExit (r : GRef) (f : Fields) (s : State) : Res :=
  s.ctlIns r f 0x18 (fun t g =>
    let h := g.exited
    let u := g.threads.foldl (fun v j => v.exitThread r.dist.val g j) t
    if h.live = 0 then .gone ((u.dropGroup r.dist.val r.slot.val).count r.dist.val 4 1)
    else if (u.group r.dist.val r.slot.val).isNone then .gone u
    else .done u h [])

end Sys2Proof.Machine
end

