-- ==== Sys2Proof/Machine/Tiles.lean ====
section
/-! DEFINITION. Matrix instructions issued and completed (R251 to R257, R283, R290, R292, R302). -/

namespace Sys2Proof.Machine

/-! ## Issue -/

/-- The batch's `PASSES`, taken by a descriptor that names none (R252). -/
def State.passesOf (s : State) (b : Bid) (x : Mdesc) : Nat :=
  if x.passes ≠ 0 then x.passes
  else match s.batch b with
    | some y => y.desc.passes
    | none => 1

/-- A matrix instruction issues (R251 to R253, R255, R257): its descriptor is copied, and it joins the tiles' queue. With an empty mask it does nothing. The descriptor's offset is that of the lowest active thread
(DEDUCED, assumption log 13). -/
def mtxIssue (t : State) (d : Nat) (g : Group) (f : Fields) (op : Nat) : Act :=
  if g.active = 0 then .done t g.next []
  else
    let off := localOff (g.srcA f g.lowest) f.imm
    let c := f.dst.toNat % 4
    if !g.inside off 64 1 then .trap t 7 0 []
    else
      match t.readLocal d g (overlap (off.toNat, 64)) with
      | (u, none) => .gone u
      | (u, some h) =>
        let raw := h.lbytes off.toNat 64
        let x := mdescOf raw
        let v := if h.active ≠ h.launch then u.count d 7 1 else u
        if x.empty op then .done v h.next []
        else if mdescBad op raw x h.room then .trap u 7 0 []
        else
          let o : MtxOp := { op := op, typ := f.typ.toNat, desc := raw, off := off.toNat, pc := h.pc, ctr := c, ord := v.clock }
          .done v.tick { (h.bumpCtr c true).next with mtx := h.mtx ++ [o] } []

/-- `MMA` (R251 to R257, R281). -/
def execMma (r : GRef) (f : Fields) (s : State) : Res :=
  .next (s.issue r 6 0x00 f (fun t g => mtxIssue t r.dist.val g f 0))

/-- `MSMAX` (R254, R290). -/
def execMsmax (r : GRef) (f : Fields) (s : State) : Res :=
  .next (s.issue r 6 0x01 f (fun t g => mtxIssue t r.dist.val g f 1))

/-- `MRED` (R254, R292): `TYPE`[1:0] is the operation. -/
def execMred (r : GRef) (f : Fields) (s : State) : Res :=
  .next (s.issue r 6 0x02 f (fun t g => mtxIssue t r.dist.val g f 2))

/-! ## Completion -/

/-- Rows of codes put into D; undefined where D overlaps another operand (R283). -/
def State.putRows (s : State) (d : Nat) (g : Group) (x : Mdesc) (clash : Bool) (rows : List (List Nat)) : State × Group :=
  let w := outBits x.out
  let put (p : State × Group) (r : List Nat × Nat) : State × Group :=
    let a := x.dOff + r.2 * x.ldd
    let bs := rowBytes w r.1 (p.2.lbyte (a + r.1.length / 2))
    if clash then
      State.writeLocal { p.1 with freeCtr := p.1.freeCtr + 1 } d p.2 a ((List.range bs.length).map (fun i => Config.freeByte p.1.freeCtr i))
    else p.1.writeLocal d p.2 a bs
  (rows.zip (List.range rows.length)).foldl put (s, g)

/-- An outstanding matrix instruction computed and written (R251, R255, R280, R282, R291, R302). -/
def State.mtxFinish (s : State) (d k : Nat) (g : Group) (n : Nat) (o : MtxOp) : State :=
  let x := mdescOf o.desc
  match s.readLocal d g (fun r => (g.mtxReads o.op x).any (fun p => p.meets r)) with
  | (t, none) => t
  | (t, some h) =>
    let p := t.passesOf h.bid x
    let inject := h.nanTrap && t.armed (Fld.dstInjectNan d)
    let t1 := if inject then t.disarm (Fld.dstInjectNan d) else t
    let res := h.mtxRes o p inject
    let t2 := ((t1.count d 9 res.clip).count d 0xA res.crush).count d 6 (mtxBeats o.op x p)
    let q := t2.putRows d h x (mtxClash o.op x) res.rows
    let q2 := if res.flags = [] then q else q.1.writeLocal d q.2 (x.dOff + x.m * x.ldd) (res.flags.map (fun b => BitVec.ofNat 8 b))
    let made : List TrapInfo := if h.nanTrap then res.event.toList.map (fun e => { cause := 8, pc := o.pc, tword := 0, detail := e }) else []
    let g1 := q2.2.bumpCtr o.ctr false
    let g2 : Group := { g1 with mtx := g1.mtx.eraseIdx n, nanPend := g1.nanPend ++ made }
    q2.1.putGroup d k g2

/-- `MTX_COMPLETE` (R251, R255): a working tile completes an outstanding instruction of a group that comes first in the tiles' queue, with the
`TILE` arm (R509). -/
def execMtxComplete (r : GRef) (n : Nat) (s : State) : Res :=
  let d := r.dist.val
  .next (if !s.coreOn d then s
    else match s.group d r.slot.val, (s.dist d).tile with
    | some g, some t =>
      (match g.mtx[n]? with
       | none => s
       | some o =>
         if !s.tileFirst d (tileKey g.cls o.ord) then s
         else if s.armed (Fld.dstInjectTile d) then (s.disarm (Fld.dstInjectTile d)).failTile d t
         else s.mtxFinish d r.slot.val g n o)
    | _, _ => s)

end Sys2Proof.Machine
end

