-- ==== Sys2Proof/Machine/CoreMem.lean ====
section
/-! DEFINITION. Memory instructions of the intersection cores (class MEM: R246 to R250, R256, R514), instruction fetch (R237, R250), and the
completion of fills (R248). -/

namespace Sys2Proof.Machine

/-! ## Widths and data -/

/-- Loaded bytes as register words; one and two bytes zero-extend (R514). -/
def loadWords (bs : List Byte) : List Word := (List.range ((bs.length + 3) / 4)).map (fun i => bytesWord bs (4 * i))

/-- The bytes a store takes from its registers: the low ones of a single register (R514). -/
def Group.storeBytes (g : Group) (f : Fields) (j : Nat) : List Byte :=
  (wordsBytes ((List.range (memRegs f.typ.toNat)).map (fun k => g.vreg j (f.sb.toNat + k)))).take (memBytes f.typ.toNat)

/-- A memory instruction. -/
def State.memIns (s : State) (r : GRef) (f : Fields) (code : Nat) (body : State → Group → Act) : Res :=
  .next (s.issue r 5 code f body)

/-! ## Local store (R246) -/

/-- `LD.L` (R246). -/
def execLdL (r : GRef) (f : Fields) (s : State) : Res :=
  let n := memBytes f.typ.toNat
  s.memIns r f 0x00 (fun t g =>
    if g.threads.any (fun j => !g.inside (g.localAt f j) n n) then .trap t 6 0 []
    else match t.readLocal r.dist.val g (overlaps (g.threads.map (fun j => ((g.localAt f j).toNat, n)))) with
      | (u, none) => .gone u
      | (u, some h) => laneDone u h (formLoad f 1) f (fun j => loadWords (h.lbytes (h.localAt f j).toNat n)))

/-- `ST.L` (R246): the highest-numbered thread's value stays where several store. -/
def execStL (r : GRef) (f : Fields) (s : State) : Res :=
  let n := memBytes f.typ.toNat
  s.memIns r f 0x01 (fun t g =>
    if g.threads.any (fun j => !g.inside (g.localAt f j) n n) then .trap t 6 0 []
    else
      let q := g.threads.foldl (fun p j => p.1.writeLocal r.dist.val p.2 (g.localAt f j).toNat (g.storeBytes f j)) (t, g)
      .done q.1 q.2.next [])

/-! ## Scene memory (R247, R248) -/

/-- Lines of the desk cache in a split, its message inbox apart (R221). -/
def deskRoom (split : Nat) : Nat := (if split = 0 then 352 else if split = 1 then 224 else 96) * 16

/-- Bytes read through the desk cache of a district (R250). -/
def State.deskBytes (s : State) (d a n : Nat) : State × List Byte × Bool :=
  let q := s.deskLinesRead d (a / 64 * 64) (deskRoom (s.dist d).core.split) ((a + n - 1) / 64 - a / 64 + 1)
  (q.1, (q.2.1.drop (a % 64)).take n, q.2.2)

/-- The check of a program's scene access (R83, R87, R435). -/
def State.coreCheck (s : State) (d : Nat) (b : Bid) (a n : Nat) : State × Option SceneRes :=
  let rs := s.regionsOf b
  match s.sceneCheck d rs (fun _ => true) a n with
  | (t, some r) => (t, some r)
  | (t, none) => (t, if b.held && !regionsAllow rs Region.mirror a n then some (.lost a) else none)

/-- A scene address in a register pair and an immediate, below its width zero (R247). The immediate is signed and the sum wraps at the 40 bits
of a scene address (DESIGN CHOICE, assumption log 102). -/
def Group.sceneAt (g : Group) (f : Fields) (j n : Nat) (imm : Int) : Nat :=
  ((((g.srcA f j).toNat + 2 ^ 32 * ((g.srcA f j 1).toNat % 256) : Nat) + imm) % (2 ^ 40 : Nat)).toNat / n * n

/-- The walker index a fault of a thread names. -/
def Group.idxOf (g : Group) (j : Nat) : Nat :=
  match g.invs[j]? with
  | some i => i.idx
  | none => noWalker

/-- Accesses of threads checked one by one: those denied, or the state where one stops the group: absent data parks it (R247), lost data ends its
batch (R348). -/
def State.checkThreads (s : State) (d k : Nat) (g : Group) (n : Nat) : List (Nat × Nat) → State × Option (List Nat)
  | [] => (s, some [])
  | p :: rest =>
    match s.coreCheck d g.bid p.2 n with
    | (t, none) | (t, some (.bytes _)) => t.checkThreads d k g n rest
    | (t, some .denied) =>
      let q := t.checkThreads d k g n rest
      (q.1, q.2.map (fun l => p.1 :: l))
    | (t, some (.absent a)) => ((t.absentFault g.bid 0x12 a (g.idxOf p.1) d).faultGroup d k g, none)
    | (t, some (.lost a)) => (t.sceneLost g.bid (some a), none)

/-- Bytes loaded for the threads that may, zeros for those denied; `none` where poison ends the batch. -/
def State.loadThreads (s : State) (d : Nat) (b : Bid) (n : Nat) (denied : List Nat) : List (Nat × Nat) → State × Option (List (Nat × List Byte))
  | [] => (s, some [])
  | p :: rest =>
    if p.1 ∈ denied then
      let q := s.loadThreads d b n denied rest
      (q.1, q.2.map (fun l => (p.1, zeroBytes n) :: l))
    else
      match s.deskBytes d p.2 n with
      | (t, _, true) => (t.sceneLost b (some p.2), none)
      | (t, bs, false) =>
        let q := t.loadThreads d b n denied rest
        (q.1, q.2.map (fun l => (p.1, bs) :: l))

/-- Threads whose walkers end when the program returns (R247). -/
def Group.denied (g : Group) (l : List Nat) : Group := { g with regvs := l.foldl (fun m j => m ||| maskOne j) g.regvs }

/-- The bytes of a thread. -/
def threadBytes (l : List (Nat × List Byte)) (j : Nat) : List Byte :=
  match l.find? (fun p => decide (p.1 = j)) with
  | some p => p.2
  | none => []

/-- `LD.S` (R247). -/
def execLdS (r : GRef) (f : Fields) (s : State) : Res :=
  let n := memBytes f.typ.toNat
  let d := r.dist.val
  s.memIns r f 0x02 (fun t g =>
    let at' := g.threads.map (fun j => (j, g.sceneAt f j n f.imm.toInt))
    match t.checkThreads d r.slot.val g n at' with
    | (u, none) => .gone u
    | (u, some no) =>
      match u.loadThreads d g.bid n no at' with
      | (v, none) => .gone v
      | (v, some l) => laneDone v (g.denied no) (formLoad f 2) f (fun j => loadWords (threadBytes l j)))

/-- `FILL.L` (R248, R251, R256): one copy for each active thread. -/
def execFillL (r : GRef) (f : Fields) (s : State) : Res :=
  let n := f.imm.toNat
  let d := r.dist.val
  s.memIns r f 0x03 (fun t g =>
    let c := f.dst.toNat % 4
    if g.threads.any (fun j => !g.inside (g.fillTo f j : Nat) n 64) then .trap t 6 0 []
    else
      let at' := g.threads.map (fun j => (j, g.sceneAt f j 64 0))
      match t.checkThreads d r.slot.val g n at' with
      | (u, none) => .gone u
      | (u, some no) =>
        let op : FillOp := { copies := at'.map (fun p => (p.2, g.fillTo f p.1, decide (p.1 ∈ no))), size := n, ctr := c }
        .done u { ((g.denied no).bumpCtr c true).next with fills := g.fills ++ [op] } [])

/-- The copies of a fill made; `none` where poison ends the batch. -/
def State.fillCopies (s : State) (d : Nat) (g : Group) (n : Nat) : List (Nat × Nat × Bool) → State × Option Group
  | [] => (s, some g)
  | (src, dst, zero) :: rest =>
    if zero then
      let q := s.writeLocal d g dst (zeroBytes n)
      q.1.fillCopies d q.2 n rest
    else
      match s.deskBytes d src n with
      | (t, _, true) => (t.sceneLost g.bid (some src), none)
      | (t, bs, false) =>
        let q := t.writeLocal d g dst bs
        q.1.fillCopies d q.2 n rest

/-- `FILL_COMPLETE` (R248). -/
def execFillComplete (r : GRef) (n : Nat) (s : State) : Res :=
  let d := r.dist.val
  .next (if !s.coreOn d then s
    else match s.group d r.slot.val with
    | none => s
    | some g =>
      match g.fills[n]? with
      | none => s
      | some o =>
        match s.fillCopies d g o.size o.copies with
        | (t, none) => t
        | (t, some h) => t.putGroup d r.slot.val { h.bumpCtr o.ctr false with fills := h.fills.eraseIdx n })

/-! ## Host memory (R249) -/

/-- A host virtual address in a register pair and an immediate, below its width zero (R249). The immediate is signed and the sum wraps at 64 bits
(DESIGN CHOICE, assumption log 102). -/
def Group.hostAt (g : Group) (f : Fields) (j n : Nat) : Nat :=
  ((((g.srcA f j).toNat + 2 ^ 32 * (g.srcA f j 1).toNat : Nat) + f.imm.toInt) % (2 ^ 64 : Nat)).toNat / n * n

/-- The `FACCESS` of a program's host access (R336): that of the parameter block where the access holds the block's first byte, the one byte of
it that the engine knows (R58; DEDUCED, assumption log 103). -/
def State.hostAccess (s : State) (b : Bid) (a n : Nat) : Nat :=
  match s.batch b with
  | some x => if x.desc.paramAddr ≠ 0 ∧ a ≤ x.desc.paramAddr ∧ x.desc.paramAddr < a + n then 0x09 else 0x08
  | none => 0x08

/-- A translation fault of a thread's access of `n` bytes at `va` stops the group at the instruction and parks its batch (R249, R72). -/
def State.hostFault (s : State) (d k : Nat) (g : Group) (j va n c a : Nat) : State :=
  (s.xlateFault g.bid .walking (s.hostAccess g.bid va n) c a (g.idxOf j) (some d)).faultGroup d k g

/-- Bytes of host memory for threads. -/
def State.hostLoads (s : State) (d k : Nat) (g : Group) (n : Nat) : List (Nat × Nat) → State × Option (List (Nat × List Byte))
  | [] => (s, some [])
  | p :: rest =>
    match (s.gateTrip d).readVa (bidRoot g.bid) p.2 n with
    | (t, .fault c a) => (t.hostFault d k g p.1 p.2 n c a, none)
    | (t, .ok bs) =>
      let q := t.hostLoads d k g n rest
      (q.1, q.2.map (fun l => (p.1, bs) :: l))

/-- `LD.H` (R249). -/
def execLdH (r : GRef) (f : Fields) (s : State) : Res :=
  let n := memBytes f.typ.toNat
  s.memIns r f 0x04 (fun t g =>
    match t.hostLoads r.dist.val r.slot.val g n (g.threads.map (fun j => (j, g.hostAt f j n))) with
    | (u, none) => .gone u
    | (u, some l) => laneDone u g (formLoad f 2) f (fun j => loadWords (threadBytes l j)))

/-- The pieces of the threads' stores, translated; none is made where any faults. -/
def State.hostPieces (s : State) (d k : Nat) (g : Group) (f : Fields) (n : Nat) : List (Nat × Nat) → State × Option (List (List (Nat × Nat) × List Byte))
  | [] => (s, some [])
  | p :: rest =>
    match (s.gateTrip d).xlate (bidRoot g.bid) p.2 n true with
    | (t, .fault c a) => (t.hostFault d k g p.1 p.2 n c a, none)
    | (t, .ok ps) =>
      let q := t.hostPieces d k g f n rest
      (q.1, q.2.map (fun l => (ps, g.storeBytes f p.1) :: l))

/-- `ST.H` (R249): each thread's store, in program order; it waits while the engine may not write (R427). -/
def execStH (r : GRef) (f : Fields) (s : State) : Res :=
  let n := memBytes f.typ.toNat
  s.memIns r f 0x05 (fun t g =>
    match t.hostPieces r.dist.val r.slot.val g f n (g.threads.map (fun j => (j, g.hostAt f j n))) with
    | (u, none) => .gone u
    | (u, some l) => .done (l.foldl (fun v p => v.hostWriteParts p.1 p.2 (.store g.bid g.seed r.dist.val)) u) g.next [])

/-! ## Instruction fetch (R237, R250) -/

/-- A fetched word taken up: one that no class lists traps (R237). -/
def State.takeWord (s : State) (d k : Nat) (g : Group) (w : BitVec 64) : State :=
  if knownOp (wordClass w) (wordOp w) then s.putGroup d k { g with ir := some w, parked := none, replay := false, settled := false }
  else s.raiseHere d k g 1 0 []

/-- The record of an `IMAGE` trap (R262): one per batch and program. -/
def State.imageRecord (s : State) (d : Nat) (g : Group) : State :=
  if s.dists.any (fun p => decide ((g.bid, g.prog) ∈ p.2.core.images)) then s
  else ((s.trapReport d 0x0A).trapRecord d g { cause := 0x0A, pc := 0, tword := 0, detail := [] } 0x7F).updCore d
    (fun c => { c with images := c.images ++ [(g.bid, g.prog)] })

/-- A group whose image fails its region check at a fetch (R229, R262): the `IMAGE` trap; its invocations end as misses. -/
def State.imageEnd (s : State) (d k : Nat) (g : Group) : State :=
  (g.liveInvs.foldl (fun u i => u.missInv d i) ((s.imageRecord d g).freeGroup d k g)).trapBatch g.bid

/-- `INSTRUCTION_FETCH` (R237): through the desk cache, with the check of R83; a NaN trap of a matrix instruction is taken first (R302). -/
def execInstructionFetch (r : GRef) (s : State) : Res :=
  let d := r.dist.val
  let k := r.slot.val
  .next (if !s.coreOn d then s
    else match s.group d k with
    | none => s
    | some g =>
      if s.heldGroup d g || g.ir.isSome then s
      else
        match g.nanPend with
        | t :: _ => s.raise d k g t
        | [] =>
          if g.codeLen ≤ g.pc then s.raiseHere d k g 2 0 []
          else
            let a := g.img + 64 + g.pc
            if !regionsAllow (s.regionsOf g.bid) Region.program a 8 then s.imageEnd d k g
            else
              match s.deskBytes d a 8 with
              | (t, _, true) => t.sceneLost g.bid (some a)
              | (t, bs, false) => t.takeWord d k g (BitVec.ofNat 64 (leNat bs)))

end Sys2Proof.Machine
end

