-- ==== Sys2Proof/Decode.lean ====
section
/-! DEFINITION. Decoding. The table of operations gives its rows no bits, so no word spells a command from outside. The words that do
spell commands are those of the intersection cores (R235, R237): their decoder, and an encoder from the same tables. -/

namespace Sys2Proof

open Sys2Proof.Machine

/-- The command that a word of the table spells: the table gives no row any bits (assumption log 14). -/
def decodeTableWord (_nbits _w : Nat) : Option Instr := none

/-! ## Core instruction words (R235, R237) -/

/-- Class INT (R237). -/
def intOp (op : Nat) (g : GRef) (f : Fields) : Option Instr :=
  match op with
  | 0x00 => some (.iadd g f)
  | 0x01 => some (.isub g f)
  | 0x02 => some (.imul g f)
  | 0x03 => some (.imulhi g f)
  | 0x04 => some (.and g f)
  | 0x05 => some (.or g f)
  | 0x06 => some (.xor g f)
  | 0x07 => some (.shl g f)
  | 0x08 => some (.shr g f)
  | 0x09 => some (.sar g f)
  | 0x0A => some (.imin g f)
  | 0x0B => some (.imax g f)
  | 0x0C => some (.umin g f)
  | 0x0D => some (.umax g f)
  | 0x0E => some (.imad g f)
  | 0x0F => some (.popc g f)
  | 0x10 => some (.clz g f)
  | 0x11 => some (.mov g f)
  | 0x12 => some (.sel g f)
  | 0x13 => some (.udiv g f)
  | 0x14 => some (.urem g f)
  | _ => none

/-- Class FLT (R237). -/
def fltOp (op : Nat) (g : GRef) (f : Fields) : Option Instr :=
  match op with
  | 0x00 => some (.fadd g f)
  | 0x01 => some (.fsub g f)
  | 0x02 => some (.fmul g f)
  | 0x03 => some (.ffma g f)
  | 0x04 => some (.fmin g f)
  | 0x05 => some (.fmax g f)
  | 0x06 => some (.fabs g f)
  | 0x07 => some (.fneg g f)
  | 0x08 => some (.frcp g f)
  | 0x09 => some (.frsq g f)
  | 0x0A => some (.fsqrt g f)
  | 0x0B => some (.fdiv g f)
  | 0x0C => some (.ffloor g f)
  | 0x0D => some (.fceil g f)
  | 0x0E => some (.fexp2 g f)
  | 0x0F => some (.flog2 g f)
  | _ => none

/-- Class CVT (R237). -/
def cvtOp (op : Nat) (g : GRef) (f : Fields) : Option Instr :=
  match op with
  | 0x00 => some (.f2i g f)
  | 0x01 => some (.i2f g f)
  | 0x02 => some (.f2bf g f)
  | 0x03 => some (.f2h g f)
  | 0x04 => some (.bf2f g f)
  | 0x05 => some (.h2f g f)
  | 0x06 => some (.f2d g f)
  | 0x07 => some (.d2f g f)
  | 0x08 => some (.pk8 g f)
  | 0x09 => some (.pku8 g f)
  | 0x0A => some (.pk4 g f)
  | 0x0B => some (.pku4 g f)
  | 0x0C => some (.pkf4 g f)
  | 0x0D => some (.up8 g f)
  | 0x0E => some (.upu8 g f)
  | 0x0F => some (.up4 g f)
  | 0x10 => some (.upu4 g f)
  | 0x11 => some (.upf4 g f)
  | _ => none

/-- Class CMP (R237). -/
def cmpOp (op : Nat) (g : GRef) (f : Fields) : Option Instr :=
  match op with
  | 0x00 => some (.icmp g f)
  | 0x01 => some (.ucmp g f)
  | 0x02 => some (.fcmp g f)
  | 0x08 => some (.pand g f)
  | 0x09 => some (.por g f)
  | 0x0A => some (.pxor g f)
  | 0x0B => some (.pnot g f)
  | _ => none

/-- Class CTL (R237). -/
def ctlOp (op : Nat) (g : GRef) (f : Fields) : Option Instr :=
  match op with
  | 0x00 => some (.bra g f)
  | 0x01 => some (.braAny g f)
  | 0x02 => some (.braNone g f)
  | 0x03 => some (.braEmpty g f)
  | 0x04 => some (.call g f)
  | 0x05 => some (.callr g f)
  | 0x06 => some (.ret g f)
  | 0x08 => some (.push g f)
  | 0x09 => some (.elseM g f)
  | 0x0A => some (.brk g f)
  | 0x0B => some (.reconv g f)
  | 0x0C => some (.pop g f)
  | 0x10 => some (.barAll g f)
  | 0x11 => some (.barActive g f)
  | 0x12 => some (.wait g f)
  | 0x18 => some (.exit g f)
  | 0x19 => some (.trap g f)
  | 0x1F => some (.nop g f)
  | _ => none

/-- Class MEM (R237). -/
def memOp (op : Nat) (g : GRef) (f : Fields) : Option Instr :=
  match op with
  | 0x00 => some (.ldL g f)
  | 0x01 => some (.stL g f)
  | 0x02 => some (.ldS g f)
  | 0x03 => some (.fillL g f)
  | 0x04 => some (.ldH g f)
  | 0x05 => some (.stH g f)
  | _ => none

/-- Class MTX (R237). -/
def mtxOp (op : Nat) (g : GRef) (f : Fields) : Option Instr :=
  match op with
  | 0x00 => some (.mma g f)
  | 0x01 => some (.msmax g f)
  | 0x02 => some (.mred g f)
  | _ => none

/-- Class MSG (R237). -/
def msgOp (op : Nat) (g : GRef) (f : Fields) : Option Instr :=
  match op with
  | 0x00 => some (.send g f)
  | 0x01 => some (.recv g f)
  | _ => none

/-- Class WLK (R237). -/
def wlkOp (op : Nat) (g : GRef) (f : Fields) : Option Instr :=
  match op with
  | 0x00 => some (.slotLock g f)
  | 0x01 => some (.slotLd g f)
  | 0x02 => some (.slotSt g f)
  | 0x03 => some (.slotUnlock g f)
  | _ => none

/-- Class SPC (R237). -/
def spcOp (op : Nat) (g : GRef) (f : Fields) : Option Instr :=
  match op with
  | 0x00 => some (.tid g f)
  | 0x01 => some (.amask g f)
  | 0x02 => some (.v2u g f)
  | 0x03 => some (.u2v g f)
  | 0x04 => some (.shfl g f)
  | 0x05 => some (.vote g f)
  | _ => none

/-- The instruction of a class and an operation, `none` for one that no class lists (R237). -/
def classOp (cls op : Nat) (g : GRef) (f : Fields) : Option Instr :=
  match cls with
  | 0 => intOp op g f
  | 1 => fltOp op g f
  | 2 => cvtOp op g f
  | 3 => cmpOp op g f
  | 4 => ctlOp op g f
  | 5 => memOp op g f
  | 6 => mtxOp op g f
  | 7 => msgOp op g f
  | 8 => wlkOp op g f
  | 9 => spcOp op g f
  | _ => none

/-- The instruction a word spells, executed by a group (R235, R237). -/
def decodeCore (g : GRef) (w : BitVec 64) : Option Instr := classOp (wordClass w) (wordOp w) g (wordFields w)

/-- Group, class, operation and fields of a core instruction (R237); `none` for every other command. -/
def coreCode (i : Instr) : Option (GRef × Nat × Nat × Fields) :=
  match i with
  | .iadd g f => some (g, 0, 0x00, f)
  | .isub g f => some (g, 0, 0x01, f)
  | .imul g f => some (g, 0, 0x02, f)
  | .imulhi g f => some (g, 0, 0x03, f)
  | .and g f => some (g, 0, 0x04, f)
  | .or g f => some (g, 0, 0x05, f)
  | .xor g f => some (g, 0, 0x06, f)
  | .shl g f => some (g, 0, 0x07, f)
  | .shr g f => some (g, 0, 0x08, f)
  | .sar g f => some (g, 0, 0x09, f)
  | .imin g f => some (g, 0, 0x0A, f)
  | .imax g f => some (g, 0, 0x0B, f)
  | .umin g f => some (g, 0, 0x0C, f)
  | .umax g f => some (g, 0, 0x0D, f)
  | .imad g f => some (g, 0, 0x0E, f)
  | .popc g f => some (g, 0, 0x0F, f)
  | .clz g f => some (g, 0, 0x10, f)
  | .mov g f => some (g, 0, 0x11, f)
  | .sel g f => some (g, 0, 0x12, f)
  | .udiv g f => some (g, 0, 0x13, f)
  | .urem g f => some (g, 0, 0x14, f)
  | .fadd g f => some (g, 1, 0x00, f)
  | .fsub g f => some (g, 1, 0x01, f)
  | .fmul g f => some (g, 1, 0x02, f)
  | .ffma g f => some (g, 1, 0x03, f)
  | .fmin g f => some (g, 1, 0x04, f)
  | .fmax g f => some (g, 1, 0x05, f)
  | .fabs g f => some (g, 1, 0x06, f)
  | .fneg g f => some (g, 1, 0x07, f)
  | .frcp g f => some (g, 1, 0x08, f)
  | .frsq g f => some (g, 1, 0x09, f)
  | .fsqrt g f => some (g, 1, 0x0A, f)
  | .fdiv g f => some (g, 1, 0x0B, f)
  | .ffloor g f => some (g, 1, 0x0C, f)
  | .fceil g f => some (g, 1, 0x0D, f)
  | .fexp2 g f => some (g, 1, 0x0E, f)
  | .flog2 g f => some (g, 1, 0x0F, f)
  | .f2i g f => some (g, 2, 0x00, f)
  | .i2f g f => some (g, 2, 0x01, f)
  | .f2bf g f => some (g, 2, 0x02, f)
  | .f2h g f => some (g, 2, 0x03, f)
  | .bf2f g f => some (g, 2, 0x04, f)
  | .h2f g f => some (g, 2, 0x05, f)
  | .f2d g f => some (g, 2, 0x06, f)
  | .d2f g f => some (g, 2, 0x07, f)
  | .pk8 g f => some (g, 2, 0x08, f)
  | .pku8 g f => some (g, 2, 0x09, f)
  | .pk4 g f => some (g, 2, 0x0A, f)
  | .pku4 g f => some (g, 2, 0x0B, f)
  | .pkf4 g f => some (g, 2, 0x0C, f)
  | .up8 g f => some (g, 2, 0x0D, f)
  | .upu8 g f => some (g, 2, 0x0E, f)
  | .up4 g f => some (g, 2, 0x0F, f)
  | .upu4 g f => some (g, 2, 0x10, f)
  | .upf4 g f => some (g, 2, 0x11, f)
  | .icmp g f => some (g, 3, 0x00, f)
  | .ucmp g f => some (g, 3, 0x01, f)
  | .fcmp g f => some (g, 3, 0x02, f)
  | .pand g f => some (g, 3, 0x08, f)
  | .por g f => some (g, 3, 0x09, f)
  | .pxor g f => some (g, 3, 0x0A, f)
  | .pnot g f => some (g, 3, 0x0B, f)
  | .bra g f => some (g, 4, 0x00, f)
  | .braAny g f => some (g, 4, 0x01, f)
  | .braNone g f => some (g, 4, 0x02, f)
  | .braEmpty g f => some (g, 4, 0x03, f)
  | .call g f => some (g, 4, 0x04, f)
  | .callr g f => some (g, 4, 0x05, f)
  | .ret g f => some (g, 4, 0x06, f)
  | .push g f => some (g, 4, 0x08, f)
  | .elseM g f => some (g, 4, 0x09, f)
  | .brk g f => some (g, 4, 0x0A, f)
  | .reconv g f => some (g, 4, 0x0B, f)
  | .pop g f => some (g, 4, 0x0C, f)
  | .barAll g f => some (g, 4, 0x10, f)
  | .barActive g f => some (g, 4, 0x11, f)
  | .wait g f => some (g, 4, 0x12, f)
  | .exit g f => some (g, 4, 0x18, f)
  | .trap g f => some (g, 4, 0x19, f)
  | .nop g f => some (g, 4, 0x1F, f)
  | .ldL g f => some (g, 5, 0x00, f)
  | .stL g f => some (g, 5, 0x01, f)
  | .ldS g f => some (g, 5, 0x02, f)
  | .fillL g f => some (g, 5, 0x03, f)
  | .ldH g f => some (g, 5, 0x04, f)
  | .stH g f => some (g, 5, 0x05, f)
  | .mma g f => some (g, 6, 0x00, f)
  | .msmax g f => some (g, 6, 0x01, f)
  | .mred g f => some (g, 6, 0x02, f)
  | .send g f => some (g, 7, 0x00, f)
  | .recv g f => some (g, 7, 0x01, f)
  | .slotLock g f => some (g, 8, 0x00, f)
  | .slotLd g f => some (g, 8, 0x01, f)
  | .slotSt g f => some (g, 8, 0x02, f)
  | .slotUnlock g f => some (g, 8, 0x03, f)
  | .tid g f => some (g, 9, 0x00, f)
  | .amask g f => some (g, 9, 0x01, f)
  | .v2u g f => some (g, 9, 0x02, f)
  | .u2v g f => some (g, 9, 0x03, f)
  | .shfl g f => some (g, 9, 0x04, f)
  | .vote g f => some (g, 9, 0x05, f)
  | .queTailWrite _ _ | .queDepthWrite _ _ | .queRunSet _ | .queRunClear _ | .queCancel _ | .queResume _ | .queEstWrite _ _
  | .descriptorFetch _ | .stamping _ | .pageWalkComplete _ _ | .acceptance _ | .admissionRound | .dealRun | .walkerEntering _
  | .walkerArrival _ | .walkerReload _ | .nodeStep _ _ | .triangleTest _ _ _ | .loadDecision _ | .plotLoadComplete _ _ | .copyDrainEnd _ _
  | .mapLookup _ | .mapLookupReply _ | .doneNotice _ | .resultWrite _ | .packWrite _ | .runFlush _ | .contribution _ | .candidateMessage _
  | .tauReply _ | .endNotice _ | .probeJob _ _ | .refitRepair _ | .maintOperation _ | .completionWrite _ | .sealCas _ | .wakeMessage _
  | .eventInterrupt | .faultRecordWrite | .fringHeadWrite _ | .hostWriteAck _ | .hostReadData _ _ | .apertureRead _ _ | .apertureWrite _ _
  | .regAccessMalformed _ _ _ | .registerWrite _ _ | .rcRead _ _ | .pgCtlWrite _ _ | .crcLoad _ | .pgLockWrite _ _ | .pgSnap _ | .ctrSnap
  | .counterWrite _ _ | .injectArm _ _ | .balanceCapture | .grantAdd _ _ | .grantSet _ _ | .mapDataWrite _ _ | .mapHash _
  | .tenDataWrite _ _ | .tallyWindowRead _ | .dstClose _ | .dstOpen _ | .dstReopen _ | .dstSideBaseWrite _ _ | .orderlyClosure _
  | .faultClosure _ | .censusMarker _ | .censusReplay | .avenueMessageReceive _ _ | .avenueReplay _ _ | .meterReport _ _ _
  | .voltageRequest | .voltageAck | .sensorReading _ _ | .stepRingExpiry _ _ | .coreRingExpiry _ | .tileRingExpiry _ _
  | .stackReqRingExpiry _ | .hostRingExpiry | .vackRingExpiry | .sensorRingExpiry _ | .stackFill _ _ _ | .evictionWrite _ | .prefetch _ _
  | .scrubRead _ | .stackRefresh _ | .mopInval _ | .mopClean _ | .mopCleanInval _ | .mopZero _ | .mopComplete | .scInv _ | .dcInv | .ncInv
  | .cacheEnable _ | .cacheDisable _ | .shootdownGo | .groupLaunch _ | .splitChange _ | .preemption _ | .groupPark _ | .groupRestore _
  | .trapReplay _ _ | .trapKill _ _ | .mtxComplete _ _ | .fillComplete _ _ | .sendDelivery _ | .sendStatus _ | .instructionFetch _
  | .blkRungWrite _ | .blockRungEntry | .blockWake _ | .dstRungWrite _ _ | .districtRungEntry _ | .districtQuietWake _ | .coldReset _ _
  | .blkWarm | .fabricReset | .warmReset | .startup _ | .districtReset _ _ _ | .portReset _ _ _ | .hostLinkReset _ _ | .twinLinkReset _
  | .pokMainRise | .twnModeWrite _ | .takeover | .fence | .beaconRingExpiry | .handoff _ | .sideReturn | .twinIdent _ _ | .twinBeacon _
  | .twinQrec _ _ | .twinEntry _ _ _ | .twinState _ _ _ | .twinRetire _ _ | .twinHandoff _ _ | .twinSealed _ _ _ | .twinRung _ _
  | .twinReset _ | .twinResync _ | .twinReturn _ _ _ | .twinAck _ _ | .voltageAckFall | .hlRefclkArrival | .testPortInstruction _ _ _
  | .testModeRise | .hostLinkL1Entry | .linkStateExit _ | .registerRead _ => none

/-- The word of a core instruction (R235), with the group that executes it. -/
def encodeCore (i : Instr) : Option (GRef × BitVec 64) :=
  match coreCode i with
  | some (g, c, o, f) => some (g, insWord c o f)
  | none => none

end Sys2Proof
end

