-- ==== Sys2Proof/Machine/Floating.lean ====
section
/-! DEFINITION. Floating instructions of the intersection cores (class FLT: R237, R273, R286, R287) and the NaN trap of lane instructions
(R298 to R302). -/

namespace Sys2Proof.Machine

/-! ## The NaN trap of lane instructions -/

/-- `TDETAIL` of a lane instruction (R301). -/
def laneDetail (opnd thread : Nat) : List Byte :=
  leBytes 4 0xFFFFFFFF ++ [BitVec.ofNat 8 opnd, 0, BitVec.ofNat 8 thread, 0] ++ zeroBytes 8

/-- What a thread's NaN event is, if it has one (R298, R300): consumed by the first source that is NaN, or produced. -/
def laneEvent (srcs : List Bool) (res : Bool) : Option Nat :=
  match srcs.findIdx? id with
  | some i => some (0x10 + i)
  | none => if res then some 0x18 else none

/-- The first NaN event among active threads, the lowest-numbered first (R300). -/
def Group.firstEvent (g : Group) (event : Nat → Option Nat) : Option (Nat × Nat) :=
  g.threads.findSome? (fun j => (event j).map (fun e => (e, j)))

/-- A lane instruction that reads a floating operand (R298 to R302): with `NAN_TRAP` the first event traps, and the `NAN` arm (R509) makes one
at the lowest active thread; otherwise the results are written. -/
def floatDone (s : State) (d : Nat) (g : Group) (m : Form) (f : Fields) (event : Nat → Option Nat) (val : Nat → List Word) : Act :=
  if g.nanTrap then
    (if s.armed (Fld.dstInjectNan d) then .trap (s.disarm (Fld.dstInjectNan d)) 8 0 (laneDetail 0x10 g.lowest)
     else match g.firstEvent event with
       | some (e, j) => .trap s 8 0 (laneDetail e j)
       | none => laneDone s g m f val)
  else laneDone s g m f val

/-! ## Values -/

/-- Half `i` of a register, the low half first (R287). -/
def halfOf (w : Word) (i : Nat) : Nat := w.toNat / 2 ^ (16 * i) % 2 ^ 16

/-- The half format of a `TYPE`: 1 BF16, 2 FP16 (R237). -/
def halfFmt (typ : Nat) : Fmt := if typ = 1 then fmtB else fmt16

/-- A floating operation on registers (R286, R287): FP32, or each half widened, computed in FP32, and rounded into its format. -/
def fltLane (typ : Nat) (op : Fp → Fp → Fp → Word) (a b c : Word) : Word :=
  if typ = 0 then op (f32 a) (f32 b) (f32 c)
  else
    let m := halfFmt typ
    let half (i : Nat) : Nat := m.write (f32 (op (m.read (halfOf a i)) (m.read (halfOf b i)) (m.read (halfOf c i))))
    BitVec.ofNat 32 (half 0 + 2 ^ 16 * half 1)

/-- A register holds a NaN of the operation's format. -/
def laneNan (typ : Nat) (w : Word) : Bool :=
  if typ = 0 then (f32 w).isNan else ((halfFmt typ).read (halfOf w 0)).isNan || ((halfFmt typ).read (halfOf w 1)).isNan

/-- The value a floating operation gives a thread. -/
def Group.fltVal (g : Group) (f : Fields) (op : Fp → Fp → Fp → Word) (j : Nat) : Word :=
  fltLane f.typ.toNat op (g.srcA f j) (g.srcBF f j) (g.srcC f j)

/-- A floating instruction of `n` sources. -/
def State.fltIns (s : State) (r : GRef) (f : Fields) (code : Nat) (op : Fp → Fp → Fp → Word) : Res :=
  .next (s.issue r 1 code f (fun t g =>
    let m := formFlt code
    let nan (w : Word) : Bool := laneNan f.typ.toNat w
    let srcs (j : Nat) : List Bool := [nan (g.srcA f j)] ++ (if m.b = 1 then [nan (g.srcBF f j)] else []) ++ (if m.c = 1 then [nan (g.srcC f j)] else [])
    floatDone t r.dist.val g m f (fun j => laneEvent (srcs j) (nan (g.fltVal f op j))) (fun j => [g.fltVal f op j])))

/-- The lesser and the greater of two values, NaN if either is (R286). -/
def fMin (a b : Fp) : Fp := if a.isNan || b.isNan then .nan else if b.lt a then b else a
def fMax (a b : Fp) : Fp := if a.isNan || b.isNan then .nan else if a.lt b then b else a

/-- The magnitude of a value. -/
def fAbs : Fp → Fp
  | .nan => .nan
  | .inf _ => .inf false
  | .fin q => .fin q.abs

/-- The next integer down, and up. -/
def fFloor : Fp → Fp
  | .nan => .nan
  | .inf n => .inf n
  | .fin q => .fin (Q.int q.floor)
def fCeil : Fp → Fp
  | .nan => .nan
  | .inf n => .inf n
  | .fin q => .fin (Q.int (-(q.neg.floor)))

/-! ## Instructions -/

/-- `FADD` (R286, R287). -/
def execFadd (r : GRef) (f : Fields) (s : State) : Res := s.fltIns r f 0x00 (fun a b _ => toF32 (a.add b))

/-- `FSUB` (R286, R287). -/
def execFsub (r : GRef) (f : Fields) (s : State) : Res := s.fltIns r f 0x01 (fun a b _ => toF32 (a.add b.neg))

/-- `FMUL` (R286, R287). -/
def execFmul (r : GRef) (f : Fields) (s : State) : Res := s.fltIns r f 0x02 (fun a b _ => toF32 (a.mul b))

/-- `FFMA` (R286, R287). -/
def execFfma (r : GRef) (f : Fields) (s : State) : Res := s.fltIns r f 0x03 (fun a b c => toF32 ((a.mul b).add c))

/-- `FMIN` (R286, R287). -/
def execFmin (r : GRef) (f : Fields) (s : State) : Res := s.fltIns r f 0x04 (fun a b _ => toF32 (fMin a b))

/-- `FMAX` (R286, R287). -/
def execFmax (r : GRef) (f : Fields) (s : State) : Res := s.fltIns r f 0x05 (fun a b _ => toF32 (fMax a b))

/-- `FABS` (R286, R287). -/
def execFabs (r : GRef) (f : Fields) (s : State) : Res := s.fltIns r f 0x06 (fun a _ _ => toF32 (fAbs a))

/-- `FNEG` (R286, R287). -/
def execFneg (r : GRef) (f : Fields) (s : State) : Res := s.fltIns r f 0x07 (fun a _ _ => toF32 a.neg)

/-- `FRCP` (R286, R287). -/
def execFrcp (r : GRef) (f : Fields) (s : State) : Res := s.fltIns r f 0x08 (fun a _ _ => fRcp a)

/-- `FRSQ` (R286, R287). -/
def execFrsq (r : GRef) (f : Fields) (s : State) : Res := s.fltIns r f 0x09 (fun a _ _ => fRsq a)

/-- `FSQRT` (R286, R287). -/
def execFsqrt (r : GRef) (f : Fields) (s : State) : Res := s.fltIns r f 0x0A (fun a _ _ => toF32 a.sqrt)

/-- `FDIV` (R286, R287). -/
def execFdiv (r : GRef) (f : Fields) (s : State) : Res := s.fltIns r f 0x0B (fun a b _ => toF32 (a.div b))

/-- `FFLOOR` (R286, R287). -/
def execFfloor (r : GRef) (f : Fields) (s : State) : Res := s.fltIns r f 0x0C (fun a _ _ => toF32 (fFloor a))

/-- `FCEIL` (R286, R287). -/
def execFceil (r : GRef) (f : Fields) (s : State) : Res := s.fltIns r f 0x0D (fun a _ _ => toF32 (fCeil a))

/-- `FEXP2` (R286, R287). -/
def execFexp2 (r : GRef) (f : Fields) (s : State) : Res := s.fltIns r f 0x0E (fun a _ _ => fExp2 a)

/-- `FLOG2` (R286, R287). -/
def execFlog2 (r : GRef) (f : Fields) (s : State) : Res := s.fltIns r f 0x0F (fun a _ _ => fLog2 a)

end Sys2Proof.Machine
end

