-- ==== Sys2Proof/Machine/Compare.lean ====
section
/-! DEFINITION. Comparisons and predicate logic (class CMP: R237, R289, R514) and special lane instructions (class SPC: R236, R237,
R514). -/

namespace Sys2Proof.Machine

/-- A comparison: the condition on each active thread's A and register `SB` goes to predicate `DST` (R514). -/
def State.cmpIns (s : State) (r : GRef) (f : Fields) (code : Nat) (test : Word → Word → Bool) : Res :=
  .next (s.issue r 3 code f (fun t g =>
    .done t (g.setPred f.dst.toNat (laneMask (fun j => test (g.srcA f j) (g.srcB f j)))).next []))

/-- Predicate logic: predicates `SA` and `SB` into predicate `DST`, for active threads (R514). -/
def State.predIns (s : State) (r : GRef) (f : Fields) (code : Nat) (op : Mask → Mask → Mask) : Res :=
  .next (s.issue r 3 code f (fun t g =>
    .done t (g.setPred f.dst.toNat (op (g.pred f.sa.toNat) (g.pred f.sb.toNat))).next []))

/-- `ICMP` (R514). -/
def execIcmp (r : GRef) (f : Fields) (s : State) : Res := s.cmpIns r f 0x00 (fun a b => intCond (condOf f) (decide (a = b)) (a.slt b))

/-- `UCMP` (R514). -/
def execUcmp (r : GRef) (f : Fields) (s : State) : Res := s.cmpIns r f 0x01 (fun a b => intCond (condOf f) (decide (a = b)) (a.ult b))

/-- `FCMP` (R289): it never consumes a NaN. -/
def execFcmp (r : GRef) (f : Fields) (s : State) : Res := s.cmpIns r f 0x02 (fun a b => fpCond (condOf f) (f32 a) (f32 b))

/-- `PAND` (R514). -/
def execPand (r : GRef) (f : Fields) (s : State) : Res := s.predIns r f 0x08 (fun a b => a &&& b)

/-- `POR` (R514). -/
def execPor (r : GRef) (f : Fields) (s : State) : Res := s.predIns r f 0x09 (fun a b => a ||| b)

/-- `PXOR` (R514). -/
def execPxor (r : GRef) (f : Fields) (s : State) : Res := s.predIns r f 0x0A (fun a b => a ^^^ b)

/-- `PNOT` (R514). -/
def execPnot (r : GRef) (f : Fields) (s : State) : Res := s.predIns r f 0x0B (fun a _ => ~~~a)

/-! ## Class SPC -/

/-- A mask as two words. -/
def maskWords (m : Mask) : List Word := [BitVec.ofNat 32 m.toNat, BitVec.ofNat 32 (m.toNat / 2 ^ 32)]

/-- A special instruction that writes each active thread's value (R514). -/
def State.spcIns (s : State) (r : GRef) (f : Fields) (code : Nat) (val : Group → Nat → Word) : Res :=
  .next (s.issue r 9 code f (fun t g => laneDone t g (formSpc code) f (fun j => [val g j])))

/-- A special instruction that writes a mask to the uniform pair at `DST` (R237). -/
def State.pairIns (s : State) (r : GRef) (f : Fields) (code : Nat) (val : Group → Mask) : Res :=
  .next (s.issue r 9 code f (fun t g =>
    .done t (g.setUs f.dst.toNat (maskWords (val g))).next []))

/-- `TID` (R237): the thread's own index. -/
def execTid (r : GRef) (f : Fields) (s : State) : Res := s.spcIns r f 0x00 (fun _ j => BitVec.ofNat 32 j)

/-- `AMASK` (R237): the active mask. -/
def execAmask (r : GRef) (f : Fields) (s : State) : Res := s.pairIns r f 0x01 (fun g => g.active)

/-- `V2U` (R237): source A of the lowest active thread into a uniform register. -/
def execV2u (r : GRef) (f : Fields) (s : State) : Res :=
  .next (s.issue r 9 0x02 f (fun t g =>
    .done t (g.setU f.dst.toNat (g.srcA f g.lowest)).next []))

/-- `U2V` (R514): source A, uniform register `SA` with `UA` set, into the active threads' registers. -/
def execU2v (r : GRef) (f : Fields) (s : State) : Res := s.spcIns r f 0x03 (fun g j => g.srcA f j)

/-- `SHFL` (R514): source A of thread `IMM16`[5:0] XOR the thread's own index. -/
def execShfl (r : GRef) (f : Fields) (s : State) : Res :=
  s.spcIns r f 0x04 (fun g j => g.srcA f ((f.imm.toNat % 64) ^^^ j))

/-- `VOTE` (R514): predicate `SC`, of the active threads (R239, DEDUCED, assumption log 12). -/
def execVote (r : GRef) (f : Fields) (s : State) : Res := s.pairIns r f 0x05 (fun g => g.pred f.sc.toNat &&& g.active)

end Sys2Proof.Machine
end

