-- ==== Sys2Proof/Machine/Convert.lean ====
section
/-! DEFINITION. Conversions, packs and unpacks of the intersection cores (class CVT: R288, R513). -/

namespace Sys2Proof.Machine

/-! ## Parts of a register -/

/-- Part `t` of `w` bits of a register. -/
def partOf (v : Word) (w t : Nat) : Nat := v.toNat / 2 ^ (w * t) % 2 ^ w

/-- Part `t` of `w` bits replaced; the others keep their values (R513). -/
def partPut (v : Word) (w t n : Nat) : Word :=
  BitVec.ofNat 32 (v.toNat % 2 ^ (w * t) + 2 ^ (w * t) * (n % 2 ^ w) + 2 ^ (w * t + w) * (v.toNat / 2 ^ (w * t + w)))

/-- An integer's low `w` bits. -/
def lowBits (w : Nat) (n : Int) : Nat := (n % (2 ^ w : Nat)).toNat

/-- The destination's own word before the instruction. -/
def Group.oldDst (g : Group) (f : Fields) (t : Nat) : Word := if f.ud then g.ureg f.dst.toNat else g.vreg t f.dst.toNat

/-- A conversion of class CVT: `nan` says whether its source is a NaN of a floating format (R298), `val` the words written. -/
def State.cvtIns (s : State) (r : GRef) (f : Fields) (code : Nat) (nan : Group → Nat → Bool) (val : Group → Nat → List Word) : Res :=
  .next (s.issue r 2 code f (fun t g =>
    floatDone t r.dist.val g (formCvt code) f (fun j => laneEvent [nan g j] false) (fun j => val g j)))

/-- A conversion whose source is not floating. -/
def State.cvtInt (s : State) (r : GRef) (f : Fields) (code : Nat) (val : Group → Nat → List Word) : Res :=
  .next (s.issue r 2 code f (fun t g => laneDone t g (formCvt code) f (val g)))

/-- The FP32 source of a thread. -/
def Group.srcF (g : Group) (f : Fields) (j : Nat) : Fp := f32 (g.srcA f j)

/-- A pack of an integer part (R288): rounded, saturated, NaN 0. -/
def Group.packInt (g : Group) (f : Fields) (w : Nat) (lo hi : Int) (j : Nat) : List Word :=
  [partPut (g.oldDst f j) w f.typ.toNat (lowBits w (intWrite lo hi (g.srcF f j)).1)]

/-! ## Instructions -/

/-- `F2I` (R288, R513). -/
def execF2i (r : GRef) (f : Fields) (s : State) : Res :=
  s.cvtIns r f 0x00 (fun g j => (g.srcF f j).isNan) (fun g j => [BitVec.ofInt 32 (intWrite (-2147483648) 2147483647 (g.srcF f j)).1])

/-- `I2F` (R288, R513). -/
def execI2f (r : GRef) (f : Fields) (s : State) : Res := s.cvtInt r f 0x01 (fun g j => [toF32 (.fin (Q.int (g.srcA f j).toInt))])

/-- `F2BF` (R288, R513). -/
def execF2bf (r : GRef) (f : Fields) (s : State) : Res :=
  s.cvtIns r f 0x02 (fun g j => (g.srcF f j).isNan) (fun g j => [BitVec.ofNat 32 (fmtB.write (g.srcF f j))])

/-- `F2H` (R288, R513). -/
def execF2h (r : GRef) (f : Fields) (s : State) : Res :=
  s.cvtIns r f 0x03 (fun g j => (g.srcF f j).isNan) (fun g j => [BitVec.ofNat 32 (fmt16.write (g.srcF f j))])

/-- `BF2F` (R288, R513). -/
def execBf2f (r : GRef) (f : Fields) (s : State) : Res :=
  s.cvtIns r f 0x04 (fun g j => (fmtB.read (partOf (g.srcA f j) 16 f.typ.toNat)).isNan) (fun g j => [toF32 (fmtB.read (partOf (g.srcA f j) 16 f.typ.toNat))])

/-- `H2F` (R288, R513). -/
def execH2f (r : GRef) (f : Fields) (s : State) : Res :=
  s.cvtIns r f 0x05 (fun g j => (fmt16.read (partOf (g.srcA f j) 16 f.typ.toNat)).isNan) (fun g j => [toF32 (fmt16.read (partOf (g.srcA f j) 16 f.typ.toNat))])

/-- `F2D` (R288, R513). -/
def execF2d (r : GRef) (f : Fields) (s : State) : Res :=
  s.cvtIns r f 0x06 (fun g j => (g.srcF f j).isNan) (fun g j => let c := fmt64.write (g.srcF f j)
      [BitVec.ofNat 32 c, BitVec.ofNat 32 (c / 2 ^ 32)])

/-- `D2F` (R288, R513). -/
def execD2f (r : GRef) (f : Fields) (s : State) : Res :=
  s.cvtIns r f 0x07 (fun g j => (fmt64.read ((g.srcA f j).toNat + 2 ^ 32 * (g.srcA f j 1).toNat)).isNan) (fun g j => [toF32 (fmt64.read ((g.srcA f j).toNat + 2 ^ 32 * (g.srcA f j 1).toNat))])

/-- `PK8` (R288, R513). -/
def execPk8 (r : GRef) (f : Fields) (s : State) : Res :=
  s.cvtIns r f 0x08 (fun g j => (g.srcF f j).isNan) (fun g j => g.packInt f 8 (-128) 127 j)

/-- `PKU8` (R288, R513). -/
def execPku8 (r : GRef) (f : Fields) (s : State) : Res :=
  s.cvtIns r f 0x09 (fun g j => (g.srcF f j).isNan) (fun g j => g.packInt f 8 0 255 j)

/-- `PK4` (R288, R513). -/
def execPk4 (r : GRef) (f : Fields) (s : State) : Res :=
  s.cvtIns r f 0x0A (fun g j => (g.srcF f j).isNan) (fun g j => g.packInt f 4 (-8) 7 j)

/-- `PKU4` (R288, R513). -/
def execPku4 (r : GRef) (f : Fields) (s : State) : Res :=
  s.cvtIns r f 0x0B (fun g j => (g.srcF f j).isNan) (fun g j => g.packInt f 4 0 15 j)

/-- `PKF4` (R288, R513). -/
def execPkf4 (r : GRef) (f : Fields) (s : State) : Res :=
  s.cvtIns r f 0x0C (fun g j => (g.srcF f j).isNan) (fun g j => [partPut (g.oldDst f j) 4 f.typ.toNat (f4Write (g.srcF f j)).1])

/-- `UP8` (R288, R513). -/
def execUp8 (r : GRef) (f : Fields) (s : State) : Res := s.cvtInt r f 0x0D (fun g j => [toF32 (.fin (Q.int (signedOf 8 (partOf (g.srcA f j) 8 f.typ.toNat))))])

/-- `UPU8` (R288, R513). -/
def execUpu8 (r : GRef) (f : Fields) (s : State) : Res := s.cvtInt r f 0x0E (fun g j => [toF32 (.fin (Q.int (partOf (g.srcA f j) 8 f.typ.toNat : Nat)))])

/-- `UP4` (R288, R513). -/
def execUp4 (r : GRef) (f : Fields) (s : State) : Res := s.cvtInt r f 0x0F (fun g j => [toF32 (.fin (Q.int (signedOf 4 (partOf (g.srcA f j) 4 f.typ.toNat))))])

/-- `UPU4` (R288, R513). -/
def execUpu4 (r : GRef) (f : Fields) (s : State) : Res := s.cvtInt r f 0x10 (fun g j => [toF32 (.fin (Q.int (partOf (g.srcA f j) 4 f.typ.toNat : Nat)))])

/-- `UPF4` (R288, R513). -/
def execUpf4 (r : GRef) (f : Fields) (s : State) : Res :=
  s.cvtIns r f 0x11 (fun g j => (f4Read (partOf (g.srcA f j) 4 f.typ.toNat)).isNan) (fun g j => [toF32 (f4Read (partOf (g.srcA f j) 4 f.typ.toNat))])

end Sys2Proof.Machine
end

