-- ==== Sys2Proof/Machine/Integer.lean ====
section
/-! DEFINITION. Integer instructions of the intersection cores (class INT: R236 to R239, R289, R514). -/

namespace Sys2Proof.Machine

/-- An integer instruction: each active thread's result goes to the destination. -/
def State.intIns (s : State) (r : GRef) (f : Fields) (op : Nat) (val : Group → Nat → Word) : Res :=
  .next (s.issue r 0 op f (fun t g => laneDone t g (formInt op) f (fun j => [val g j])))

/-- The high 32 bits of a product (R514): signed with `TYPE` 0, unsigned with 1. -/
def mulHi (unsigned : Bool) (a b : Word) : Word :=
  if unsigned then BitVec.ofNat 32 (a.toNat * b.toNat / 2 ^ 32) else BitVec.ofInt 32 (a.toInt * b.toInt / 2 ^ 32)

/-- Shifts (R514): a count of 32 or more gives 0, or copies of the sign bit. -/
def shlW (a b : Word) : Word := if b.toNat < 32 then a <<< b.toNat else 0
def shrW (a b : Word) : Word := if b.toNat < 32 then a >>> b.toNat else 0
def sarW (a b : Word) : Word := a.sshiftRight (min b.toNat 31)

/-- The set bits of a word. -/
def popcW (a : Word) : Word := BitVec.ofNat 32 ((List.range 32).filter (fun i => a.getLsbD i)).length

/-- The zeros above the highest set bit; 32 for 0 (R514). -/
def clzW (a : Word) : Word := BitVec.ofNat 32 (if a = 0 then 32 else 31 - Nat.log2 a.toNat)

/-- `UDIV` and `UREM` (R238). -/
def udivW (a b : Word) : Word := if b = 0 then 0xFFFFFFFF else BitVec.ofNat 32 (a.toNat / b.toNat)
def uremW (a b : Word) : Word := if b = 0 then a else BitVec.ofNat 32 (a.toNat % b.toNat)

/-- `IADD` (R514). -/
def execIadd (r : GRef) (f : Fields) (s : State) : Res := s.intIns r f 0x00 (fun g j => g.srcA f j + g.srcB f j)

/-- `ISUB` (R514). -/
def execIsub (r : GRef) (f : Fields) (s : State) : Res := s.intIns r f 0x01 (fun g j => g.srcA f j - g.srcB f j)

/-- `IMUL` (R514). -/
def execImul (r : GRef) (f : Fields) (s : State) : Res := s.intIns r f 0x02 (fun g j => g.srcA f j * g.srcB f j)

/-- `IMULHI` (R514). -/
def execImulhi (r : GRef) (f : Fields) (s : State) : Res := s.intIns r f 0x03 (fun g j => mulHi (decide (f.typ = 1)) (g.srcA f j) (g.srcB f j))

/-- `AND` (R514). -/
def execAnd (r : GRef) (f : Fields) (s : State) : Res := s.intIns r f 0x04 (fun g j => g.srcA f j &&& g.srcB f j)

/-- `OR` (R514). -/
def execOr (r : GRef) (f : Fields) (s : State) : Res := s.intIns r f 0x05 (fun g j => g.srcA f j ||| g.srcB f j)

/-- `XOR` (R514). -/
def execXor (r : GRef) (f : Fields) (s : State) : Res := s.intIns r f 0x06 (fun g j => g.srcA f j ^^^ g.srcB f j)

/-- `SHL` (R514). -/
def execShl (r : GRef) (f : Fields) (s : State) : Res := s.intIns r f 0x07 (fun g j => shlW (g.srcA f j) (g.srcB f j))

/-- `SHR` (R514). -/
def execShr (r : GRef) (f : Fields) (s : State) : Res := s.intIns r f 0x08 (fun g j => shrW (g.srcA f j) (g.srcB f j))

/-- `SAR` (R514). -/
def execSar (r : GRef) (f : Fields) (s : State) : Res := s.intIns r f 0x09 (fun g j => sarW (g.srcA f j) (g.srcB f j))

/-- `IMIN` (R514). -/
def execImin (r : GRef) (f : Fields) (s : State) : Res := s.intIns r f 0x0A (fun g j => if (g.srcA f j).slt (g.srcB f j) then g.srcA f j else g.srcB f j)

/-- `IMAX` (R514). -/
def execImax (r : GRef) (f : Fields) (s : State) : Res := s.intIns r f 0x0B (fun g j => if (g.srcA f j).slt (g.srcB f j) then g.srcB f j else g.srcA f j)

/-- `UMIN` (R514). -/
def execUmin (r : GRef) (f : Fields) (s : State) : Res := s.intIns r f 0x0C (fun g j => if (g.srcA f j).ult (g.srcB f j) then g.srcA f j else g.srcB f j)

/-- `UMAX` (R514). -/
def execUmax (r : GRef) (f : Fields) (s : State) : Res := s.intIns r f 0x0D (fun g j => if (g.srcA f j).ult (g.srcB f j) then g.srcB f j else g.srcA f j)

/-- `IMAD` (R514). -/
def execImad (r : GRef) (f : Fields) (s : State) : Res := s.intIns r f 0x0E (fun g j => g.srcA f j * g.srcB f j + g.srcC f j)

/-- `POPC` (R514). -/
def execPopc (r : GRef) (f : Fields) (s : State) : Res := s.intIns r f 0x0F (fun g j => popcW (g.srcA f j))

/-- `CLZ` (R514). -/
def execClz (r : GRef) (f : Fields) (s : State) : Res := s.intIns r f 0x10 (fun g j => clzW (g.srcA f j))

/-- `MOV` (R514). -/
def execMov (r : GRef) (f : Fields) (s : State) : Res := s.intIns r f 0x11 (fun g j => g.srcB f j)

/-- `SEL` (R514). -/
def execSel (r : GRef) (f : Fields) (s : State) : Res := s.intIns r f 0x12 (fun g j => if (g.pred f.sc.toNat).getLsbD j then g.srcA f j else g.srcB f j)

/-- `UDIV` (R238). -/
def execUdiv (r : GRef) (f : Fields) (s : State) : Res := s.intIns r f 0x13 (fun g j => udivW (g.srcA f j) (g.srcB f j))

/-- `UREM` (R238). -/
def execUrem (r : GRef) (f : Fields) (s : State) : Res := s.intIns r f 0x14 (fun g j => uremW (g.srcA f j) (g.srcB f j))

end Sys2Proof.Machine
end

