-- ==== Sys2Proof/Machine/Squares.lean ====
section
/-! DEFINITION. Squares and the plot: what a district loads (R170 to R173), a load's end (R92, R195, R348), a drained copy's end
(R195, R196). -/

namespace Sys2Proof.Machine

/-- The walkers of a square, Express ones in front (R171). -/
def State.squareWalkers (s : State) (d tid : Nat) : List Walker :=
  sortBy (fun a b => decide ((if a.express then 0 else 2 ^ 64) + a.ord < (if b.express then 0 else 2 ^ 64) + b.ord))
    (s.walkers.filter (fun w => decide (w.dist = d) && decide (w.st = .inSquare tid)))

/-- `heat(q)` of R172. -/
def State.squareHeat (s : State) (d : Nat) (q : Square) : Nat :=
  (s.squareWalkers d q.tid).length + ((s.dist d).loads - q.loads0) * 2 ^ s.rd (Fld.dstSqCtlAgeShift d)

/-- A square that a load may serve now: not loading, not a treelet that a top entry brings, and no old copy in the plot
(R167, R196). -/
def State.loadable (s : State) (d : Nat) (q : Square) : Bool :=
  !q.loading && !s.topHas q.tid && (s.dist d).plot.all (fun p => decide (p.2.tid ≠ q.tid))

/-- A load channel is free (R172). -/
def State.channelFree (s : State) (d ch : Nat) : Bool := (s.dist d).plot.all (fun p => decide (p.2.ch ≠ some ch))

/-- The square with the largest key, the oldest of those that tie. -/
def pickSquare (key : Square → Nat) (qs : List Square) : Option Square :=
  leastBy (fun q => (2 ^ 48 - key q) * 2 ^ 64 + q.opened) qs

/-- Whether a square holds an Express walker (R171). -/
def State.expressSquare (s : State) (d : Nat) (q : Square) : Bool := (s.squareWalkers d q.tid).any Walker.express

/-- Whether a queued walker can be stepped where it is (R174, R175): it waits neither for a square nor for a lookup. -/
def State.steps (s : State) (w : Walker) : Bool :=
  s.stays w.bid || (match w.tid with
    | some tid => (s.copyFor w tid).isSome
    | none => false)

/-- The square the first channel loads (R172). -/
def State.firstChoice (s : State) (d : Nat) : Option Square :=
  let qs := (s.dist d).squares.filter (s.loadable d)
  let ex := qs.filter (s.expressSquare d)
  let many (q : Square) : Nat := (s.squareWalkers d q.tid).length
  let worth := qs.filter (fun q => decide (s.rd (Fld.dstSqCtlFill d) ≤ many q) || decide (s.rd (Fld.dstSqCtlHeat d) ≤ s.squareHeat d q))
  let busy := s.walkers.any (fun w => decide (w.dist = d) && (decide (w.st = .inProgram) || (decide (w.st = .queued) && s.steps w)))
  if ex ≠ [] then pickSquare many ex
  else if worth ≠ [] then pickSquare (s.squareHeat d) qs
  else if busy then none
  else pickSquare (s.squareHeat d) qs

/-- The square the second channel loads. -/
def State.secondChoice (s : State) (d : Nat) : Option Square :=
  let ex := ((s.dist d).squares.filter (s.loadable d)).filter (s.expressSquare d)
  pickSquare (fun q => (s.squareWalkers d q.tid).length) ex

/-- Walkers in `QUEUED` on a copy. -/
def State.copyWalkers (s : State) (d tid : Nat) : Nat :=
  (s.walkers.filter (fun w => decide (w.dist = d) && decide (w.st = .queued) && decide (w.tid = some tid))).length

/-- The coldest treelet that may be evicted (R173). -/
def State.coldest (s : State) (d : Nat) : Option Nat :=
  let pins := s.pinnedSlots d
  let may := (s.dist d).plot.filter (fun p => decide (p.1 ∈ s.ordinarySlots d) && decide (p.1 ∉ pins) && decide (p.2.top = none)
    && (decide (p.2.st = .resident) || decide (p.2.st = .replicated)))
  (leastBy (fun p => s.copyWalkers d p.2.tid * 2 ^ 64 + p.2.loaded) may).map (·.1)

/-- A square's load started on a channel (R172, R173, R195): in a free slot, or after an eviction that frees one. -/
def State.startLoad (s : State) (d ch : Nat) (q : Square) : State :=
  let slots := s.ordinarySlots d
  match slots.find? (fun k => decide (SMap.find (s.dist d).plot k = none)) with
  | some k =>
    let p : PlotSlot := { tid := q.tid, st := .loading, cells := [], len := 0, poison := false, top := none, pinned := false,
                          loaded := 0, stale := false, ch := some ch, bid := none, pat := 0 }
    s.updDist d (fun x => { x with plot := SMap.put x.plot k p, squares := updAll (fun r => decide (r.tid = q.tid)) (fun r => { r with loading := true }) x.squares })
  | none =>
    if slots.any (fun k => match SMap.find (s.dist d).plot k with
      | some p => decide (p.st = .draining)
      | none => false) then s
    else
      match s.coldest d with
      | some k => (s.count d 0x0D 1).drainSlot d k
      | none => s

/-- Squares without walkers are released (R170). -/
def State.closeEmpty (s : State) (d : Nat) : State :=
  (s.updDist d (fun x => { x with squares := x.squares.filter (fun q => q.loading || decide (s.squareWalkers d q.tid ≠ [])) })).openWaiting d

/-- The load decision of one district (R172), with the copies its top entries want (R167). -/
def State.loadDecision (s : State) (d : Nat) : State :=
  let s1 := (s.closeEmpty d).topLoads d
  let s2 := if s1.channelFree d 1 then
      (match s1.secondChoice d with
       | some q => s1.startLoad d 1 q
       | none => s1) else s1
  if s2.channelFree d 0 then
    match (s2.dist d).plot.find? (fun p => decide (p.2.st = .loading) && decide (p.2.ch = none)) with
    | some p => s2.updDist d (fun x => { x with plot := SMap.put x.plot p.1 { p.2 with ch := some 0 } })
    | none =>
      match s2.firstChoice d with
      | some q => s2.startLoad d 0 q
      | none => s2
  else s2

/-- `LOAD_DECISION` (R172). -/
def execLoadDecision (d : Dist) (s : State) : Res :=
  .next (if s.walking d.val && s.isOpen d.val then s.loadDecision d.val else s)

/-! ## A load's end -/

/-- Whether a district serves a treelet that it has loaded (R195), as owner (`some true`) or replica: by the map's answer, or as it did
when the load began while the answer is to be looked up again. -/
def State.serves (s : State) (d tid : Nat) : Option Bool :=
  match s.memoAns d tid with
  | some ans => s.servesBy d tid ans
  | none => some false

/-- The square of a treelet released, its walkers put through `f` in order; a walker that waits for a square opens one (R170). -/
def State.releaseSquare (s : State) (d tid : Nat) (f : State → Walker → State) : State :=
  let ws := s.squareWalkers d tid
  (ws.foldl f (s.updDist d (fun x => { x with squares := x.squares.filter (fun q => decide (q.tid ≠ tid)) }))).openWaiting d

/-- The batches a load is made for: those of its square's walkers, else those that use its top entry. -/
def State.loadBatches (s : State) (d : Nat) (p : PlotSlot) : List Batch :=
  let ws := s.squareWalkers d p.tid
  if ws ≠ [] then s.batches.filter (fun x => ws.any (fun w => decide (w.bid = x.bid)))
  else s.batches.filter (fun x => p.top.isSome && decide (x.top = p.top))

/-- A load completed (R92, R195): the copy is resident or replicated and the square's walkers are queued. -/
def State.loaded (s : State) (d k : Nat) (p : PlotSlot) (owner : Bool) (bytes : List Byte) : State :=
  let v := s.rd (Fld.dstInjectPlot d)
  let s0 := if v = 0 then s else s.disarm (Fld.dstInjectPlot d)
  let base := p.tid * 65536
  let q : PlotSlot := { p with
    st := if p.top.isNone && owner then .resident else .replicated
    cells := Memory.store [] base bytes, len := bytes.length, pinned := p.top.isNone && pinAsked d ((s.memoAns d p.tid).getD none), loaded := s.clock, ch := none,
    pat := armPattern v }
  let s1 := (s0.updDist d (fun x => { x with plot := SMap.put x.plot k q, loads := x.loads + 1 })).count d 0x0C 1
  (s1.tick).releaseSquare d p.tid (fun t w => (t.setWalker { w with st := .queued, ord := t.clock }).tick)

/-- The treelet's first `TL_LEN` units read by a load channel (R92, R172). -/
def State.readTreelet (s : State) (d ch tid : Nat) : State × List Byte × Bool :=
  let base := tid * 65536
  let h := s.sceneRead (streamPlot d ch) base 64
  let r := h.1.sceneRead (streamPlot d ch) (base + 64) ((tlLen h.2.1 - 1) * 64)
  (r.1, h.2.1 ++ r.2.1, h.2.2 || r.2.2)

/-- What a load comes to (R87, R88, R195, R348). -/
def State.finishLoad (s : State) (d ch k : Nat) (p : PlotSlot) : State :=
  let drop (t : State) : State := t.freeSlot d k
  match (if p.top.isSome then some false else s.serves d p.tid) with
  | none => (drop s).releaseSquare d p.tid (fun t w => t.place w)
  | some owner =>
    let bs := s.loadBatches d p
    let may := bs.filter (fun x => regionsAllow x.regions (fun _ => true) (p.tid * 65536) 65536)
    match may with
    | [] => (drop s).releaseSquare d p.tid (fun t w => t.violate w)
    | x :: _ =>
      match s.resident d x.regions p.tid with
      | (t, false) =>
        (drop t).releaseSquare d p.tid (fun u w => (u.absentFault w.bid 0x10 p.tid w.idx d).parkWalker w)
      | (t, true) =>
        match t.readTreelet d ch p.tid with
        | (u, _, true) =>
          let lost := (drop u).releaseSquare d p.tid (fun v w => (v.setWalker { w with st := .queued, ord := v.clock }).tick)
          bs.foldl (fun v y => v.sceneLost y.bid (some (p.tid * 65536))) lost
        | (u, bytes, false) => u.loaded d k p owner bytes

/-- `PLOT_LOAD_COMPLETE` (R195): the load of a channel, the first one serving the copies of top entries too. -/
def execPlotLoadComplete (d : Dist) (ch : Fin 2) (s : State) : Res :=
  .next (if !(s.walking d.val && s.isOpen d.val) then s
    else match (s.dist d.val).plot.find? (fun p => decide (p.2.st = .loading) &&
        (decide (p.2.ch = some ch.val) || (decide (ch.val = 0) && decide (p.2.ch = none)))) with
    | none => s
    | some (k, p) => s.finishLoad d.val ch.val k p)

/-- `COPY_DRAIN_END` (R195): no step is in progress on a copy between steps, so a draining copy ends; its slot may bring
the copy of a top entry. -/
def execCopyDrainEnd (d : Dist) (slot : Fin 16) (s : State) : Res :=
  .next (match SMap.find (s.dist d.val).plot slot.val with
    | none => s
    | some p =>
      if p.st ≠ .draining then s
      else
        (s.freeSlot d.val slot.val).topLoads d.val)

end Sys2Proof.Machine
end

