-- ==== Sys2Proof/Machine/Messages.lean ====
section
/-! DEFINITION. Messages between cores (class MSG: R258 to R260): SEND and its delivery and status, RECV. -/

namespace Sys2Proof.Machine

/-! ## SEND -/

/-- Where a thread's status goes: its register `DST`, or with `UD` the uniform register, 256 up, of the lowest active thread. -/
def Group.statusReg (g : Group) (f : Fields) (t : Nat) : Nat :=
  if !f.ud then f.dst.toNat else if t = g.lowest then 256 + f.dst.toNat % 64 else 255

/-- The payload of a thread. -/
def Group.payload (g : Group) (f : Fields) (t : Nat) : List Word :=
  (List.range (f.sc.toNat % 32)).map (fun k => g.vreg t (f.sb.toNat + k))

/-- The messages of the active threads sent (R13, R258). -/
def State.sendAll (s : State) (d : Nat) (g : Group) (f : Fields) : State :=
  g.threads.foldl (fun u t => u.sendMsg .walker d ((g.srcA f t).toNat % 128)
    (.send g.bid f.imm (g.payload f t) g.seed t (g.statusReg f t))) s

/-- `SEND` (R258). -/
def execSend (r : GRef) (f : Fields) (s : State) : Res :=
  .next (s.issue r 7 0x00 f (fun t g =>
    .done (t.sendAll r.dist.val g f) { g.next with sends := g.sends ++ g.threads.map (fun j => (j, g.statusReg f j)) } []))

/-- Whether a core holds a resident or parked group of a batch (R259). -/
def Core.serves (c : Core) (b : Bid) : Bool := (SMap.vals c.groups ++ SMap.vals c.parks).any (fun g => decide (g.bid = b))

/-- The messages of an inbox whose batches have not sealed (R259). -/
def State.liveInbox (s : State) (d : Nat) : List InMsg := (s.dist d).core.inbox.filter (fun m => (s.batch m.bid).isSome)

/-- A message that reaches its core: into the inbox, or dropped; the status answers on the response lane (R258, R259). -/
def State.inboxPut (s : State) (d src : Nat) (m : InMsg) (grp thread reg : Nat) : State :=
  let box := s.liveInbox d
  let ok := s.isOpen d && (s.dist d).core.serves m.bid && decide (box.length < 256)
  let t := s.updCore d (fun c => { c with inbox := if ok then box ++ [m] else box })
  (if ok then t else t.count d 8 1).sendMsg .response d src (.sendStatus grp thread reg ok)

/-- `SEND_DELIVERY` (R259). -/
def execSendDelivery (d : Dist) (s : State) : Res :=
  .next (if !s.active then s
    else match s.nextMsg d.val (fun p => match p with
      | .send _ _ _ _ _ _ => true
      | .walker _ _ _ _ _ | .lookup _ | .lookupReply _ _ _ | .candidates _ _ _ _ _ | .tau _ _ _ _ | .endNotice _ _ _ _ _
      | .sendStatus _ _ _ _ | .marker => false) with
    | none => s
    | some m =>
      match m.body with
      | .send b tag ws grp th reg =>
        ((s.dropMsg m).wakeDist d.val).inboxPut d.val m.src { bid := b, tag := tag, src := m.src, words := ws } grp th reg
      | .walker _ _ _ _ _ | .lookup _ | .lookupReply _ _ _ | .candidates _ _ _ _ _ | .tau _ _ _ _ | .endNotice _ _ _ _ _
      | .sendStatus _ _ _ _ | .marker => s)

/-- A status written to the thread that waits for it, 1 delivered, 0 dropped (R258). -/
def Group.statusIn (g : Group) (thread reg : Nat) (ok : Bool) : Group :=
  let v : Word := BitVec.ofNat 32 (b2n ok)
  let h := { g with sends := dropFirst (fun p => decide (p = (thread, reg))) g.sends }
  if 256 ≤ reg then h.setU (reg - 256) v else h.setV thread reg v

/-- A status received by a core. One for a group that is no longer there finds nothing. -/
def State.statusIn (s : State) (d grp thread reg : Nat) (ok : Bool) : State :=
  s.updCore d (fun c => { c with groups := c.groups.map (fun p =>
    if decide (p.2.seed = grp) && decide ((thread, reg) ∈ p.2.sends) then (p.1, p.2.statusIn thread reg ok) else p) })

/-- `SEND_STATUS` (R258). -/
def execSendStatus (d : Dist) (s : State) : Res :=
  .next (if !s.active then s
    else match s.nextMsg d.val (fun p => match p with
      | .sendStatus _ _ _ _ => true
      | .walker _ _ _ _ _ | .lookup _ | .lookupReply _ _ _ | .candidates _ _ _ _ _ | .tau _ _ _ _ | .endNotice _ _ _ _ _
      | .send _ _ _ _ _ _ | .marker => false) with
    | none => s
    | some m =>
      match m.body with
      | .sendStatus grp th reg ok => (s.dropMsg m).statusIn d.val grp th reg ok
      | .walker _ _ _ _ _ | .lookup _ | .lookupReply _ _ _ | .candidates _ _ _ _ _ | .tau _ _ _ _ | .endNotice _ _ _ _ _
      | .send _ _ _ _ _ _ | .marker => s)

/-! ## RECV (R260) -/

/-- The messages for a group's batch with a tag are taken, at most one for each active thread. -/
def takeInbox (b : Bid) (tag : BitVec 16) : Nat → List InMsg → List InMsg × List InMsg
  | _, [] => ([], [])
  | 0, l => ([], l)
  | n + 1, m :: rest =>
    if m.bid = b ∧ m.tag = tag then
      let q := takeInbox b tag n rest
      (m :: q.1, q.2)
    else
      let q := takeInbox b tag (n + 1) rest
      (q.1, m :: q.2)

/-- One thread's message: the payload in registers from `DST` that lie below NREG, and `SA`; a thread that receives none reads
zero in `SA` (R236, R260). -/
def Group.recvOne (g : Group) (f : Fields) (t : Nat) (m : Option InMsg) : Group :=
  match m with
  | none => g.setV t f.sa.toNat 0
  | some x =>
    (g.setVs t f.dst.toNat (x.words.take (g.nreg - f.dst.toNat))).setV t f.sa.toNat (Config.recvInfo x.src x.words.length)

/-- Messages handed out in ascending thread order. -/
def Group.recvAll (g : Group) (f : Fields) (ms : List InMsg) : Group :=
  ((List.range g.threads.length).zip g.threads).foldl (fun h p => h.recvOne f p.2 ms[p.1]?) g

/-- The register words that `RECV` writes. -/
def Group.recvKeys (g : Group) (f : Fields) (ms : List InMsg) : List Nat :=
  ((List.range g.threads.length).zip g.threads).flatMap (fun p =>
    (match ms[p.1]? with
     | none => []
     | some x => (regSpan f.dst.toNat (min x.words.length (g.nreg - f.dst.toNat))).map (fun r => p.2 * 256 + r))
    ++ (if f.sa.toNat = 255 then [] else [p.2 * 256 + f.sa.toNat]))

/-- `RECV` (R260): it never waits for a message. -/
def execRecv (r : GRef) (f : Fields) (s : State) : Res :=
  let d := r.dist.val
  .next (s.issue r 7 0x01 f (fun t g =>
    let q := takeInbox g.bid f.imm g.threads.length (t.dist d).core.inbox
    .done (t.updCore d (fun c => { c with inbox := q.2 })) (g.recvAll f q.1).next (g.recvKeys f q.1)))

end Sys2Proof.Machine
end

