-- ==== Sys2Proof/Machine/Slots.lean ====
section
/-! DEFINITION. The accumulation slots as programs see them (class WLK: R321, R322). -/

namespace Sys2Proof.Machine

/-- A WLK instruction. -/
def State.wlkIns (s : State) (r : GRef) (f : Fields) (code : Nat) (body : State → Group → Act) : Res :=
  .next (s.issue r 8 code f body)

/-! ## Interlocks -/

/-- `SLOT.LOCK` (R321, R322): each thread takes its slot's interlock; the group waits for those it cannot have yet. -/
def execSlotLock (r : GRef) (f : Fields) (s : State) : Res :=
  s.wlkIns r f 0x00 (fun t g => .done (t.lockAll g).1 g.next [])

/-- `SLOT.UNLOCK` (R321). -/
def execSlotUnlock (r : GRef) (f : Fields) (s : State) : Res :=
  s.wlkIns r f 0x03 (fun t g =>
    let mine (l : SlotLock) : Bool := g.threads.any (fun j => match t.slotOf g j with
      | some (_, w) => decide (l.bid = w.bid) && decide (l.slot = w.ray.slot.toNat) && decide (l.idx = w.idx)
      | none => false)
    .done { t with locks := t.locks.filter (fun l => !mine l) } g.next [])

/-! ## Reads -/

/-- The host reads of an instruction made, and counted. -/
def State.countSlotReads (s : State) (d : Nat) (g : Group) (f : Fields) : State :=
  g.threads.foldl (fun u j => match s.slotOf g j with
    | some (x, _) => if x.desc.ordered then u else (u.gateTrip d).hostRead (4 * slotCount f)
    | none => u) s

/-- `SLOT.LD` (R321). -/
def execSlotLd (r : GRef) (f : Fields) (s : State) : Res :=
  s.wlkIns r f 0x01 (fun t g =>
    let u := t.countSlotReads r.dist.val g f
    laneDone { u with freeCtr := u.freeCtr + 1 } g (formWlk 1 f) f (fun j => (t.slotRead g f j).getD []))

/-! ## Writes -/

/-- The trips to the Gate of an instruction's slot writes. -/
def State.slotTrips (s : State) (d : Nat) (g : Group) : State :=
  g.threads.foldl (fun u j => match s.slotOf g j with
    | some (x, _) => if x.desc.ordered then u else u.gateTrip d
    | none => u) s

/-- `SLOT.ST` (R321). -/
def execSlotSt (r : GRef) (f : Fields) (s : State) : Res :=
  s.wlkIns r f 0x02 (fun t g =>
    match t.slotWrites g f g.threads with
    | none => .gone t
    | some u => .done (u.slotTrips r.dist.val g) g.next [])

end Sys2Proof.Machine
end

