-- ==== Sys2Proof/Machine/Groups.lean ====
section
/-! DEFINITION. Groups as the core manages them: order of launches and restores (R218, R268), program images and launch (R222 to R232),
splits (R221, R223), pre-emption (R267), parks (R263), replay and kill (R264 to R266). -/

namespace Sys2Proof.Machine

/-! ## Program images (R227 to R229) -/

/-- A program image whose header has passed the checks. -/
structure Image where
  addr    : Nat
  nreg    : Nat
  split   : Nat
  parkTrap : Bool
  nanTrap : Bool
  localK  : Nat
  codeLen : Nat
  entryPc : Nat
  deriving DecidableEq, Repr

/-- What reading an image comes to: `lost` where the scene data is poisoned (R348). -/
inductive ImageRes where
  | ok (i : Image)
  | bad
  | lost (a : Nat)
  deriving DecidableEq, Repr

/-- The split a header names (R223, R270). -/
def State.splitOf (s : State) (d v : Nat) : Nat :=
  let e := if v = 3 then s.rd (Fld.dstCoreCtlSplitDef d) else v
  if e = 3 then 1 else e

/-- Local store of a split in KiB (R221). -/
def splitStore (sp : Nat) : Nat := if sp = 0 then 128 else if sp = 1 then 256 else 384

/-- A header judged (R228, R229, R223): `len` is `IMG_LEN`. -/
def State.headerOf (s : State) (d addr len entry : Nat) (h : List Byte) : ImageRes :=
  let i : Image :=
    { addr := addr, nreg := bytesLe h 1 1, split := s.splitOf d (bytesLe h 2 1 % 4), parkTrap := bit (bytesLe h 2 1) 2,
      nanTrap := bit (bytesLe h 2 1) 3, localK := bytesLe h 4 2, codeLen := bytesLe h 8 4, entryPc := bytesLe h 12 4 }
  if decide (bytesLe h 0 1 ≠ entry) || decide (i.nreg < 32) || decide (384 < i.localK) || decide (i.codeLen = 0) || decide (i.codeLen % 8 ≠ 0)
      || decide (i.entryPc % 8 ≠ 0) || decide (i.codeLen ≤ i.entryPc) || decide (len < 64 + i.codeLen) || decide (splitStore i.split < i.localK)
  then .bad else .ok i

/-- The program of an invocation, read from the tenant's directory and its image (R227, R229, R489). -/
def State.imageOf (s : State) (d : Nat) (x : Batch) (i : Invocation) : State × ImageRes :=
  let a := s.pdAddr x.tenant + 16 * i.prog
  if s.tenFails x.tenant || decide (i.prog = 0) || decide (s.pdCount x.tenant ≤ i.prog) || !regionsAllow x.regions Region.program a 16 then (s, .bad)
  else
    match s.deskBytes d a 16 with
    | (t, _, true) => (t, .lost a)
    | (t, e, false) =>
      let img := sceneField e 0 64
      let len := bytesLe e 8 4
      if !bit (bytesLe e 12 4) 0 || decide (len < 64) || !regionsAllow x.regions Region.program img len then (t, .bad)
      else
        match t.deskBytes d img 64 with
        | (u, _, true) => (u, .lost img)
        | (u, h, false) => (u, u.headerOf d img len i.entry h)

/-! ## What comes next (R218, R268) -/

/-- The next restore or launch of a core. -/
inductive Head where
  | launch (i : Invocation)
  | restore (k : Nat) (g : Group)
  deriving DecidableEq, Repr

/-- A parked group that may be restored (R264, R268). -/
def Group.restorable (g : Group) : Bool :=
  decide (g.parked = some .pre) || (g.replay && (decide (g.parked = some .trap) || decide (g.parked = some .fault)))

/-- The order of R268: class, then restores by age, then launches by arrival. -/
def State.headOf (s : State) (d : Nat) : Option Head :=
  let c := (s.dist d).core
  let rs := c.parks.filter (fun p => p.2.restorable)
  match leastBy (fun p => p.2.cls * 2 ^ 64 + p.2.age) rs, leastBy (fun i => i.cls) c.waiting with
  | none, none => none
  | some p, none => some (.restore p.1 p.2)
  | none, some i => some (.launch i)
  | some p, some i => if p.2.cls ≤ i.cls then some (.restore p.1 p.2) else some (.launch i)

/-- A core launches and restores (R270). -/
def State.coreGoes (s : State) (d : Nat) : Bool := s.coreOn d && !s.coreHalt d

/-! ## Room (R222, R224) -/

/-- Register units of a group (R220). -/
def unitsOf (nreg : Nat) : Nat := (nreg + 7) / 8

/-- The first fit of `k` KiB among allocations, if there is one: at 0 or at the end of an allocation. -/
def firstFit (allocs : List (Nat × Nat)) (size k : Nat) : Option Nat :=
  let starts := 0 :: allocs.map (fun p => p.1 + p.2)
  let free (a : Nat) : Bool := decide (a + k ≤ size) && allocs.all (fun p => decide (a + k ≤ p.1) || decide (p.1 + p.2 ≤ a))
  leastBy (fun a => a) (starts.filter free)

/-- Where a group of `nreg` registers and `k` KiB would go among others: its slot and its place in local store. -/
def roomAmong (gs : SMap Group) (split nreg k : Nat) : Option (Nat × Nat) :=
  let used := (gs.map (fun p => unitsOf p.2.nreg)).foldl (· + ·) 0
  if used + unitsOf nreg ≤ 128 then
    match (List.range 32).find? (fun i => (SMap.find gs i).isNone),
      (if k = 0 then some 0 else firstFit ((gs.filter (fun p => decide (p.2.localK ≠ 0))).map (fun p => (p.2.lsBase, p.2.localK))) (splitStore split) k) with
    | some i, some a => some (i, a)
    | _, _ => none
  else none

/-- Where a group would go in a core now. -/
def State.roomFor (s : State) (d nreg k : Nat) : Option (Nat × Nat) :=
  roomAmong (s.dist d).core.groups (s.dist d).core.split nreg k

/-! ## Launch -/

/-- A group with nothing in it but what names it; an `IMAGE` record is formed from one (R262). -/
def Group.blank (i : Invocation) : Group :=
  { bid := i.bid, entry := i.entry, prog := i.prog, cls := i.cls, age := 0, img := 0, nreg := 32, localK := 0, lsBase := 0, split := 0,
    codeLen := 0, parkTrap := false, nanTrap := false, pc := 0, ir := none, vregs := [], uregs := [], preds := [], active := 0, live := 0,
    launch := 0, mstack := [], wctr := [], lstore := [], mtx := [], fills := [], sends := [], nanPend := [], invs := [], regvs := 0,
    parked := none, replay := false, trap := none, settled := false, rfErr := [], lsErr := [], preWant := false, seed := 0 }

/-- The invocations that would share a group with one (R218). -/
def mates (i : Invocation) (l : List Invocation) : List Invocation :=
  (l.filter (fun j => decide (j.bid = i.bid) && decide (j.entry = i.entry) && decide (j.prog = i.prog))).take 64

/-- Invocations taken out of a core's waiting list. -/
def State.takeInvs (s : State) (d : Nat) (is : List Invocation) : State :=
  s.updCore d (fun c => { c with waiting := c.waiting.filter (fun j => decide (j ∉ is)) })

/-- An `IMAGE` trap at a launch (R229, R262): one record per batch and program, the invocations end as misses, and the batch follows R265. -/
def State.imageTrap (s : State) (d : Nat) (i : Invocation) (is : List Invocation) : State :=
  (is.foldl (fun u j => u.missInv d j) ((s.imageRecord d (Group.blank i)).takeInvs d is)).trapBatch i.bid

/-- The launch record (R230). -/
def State.launchRecord (s : State) (d : Nat) (x : Batch) (i : Invocation) (m : Image) (mask : Mask) : List Word :=
  let w (n : Nat) : Word := BitVec.ofNat 32 n
  let hi (n : Nat) : Word := BitVec.ofNat 32 (n / 2 ^ 32)
  [ w (i.entry + 8 * b2n (decide (i.entry = 5) && x.desc.isProbe) + 16 * i.cls + 64 * x.desc.refine + 256 * x.desc.passes + 1024 * b2n x.desc.ordered),
    w (i.prog + 2 ^ 16 * x.tenant), w x.desc.paramAddr, hi x.desc.paramAddr, x.bid.seq, w (x.bid.que.val + 64 * s.sideOf x.bid),
    w mask.toNat, hi mask.toNat, w d, w (m.localK * 1024), w x.desc.slotAddr, hi x.desc.slotAddr, w x.desc.outAddr, hi x.desc.outAddr, 0, 0 ]

/-- A rerank's place in local store: where its entries and its query begin, and where the next one's entries may (R232). -/
structure Rerank where
  ents  : Nat
  query : Nat
  fin   : Nat
  deriving DecidableEq, Repr

/-- The entries and the query of a probe. -/
def State.rerankData (s : State) (w : Walker) : List (Word × Word × Nat) × ProbeRec :=
  ((match s.heapOf w.dist w with
    | some h => h.ents
    | none => []), w.probe.getD (ProbeRec.fresh w.dist))

/-- Where a rerank that begins at `off` lies. -/
def rerankAt (ents : List (Word × Word × Nat)) (p : ProbeRec) (off : Nat) : Rerank :=
  { ents := off, query := off + 16 * ents.length, fin := off + 16 * ents.length + roundUp p.query.length 128 }

/-- As many reranks as `room` bytes hold, each with its place (R232; the layout: DESIGN CHOICE, assumption log 30). -/
def State.rerankFit (s : State) (room : Nat) : Nat → List Invocation → List Invocation
  | _, [] => []
  | off, i :: rest =>
    match s.invWalker i with
    | none => i :: s.rerankFit room off rest
    | some w =>
      let q := s.rerankData w
      let r := rerankAt q.1 q.2 off
      if r.fin ≤ room then { i with hit := { i.hit with recA := off } } :: s.rerankFit room r.fin rest else []

/-- The bytes of a heap entry (R209). -/
def entryBytes (e : Word × Word × Nat) : List Byte := leBytes 4 e.1.toNat ++ leBytes 4 e.2.1.toNat ++ leBytes 5 e.2.2 ++ zeroBytes 3

/-- A thread's ray inputs (R232). -/
def rayInputs (x : Batch) (w : Walker) (i : Invocation) : List Word :=
  let c := w.carry i.hit.ctx
  let cand := decide (i.entry = 2) || decide (i.entry = 3)
  let n (k : Nat) : Word := BitVec.ofNat 32 k
  [ c.l.x, c.l.y, c.l.z, c.org.x, c.org.y, c.org.z, c.d.x, c.d.y, c.d.z, w.ray.tmin, toF32 (tLimit x w), n w.idx,
    n (w.ray.flags.toNat + 2 ^ 16 * w.ray.mask.toNat), w.ray.user, n i.hit.inst.toNat, i.hit.iuser, n i.hit.recA, n (i.hit.recA / 2 ^ 32),
    i.hit.prim, i.hit.luser, if cand then i.hit.t else 0, i.hit.b1, i.hit.b2, n (i.hit.kind.toNat + 256 * b2n i.hit.front),
    if i.entry = 3 then w.ray.slot else 0 ]

/-- A thread's inputs (R232). -/
def State.inputsOf (s : State) (x : Batch) (i : Invocation) : List Word :=
  let idx : Word := BitVec.ofNat 32 i.idx
  if i.entry = 4 then [idx, BitVec.ofNat 32 x.desc.count]
  else
    match s.invWalker i with
    | none => []
    | some w =>
      if i.entry = 6 then idx :: 0 :: (List.range 16).map (fun k => bytesWord w.upd (4 * k))
      else if i.entry = 5 ∧ x.desc.isProbe then
        let q := s.rerankData w
        let r := rerankAt q.1 q.2 i.hit.recA
        [idx, BitVec.ofNat 32 q.1.length, BitVec.ofNat 32 r.ents, BitVec.ofNat 32 r.query, BitVec.ofNat 32 q.2.qfmt.toNat, q.2.qscale]
      else rayInputs x w i

/-- The local store of a rerank group filled (R215, R232). -/
def State.rerankStore (s : State) (x : Batch) (g : Group) : Group :=
  if g.entry = 5 ∧ x.desc.isProbe then
    g.invs.foldl (fun h i => match s.invWalker i with
      | none => h
      | some w =>
        let q := s.rerankData w
        h.lput i.hit.recA (q.1.flatMap entryBytes ++ q.2.query)) g
  else g

/-- A launch carried out (R218, R224, R230, R232). -/
def State.launch (s : State) (d : Nat) (x : Batch) (m : Image) (place : Nat × Nat) (i : Invocation) (is : List Invocation) (taken : List Invocation) : State :=
  let mask : Mask := BitVec.ofNat 64 (2 ^ is.length - 1)
  let g0 : Group := { Group.blank i with
    age := (s.dist d).core.ages, img := m.addr, nreg := m.nreg, localK := m.localK, lsBase := place.2, split := m.split, codeLen := m.codeLen,
    parkTrap := m.parkTrap, nanTrap := m.nanTrap, pc := m.entryPc, active := mask, live := mask, launch := mask, invs := is, seed := s.freeCtr }
  let g1 := ((List.range is.length).zip is).foldl (fun h p => h.setVs p.1 0 (s.inputsOf x p.2)) (g0.setUs 0 (s.launchRecord d x i m mask))
  let t := ((s.takeInvs d taken).putGroup d place.1 (s.rerankStore x g1)).updCore d (fun c => { c with ages := c.ages + 1 })
  State.count { t with freeCtr := t.freeCtr + 1 } d 5 1

/-- The next launch, once its program is known: nothing while the split is another (R223) or room is missing (R224). -/
def State.tryLaunch (s : State) (d : Nat) (x : Batch) (m : Image) (i : Invocation) : State :=
  if m.split ≠ (s.dist d).core.split then s
  else
    let all := mates i (s.dist d).core.waiting
    let isRr := decide (i.entry = 5) && x.desc.isProbe
    let is := if isRr then s.rerankFit (m.localK * 1024) 0 all else all
    if is = [] then s.imageTrap d i (all.take 1)
    else
      match s.roomFor d m.nreg m.localK with
      | none => s
      | some p => s.launch d x m p i is (all.take is.length)

/-- `GROUP_LAUNCH` (R218, R224, R229). -/
def execGroupLaunch (d : Dist) (s : State) : Res :=
  .next (if !s.coreGoes d.val then s
    else match s.headOf d.val with
    | none | some (.restore _ _) => s
    | some (.launch i) =>
      match s.batch i.bid with
      | none => s.takeInvs d.val [i]
      | some x =>
        match (s.tenParity x.tenant).imageOf d.val x i with
        | (t, .lost a) => t.sceneLost i.bid (some a)
        | (t, .bad) => t.imageTrap d.val i (mates i (t.dist d.val).core.waiting)
        | (t, .ok m) => t.tryLaunch d.val x m i)

/-! ## Splits (R223) -/

/-- The split that the next restore or launch needs; none where its image fails. -/
def State.headSplit (s : State) (d : Nat) : Option Nat :=
  match s.headOf d with
  | none => none
  | some (.restore _ g) => some g.split
  | some (.launch i) =>
    match s.batch i.bid with
    | none => none
    | some x => match (s.imageOf d x i).2 with
      | .ok m => some m.split
      | .bad | .lost _ => none

/-- `SPLIT_CHANGE` (R223): once no group holds resources; the desk cache of the core empties. -/
def execSplitChange (d : Dist) (s : State) : Res :=
  .next (if !s.coreGoes d.val then s
    else match s.headSplit d.val with
    | none => s
    | some sp =>
      let c := (s.dist d.val).core
      if sp = c.split ∨ c.groups ≠ [] then s else s.updCore d.val (fun y => { y with split := sp, desk := [] }))

/-! ## Pre-emption (R267) -/

/-- The least set of `k` slots, in the order given, whose leaving gives room. -/
def pickSet (ok : List Nat → Bool) : Nat → List Nat → List Nat → Option (List Nat)
  | 0, _, acc => if ok acc then some acc else none
  | _ + 1, [], _ => none
  | k + 1, x :: rest, acc =>
    match pickSet ok k rest (x :: acc) with
    | some r => some r
    | none => pickSet ok (k + 1) rest acc

/-- The slots of running groups of classes 1 to 3, the lowest class first and within it the youngest. -/
def Core.lower (c : Core) : List Nat :=
  (sortBy (fun a b => decide (b.2.cls < a.2.cls) || (decide (a.2.cls = b.2.cls) && decide (b.2.age < a.2.age)))
    (c.groups.filter (fun p => decide (p.2.cls ≠ 0) && decide (p.2.parked = none) && !p.2.preWant))).map (·.1)

/-- The free slots for pre-emption, those already promised left out. -/
def Core.preSlots (c : Core) : Nat :=
  ((List.range 32).filter (fun i => (SMap.find c.parks i).isNone)).length - (c.groups.filter (fun p => p.2.preWant)).length

/-- Groups chosen for pre-emption. -/
def State.choosePre (s : State) (d : Nat) (ks : List Nat) : State :=
  s.updCore d (fun c => { c with groups := c.groups.map (fun p => if p.1 ∈ ks then (p.1, { p.2 with preWant := true }) else p) })

/-- The groups that make way for an Express launch: all lower-class ones for another split, else the fewest that give room. -/
def State.preemptFor (s : State) (d : Nat) (m : Image) : State :=
  let c := (s.dist d).core
  let l := c.lower
  if m.split ≠ c.split then (if l.length ≤ c.preSlots then s.choosePre d l else s)
  else
    let stay := c.groups.filter (fun p => !p.2.preWant)
    let ok (ks : List Nat) : Bool := (roomAmong (stay.filter (fun p => decide (p.1 ∉ ks))) c.split m.nreg m.localK).isSome
    match (List.range (min l.length c.preSlots + 1)).findSome? (fun k => pickSet ok k l []) with
    | none => s
    | some ks => s.choosePre d ks

/-- The Express invocation that waits first at a core, whether or not a restore comes before it (R267). -/
def State.expressWaiting (s : State) (d : Nat) : Option Invocation := (s.dist d).core.waiting.find? (fun i => decide (i.cls = 0))

/-- `PREEMPTION` (R267). -/
def execPreemption (d : Dist) (s : State) : Res :=
  .next (if !s.coreGoes d.val || !s.flag (Fld.dstCoreCtlPreempt d.val) || !s.flag (Fld.dstParkBaseEn d.val) then s
    else match s.expressWaiting d.val with
    | none => s
    | some i =>
      match s.batch i.bid with
      | none => s
      | some x =>
        match (s.imageOf d.val x i).2 with
        | .ok m => s.preemptFor d.val m
        | .bad | .lost _ => s)

/-! ## Parks (R263) -/

/-- A free park slot of the 32 from `lo`, if the park area is in use. -/
def State.parkSlot (s : State) (d lo : Nat) : Option Nat :=
  if s.flag (Fld.dstParkBaseEn d) then ((List.range 32).map (· + lo)).find? (fun i => (SMap.find (s.dist d).core.parks i).isNone) else none

/-- The scene address of a park slot of 512 KiB (R263). -/
def State.parkAddr (s : State) (d n : Nat) : Nat := s.rd (Fld.dstParkBaseBase d) * 65536 + n * 0x80000

/-- Bytes of a group's saved state: its thread registers, its local store, and 1 KiB for the rest (R263; DESIGN CHOICE, assumption log 81). -/
def Group.parkBytes (g : Group) : Nat := unitsOf g.nreg * 2048 + g.room + 1024

/-- A group moved into a park slot, its state written there; its resources are free. -/
def State.toSlot (s : State) (d k n : Nat) (g : Group) : State :=
  (((s.recordPut (streamSide d) (s.parkAddr d n) g.parkBytes).dropGroup d k).updCore d (fun c => { c with parks := SMap.put c.parks n g })).count d 0xB 1

/-- A trapped or faulted group parked, in a slot or in place, and its trap's record formed with the handle (R262, R263). -/
def State.settlePark (s : State) (d k : Nat) (g : Group) : State :=
  let h := { g with settled := true, preWant := false, trap := none, ir := none }
  let slot := s.parkSlot d 32
  let t := match g.trap with
    | none => s
    | some i => s.trapRecord d g i (slot.getD (0x40 + k))
  match slot with
  | some n => t.toSlot d k n h
  | none => (t.putGroup d k h).count d 0xB 1

/-- `GROUP_PARK` (R263): a group chosen for pre-emption, or stopped by a trap or fault, once its outstanding work has completed. -/
def execGroupPark (r : GRef) (s : State) : Res :=
  let d := r.dist.val
  let k := r.slot.val
  .next (if !s.coreOn d then s
    else match s.group d k with
    | none => s
    | some g =>
      if g.busy then s
      else if g.parked.isSome then (if g.settled || g.replay then s else s.settlePark d k g)
      else if g.preWant then
        match s.parkSlot d 0 with
        | some n => s.toSlot d k n { g with parked := some .pre, settled := true, preWant := false, ir := none }
        | none => s.putGroup d k { g with preWant := false }
      else s)

/-- `GROUP_RESTORE` (R268): the next restore, in its split and with room, its state read back from its slot; poisoned, the batch's scene data is
lost (R348; DEDUCED, assumption log 81). -/
def execGroupRestore (d : Dist) (s : State) : Res :=
  .next (if !s.coreGoes d.val then s
    else match s.headOf d.val with
    | none | some (.launch _) => s
    | some (.restore n g) =>
      if g.split ≠ (s.dist d.val).core.split then s
      else match s.roomFor d.val g.nreg g.localK with
      | none => s
      | some (k, a) =>
        (match s.recordGet (streamSide d.val) (s.parkAddr d.val n) g.parkBytes with
         | (t, true) => t.sceneLost g.bid none
         | (t, false) =>
           (t.updCore d.val (fun c => { c with parks := SMap.del c.parks n })).putGroup d.val k
             { g with parked := none, replay := false, settled := false, lsBase := a }))

/-! ## Replay and kill (R264 to R266) -/

/-- The parked group that a handle names (R263). -/
def State.handleGroup (s : State) (d h : Nat) : Option Group :=
  if h < 64 then SMap.find (s.dist d).core.parks h
  else match s.group d (h - 64) with
    | some g => if g.parked.isSome && g.settled then some g else none
    | none => none

/-- The parked group of a handle changed. -/
def State.updHandle (s : State) (d h : Nat) (g : Group) : State :=
  if h < 64 then s.updCore d (fun c => { c with parks := SMap.put c.parks h g }) else s.putGroup d (h - 64) g

/-- `TRAP_REPLAY` (R264): `DST_TRAP_CMD` with `ACTION` 1; only for a group parked by a trap. -/
def execTrapReplay (d : Dist) (h : BitVec 7) (s : State) : Res :=
  .next (s.guardWrite (pageReg .dst d.val 0x060) (fun t =>
    match t.handleGroup d.val h.toNat with
    | none => t
    | some g =>
      if g.parked = some .trap ∧ g.replay = false then (t.updHandle d.val h.toNat { g with replay := true }).trapsOver g.bid
      else t))

/-- `TRAP_KILL` (R265): `DST_TRAP_CMD` with `ACTION` 2; the batch stops and completes `KILLED`. -/
def execTrapKill (d : Dist) (h : BitVec 7) (s : State) : Res :=
  .next (s.guardWrite (pageReg .dst d.val 0x060) (fun t =>
    match t.handleGroup d.val h.toNat with
    | none => t
    | some g =>
      ((t.abandon g.bid).updBatch g.bid (fun y => { y with
        stop := true, parkAt := none, st := if y.st = .parked then (if y.admitOrd = 0 then .accepted else .admitted) else y.st })).fixStatus g.bid 0x41 0))

/-- `DST_PARK_BASE` changed: what its slots held is lost, though a kill still reaches it (R270). -/
def State.loseParks (s : State) (d : Nat) : State :=
  s.updCore d (fun c => { c with parks := c.parks.map (fun p => (p.1, { p.2 with parked := some .lost, replay := false })) })

end Sys2Proof.Machine
end

