-- ==== Sys2Proof/Machine/Refit.lean ====
section
/-! DEFINITION. The repair of a `REFIT` batch (R122 to R124): bounds taken from below, nodes requantised. The copies of what it has
written are invalidated at completion (R125). -/

namespace Sys2Proof.Machine

/-! ## Boxes -/

/-- A box in exact values: its lower and its upper faces by axis. -/
structure QBox where
  lo : List Q
  hi : List Q
  deriving DecidableEq, Repr

/-- A face by axis. -/
def QBox.loAt (b : QBox) (a : Nat) : Q := b.lo.getD a (Q.int 0)
def QBox.hiAt (b : QBox) (a : Nat) : Q := b.hi.getD a (Q.int 0)

/-- A box from its faces by axis. -/
def QBox.of (lo hi : Nat → Q) : QBox := { lo := (List.range 3).map lo, hi := (List.range 3).map hi }

/-- The union of two boxes, either of which may be missing. -/
def unionBox (a b : Option QBox) : Option QBox :=
  match a, b with
  | none, y => y
  | x, none => x
  | some x, some y => some (QBox.of (fun i => Q.min (x.loAt i) (y.loAt i)) (fun i => Q.max (x.hiAt i) (y.hiAt i)))

/-- A value rounded outward into FP32 (R123); an upper face beyond the largest finite value stays as it is. -/
def outLo (v : Q) : Q := if (f32 (rd32 v)).isFin then v32 (rd32 v) else v
def outHi (v : Q) : Q := if (f32 (ru32 v)).isFin then v32 (ru32 v) else v

/-- A box rounded outward. -/
def QBox.out (b : QBox) : QBox := QBox.of (fun a => outLo (b.loAt a)) (fun a => outHi (b.hiAt a))

/-- A child's decoded box, if it is not empty (R98). -/
def decodedBox (bs : List Byte) (c : Nat) : Option QBox :=
  if childBoxEmpty bs c then none
  else some (QBox.of (fun a => (childFace bs false c a).1) (fun a => (childFace bs false c a).2))

/-- The union of a node's decoded child boxes (R123). -/
def nodeBox (bs : List Byte) : Option QBox :=
  ((List.range (nodeChildren bs)).foldl (fun acc c =>
    if childEmpty bs c then acc else unionBox acc (decodedBox bs c)) none).map QBox.out

/-- The box of the present triangles of a block, and how many are malformed (R108, R123). -/
def blockBox (bs : List Byte) : Option QBox × Nat :=
  let vs := (List.range 4).filterMap (triVerts bs)
  let good := vs.filter (fun v => !vertsBad v)
  let pt (p : V3) : QBox := QBox.of (fun a => v32 (p.at a)) (fun a => v32 (p.at a))
  (good.foldl (fun acc v => unionBox acc (unionBox (some (pt v.1)) (unionBox (some (pt v.2.1)) (some (pt v.2.2))))) none,
    (vs.filter vertsBad).length)

/-- The `BOX` of a custom or neural leaf (R112). -/
def leafBox (bs : List Byte) : QBox := let f := boxFaces bs 0; QBox.of (fun a => v32 (f.1.at a)) (fun a => v32 (f.2.at a))

/-! ## Requantising (R124) -/

/-- The frame exponent for an extent: the smallest k of at least −126 with S × 2^k above it. -/
def frameExp (s : Nat) (ext : Q) : Int :=
  if ext.isZero then -126 else min 127 (max (-126) ((ext.div (Q.int (s : Nat))).log2 + 1))

/-- The codes of a child on an axis. -/
def quantCodes (s : Nat) (o : Q) (e : Int) (lo hi : Q) : Nat × Nat :=
  let l := ((lo.sub o).div (Q.pow2 e)).floor
  let h := -(((hi.sub o).div (Q.pow2 e)).neg.floor) - 1
  (min (s - 1) l.toNat, min (s - 1) (max l h).toNat)

/-- Every code of a node on an axis, by plane: a child without bounds gets the empty box, children past `NCHILD` keep theirs. -/
def newCode (bs : List Byte) (boxes : List (Option QBox)) (s : Nat) (o : Nat → Q) (e : Nat → Int) (plane c : Nat) : Nat :=
  if nodeChildren bs ≤ c then childCode bs plane c
  else
    match boxes.getD c none with
    | none => if plane < 3 then s - 1 else 0
    | some b =>
      let a := plane % 3
      let q := quantCodes s (o a) (e a) (b.loAt a) (b.hiAt a)
      if plane < 3 then q.1 else q.2

/-- A node requantised from its children's bounds: `ORIGIN`, `EXP` and `PLANES` change (R124). -/
def requantise (bs : List Byte) (boxes : List (Option QBox)) : List Byte :=
  let s := if nodeFine bs then 256 else 16
  let u := boxes.foldl unionBox none
  let org (a : Nat) : Word := match u with
    | none => 0
    | some b => rd32 (b.loAt a)
  let o (a : Nat) : Q := v32 (org a)
  let e (a : Nat) : Int := match u with
    | none => -126
    | some b => frameExp s ((b.hiAt a).sub (o a))
  let code := newCode bs boxes s o e
  let plane (p : Nat) : List Byte :=
    if nodeFine bs then (List.range 8).map (fun c => BitVec.ofNat 8 (code p c))
    else (List.range 4).map (fun i => BitVec.ofNat 8 (code p (2 * i) + 16 * code p (2 * i + 1)))
  let head := (List.range 3).flatMap (fun a => leBytes 4 (org a).toNat) ++ (List.range 3).map (fun a => BitVec.ofInt 8 (e a))
    ++ (bs.drop 0xF).take 1
  bytesPut bs 0 (head ++ (List.range 6).flatMap plane)

/-- The exact-box table rewritten (R124), the reserved bytes of a rewritten entry as zero (R7): an instance child keeps its entry, and so
does a child without bounds. -/
def newTable (bs tab : List Byte) (boxes : List (Option QBox)) : List Byte :=
  ((exactChildren bs).zipIdx).foldl (fun t r =>
    match (if childKind bs r.1 = 5 then none else boxes.getD r.1 none) with
    | none => t
    | some b => bytesPut t (32 * r.2) ((List.range 3).flatMap (fun a => leBytes 4 (rd32 (b.loAt a)).toNat)
        ++ (List.range 3).flatMap (fun a => leBytes 4 (ru32 (b.hiAt a)).toNat) ++ zeroBytes 8)) tab

/-! ## The repair (R122, R123) -/

/-- What part of a repair has come to: the state, the read that stopped it, and the bounds found. -/
structure Repair where
  st   : State
  stop : Option WRead
  box  : Option QBox

/-- A read of scene memory for a repair, with its checks (R83, R87, R435). -/
def State.refitRead (s : State) (b : Bid) (d a n : Nat) : State × WRead :=
  let rs := s.regionsOf b
  match s.sceneCheck d rs (fun _ => true) a n with
  | (t, some .denied) => (t, .denied)
  | (t, some (.absent g)) => (t, .absent g)
  | (t, some (.lost x)) => (t, .lost x)
  | (t, some (.bytes _)) | (t, none) =>
    if b.held && !regionsAllow rs Region.mirror a n then (t, .lost a)
    else
      let r := t.sceneRead (streamMisc d) a n
      if r.2.2 then (r.1, .lost a) else (r.1, .ok r.2.1)

/-- A read that did not deliver: a region violation leaves no bounds; an absent granule or lost data stops the repair. -/
def State.repairFail (s : State) (b : Bid) (r : WRead) : Repair :=
  match r with
  | .denied => { st := s.regViol b, stop := none, box := none }
  | .ok _ | .again => { st := s, stop := none, box := none }
  | .absent _ | .lost _ => { st := s, stop := some r, box := none }

/-- The union of the bounds of `left` leaf records of kind 4, 6 or 7 from an address (R123). -/
def State.leafBounds (s : State) (b : Bid) (d kind a : Nat) (acc : Option QBox) : Nat → Repair
  | 0 => { st := s, stop := none, box := acc }
  | n + 1 =>
    let size := kindUnits kind * 64
    match s.refitRead b d a size with
    | (t, .ok bs) =>
      if kind = 4 then
        (let r := blockBox bs; (t.fmtViols b r.2).leafBounds b d kind (a + size) (unionBox acc r.1) n)
      else if leafBad (decide (kind = 7)) bs then (t.fmtViol b).leafBounds b d kind (a + size) acc n
      else t.leafBounds b d kind (a + size) (unionBox acc (some (leafBox bs))) n
    | (t, .denied) => (t.regViol b).leafBounds b d kind (a + size) acc n
    | (t, r) => t.repairFail b r

/-- A repaired node written back (R124). Where its region does not allow the write, which R83 checks and for which no rule states an
outcome, a region violation is counted and the node's old decoded box passes upward (DESIGN CHOICE, assumption log 95). -/
def State.writeNode (s : State) (b : Bid) (d a : Nat) (old tab : List Byte) (boxes : List (Option QBox)) : Repair :=
  let new := requantise old boxes
  let n := if nodeFine old then 0x40 else 0x28
  let ta := a / 65536 * 65536 + 64 * exactUnit old
  if !regionsAllow (s.regionsOf b) Region.write a 64 then { st := s.regViol b, stop := none, box := nodeBox old }
  else
    let s1 := s.sceneWrite (streamMisc d) a (new.take n)
    let s2 := if tab = [] then s1 else s1.sceneWrite (streamMisc d) ta (newTable old tab boxes)
    { st := s2.updBatch b (fun x => { x with wrote := addNew x.wrote (a / 65536) }), stop := none, box := nodeBox new }

/-- A node as the repair reads it: its bytes with the treelet's length, or why not. -/
def State.repairNode (s : State) (b : Bid) (d a : Nat) : State × WRead × Nat :=
  match s.refitRead b d (a / 65536 * 65536) 64 with
  | (s1, .ok hdr) =>
    match treeletLen hdr with
    | none => (s1, .ok [], 0)
    | some len =>
      match s1.refitRead b d a 64 with
      | (s2, .ok b0) =>
        if nodeFine b0 && decide (a % 65536 / 64 + 1 < len) then
          (match s2.refitRead b d (a + 64) 64 with
           | (s3, .ok b1) => (s3, .ok (b0 ++ b1), len)
           | (s3, r) => (s3, r, len))
        else (s2, .ok b0, len)
      | (s2, r) => (s2, r, len)
  | (s1, r) => (s1, r, 0)

/-- The table of a node with `EXACT`, read to be rewritten. -/
def State.repairTable (s : State) (b : Bid) (d a : Nat) (bs : List Byte) : State × WRead :=
  if nodeExact bs && decide (exactUnits bs ≠ 0) then s.refitRead b d (a / 65536 * 65536 + 64 * exactUnit bs) (64 * exactUnits bs)
  else (s, .ok [])

/-- A subtree repaired in depth-first post-order (R122): children before their node. `fuel` bounds the depth. -/
def State.repair (s : State) (b : Bid) (d a : Nat) (cls : Option (BitVec 2)) : (fuel : Nat) → Repair
  | 0 => { st := s, stop := none, box := none }
  | k + 1 =>
    match s.repairNode b d a with
    | (s1, .ok bs, len) =>
      if bs = [] || rayNodeBad bs len (a % 65536 / 64) cls then { st := s1.fmtViol b, stop := none, box := none }
      else
        let base := a / 65536 * 65536
        let one (t : State) (c : Nat) : Repair :=
          let ca := base + 64 * childUnit bs c
          if childEmpty bs c then { st := t, stop := none, box := none }
          else if childBad bs len c then { st := t.fmtViols b (childViols bs len c), stop := none, box := none }
          else
            match childKind bs c with
            | 1 => t.repair b d ca (some 1) k
            | 2 => t.repair b d ca (some 2) k
            | 3 =>
              (match t.refitRead b d ca 64 with
               | (u, .ok l) => u.repair b d (linkTarget l) (some (BitVec.ofNat 2 (linkClass l))) k
               | (u, r) => u.repairFail b r)
            | 5 => { st := t, stop := none, box := (decodedBox bs c).map QBox.out }
            | kind =>
              let g := childGood bs len c
              (t.fmtViols b (childViols bs len c)).leafBounds b d kind (ca + 64 * kindUnits kind * g.1) none g.2
        let all := (List.range (nodeChildren bs)).foldl (fun (acc : Repair × List (Option QBox)) c =>
          match acc.1.stop with
          | some _ => acc
          | none => let r := one acc.1.st c; (r, acc.2 ++ [r.box])) ({ st := s1, stop := none, box := none }, [])
        match all.1.stop with
        | some _ => all.1
        | none =>
          match all.1.st.repairTable b d a bs with
          | (t, .ok tab) => t.writeNode b d a bs tab all.2
          | (t, r) => t.repairFail b r
    | (s1, r, _) => s1.repairFail b r

/-! ## The batch -/

/-- The district whose stream a repair uses: the lowest open one. -/
def State.refitDist (s : State) : Nat := ((allDists.filter s.isOpen).head?).getD 0

/-- A repair carried out. One that stops for an absent granule or lost data is made again whole after the batch resumes. -/
def State.repairBatch (s : State) (x : Batch) : State :=
  let d := s.refitDist
  let r := s.repair x.bid d (x.desc.root / 64 * 64) none (s.installed / 64 + 1)
  let keep (t : State) : State := t.updBatch x.bid (fun y => { y with fmtv := x.fmtv, regv := x.regv })
  match r.stop with
  | some (.absent g) => (keep r.st).absentFault x.bid 0x10 g noWalker d
  | some (.lost a) => (keep r.st).sceneLost x.bid (some a)
  | some (.ok _) | some .denied | some .again | none =>
    r.st.updBatch x.bid (fun y => { y with refit := false })

/-- `REFIT_REPAIR` (R122): once every record of the batch has been applied or skipped. -/
def execRefitRepair (b : Bid) (s : State) : Res :=
  .next (match s.batch b with
    | none => s
    | some x =>
      if !s.active || !x.refit || x.stop || x.status.isSome || decide (x.st ≠ .admitted) || decide (x.doneCount ≠ x.desc.walkers)
          || allDists.all (fun d => !s.isOpen d) then s
      else s.repairBatch x)

end Sys2Proof.Machine
end

