-- ==== Sys2Proof/Machine/Registers.lean ====
section
/-! DEFINITION. The host's accesses to the register window (R8, R9, R20, R445, R460 to R501, R506, R507): reads with the values
the block computes, read-clears, plain and masked writes, locks, counters and snapshots, injection arms, and the windows onto the
tenant table, the treelet map and the tally. -/

namespace Sys2Proof.Machine

/-! ## What a register reads as -/

/-- A value put into bits `hi` to `lo` of a word of zeros. -/
def bitsAt (hi lo v : Nat) : Word := putField 0 hi lo v

/-- 48-bit two's complement of a balance (R382, R485). -/
def word48 (v : Int) : Nat := (BitVec.ofInt 48 v).toNat

/-- `BLK_CONFIG`: the straps (R442). -/
def State.configWord (s : State) : Word :=
  bitsAt 4 4 (b2n s.pins.straps.twin) ||| bitsAt 3 3 (b2n s.pins.straps.hlGen) ||| bitsAt 1 0 s.pins.straps.ncw.toNat

/-- `DST_STATE` of a district (R193). -/
def State.dstStateWord (s : State) (d : Nat) : Word :=
  let x := s.dist d
  let spilled := (s.walkers.filter (fun w => decide (w.dist = d) && (match w.st with
    | .spilled | .parked _ => true
    | .entering | .queued | .inProgram | .inSquare _ | .inTransit | .done => false))).length
  bitsAt 31 16 (min 0xFFFF spilled) ||| bitsAt 9 9 (b2n x.drained) ||| bitsAt 8 8 (b2n (decide (x.reasons ≠ 0))) ||| bitsAt 5 0 x.reasons.toNat

/-- `DST_CORE_STATUS` of a district (R270): a group that a lost slot held no longer counts. -/
def State.coreStatusWord (s : State) (d : Nat) : Word :=
  let c := (s.dist d).core
  let trapped (g : Group) : Bool := decide (g.parked = some .trap) || decide (g.parked = some .fault)
  let inPlace := (c.groups.filter (fun p => p.2.settled && trapped p.2)).length
  bitsAt 25 24 c.split ||| bitsAt 22 16 ((c.parks.filter (fun p => trapped p.2)).length + inPlace)
    ||| bitsAt 13 8 (c.parks.filter (fun p => decide (p.2.parked = some .pre))).length ||| bitsAt 5 0 c.groups.length

/-- Mirror entries in use (R418). -/
def State.mirrorUsed (s : State) : Nat := (s.twin.mirrors.map (·.len)).foldl (· + ·) 0

/-- `MAP_HASH_OUT` (R490). -/
def State.hashOut (s : State) : Word :=
  let tid := s.rd Fld.mapHashInTid
  bitsAt 30 24 ((s.lotOwner (tidLot tid)).getD 0) ||| bitsAt 23 14 (tidLot tid) ||| bitsAt 12 0 (tidSet tid)

/-- The counter that `CTR_SEL` names, if it names one (R495). -/
def State.ctrKey (s : State) : Option Nat :=
  let u := s.rd Fld.ctrSelUnit
  let i := s.rd Fld.ctrSelIndex
  if i < unitCounters u then some (u * 256 + i) else none

/-- Half of the selected counter in a table of counters. -/
def State.ctrHalf (s : State) (m : SMap (BitVec 64)) (hi : Bool) : Word :=
  match s.ctrKey with
  | none => 0
  | some k => if hi then (SMap.get 0 m k).extractLsb' 32 32 else (SMap.get 0 m k).setWidth 32

/-- `CTR_HOLD_SEQ`: the captures of the selected unit's page (R495, R496). -/
def State.ctrSeq (s : State) : Word :=
  match s.ctrKey with
  | none => 0
  | some k => bitsAt 15 0 (field (s.reg (unitPage (k / 256) * 0x1000 + 0x020)) 31 16)

/-- The 32-bit word `n` of a tally entry (R486). -/
def State.tallyWord (s : State) (i n : Nat) : Word := bytesWord (SMap.get (zeroBytes 32) s.tally i) (4 * n)

/-- Registers of block pages whose read value the block forms when they are read. -/
def State.blockValue (s : State) (k : PageKind) (n o : Nat) : Word :=
  let stored := s.reg (pageReg k n o)
  match k with
  | .blk => if o = 0x044 then s.configWord else stored
  | .twn => if o = 0x05C then stored ||| bitsAt 30 16 s.mirrorUsed ||| bitsAt 8 8 s.side else stored
  | .ch =>
    if o = 0x05C then BitVec.ofNat 32 (word48 s.gate.capBal.bal)
    else if o = 0x060 then bitsAt 15 0 (word48 s.gate.capBal.bal / 2 ^ 32)
    else if o = 0x064 then BitVec.ofNat 32 (word48 s.gate.capBal.cmt)
    else if o = 0x068 then bitsAt 15 0 (word48 s.gate.capBal.cmt / 2 ^ 32)
    else if o = 0x084 then bitsAt 26 24 s.house.top.length ||| bitsAt 19 0 s.heldWalkers.length
    else stored
  | .tly =>
    if o = 0x040 then stored ||| bitsAt 14 0 s.tallyUsed
    else if 0x100 ≤ o ∧ o < 0x120 then s.tallyWord (s.rd Fld.tlyIndexIndex) ((o - 0x100) / 4)
    else stored
  | .ten => if 0x100 ≤ o ∧ o < 0x180 then s.tenWord (s.rd Fld.tenIndexIndex) ((o - 0x100) / 4) else stored
  | .map =>
    if o = 0x048 then s.hashOut
    else if 0x100 ≤ o ∧ o < 0x110 then s.mapWord (s.rd Fld.mapIndexIndex) ((o - 0x100) / 4)
    else stored
  | .stk => if o = 0x040 then stored ||| bitsAt 18 18 (b2n (s.scDirty n)) else stored
  | .ctr =>
    if o = 0x048 then s.ctrHalf s.live false
    else if o = 0x04C then s.ctrHalf s.live true
    else if o = 0x050 then s.ctrHalf s.hold false
    else if o = 0x054 then s.ctrHalf s.hold true
    else if o = 0x058 then s.ctrSeq
    else stored
  | .que =>
    if o = 0x064 then stored ||| bitsAt 2 0 (s.queState n)
    else if o = 0x084 then bitsAt 16 0 (s.unsealed n).length
    else stored
  | .lnk | .pwr | .err | .dst => stored

/-- Registers of a district page. During a district reset they read as their reset values (R20); `PG_CRCNOW`, whose reset column gives none,
reads as the running CRC of the configuration that the reset keeps (DESIGN CHOICE, assumption log 104). -/
def State.dstValue (s : State) (d o : Nat) : Word :=
  let stored := s.reg (pageReg .dst d o)
  let reset := (regInfo .dst d o).reset
  if o = 0x018 then s.crcNow d
  else if o = 0x004 then (if (s.dist d).inReset then reset else stored) &&& 0x1
  else if (s.dist d).inReset then reset
  else if o = 0x044 then s.dstStateWord d
  else if o = 0x050 then stored ||| bitsAt 28 16 (s.heapUsed d)
  else if o = 0x058 then s.coreStatusWord d
  else stored

/-- What a read of a window offset returns (R9, R20, R460, R480, R481). Offsets that hold no register read zero, and so do trigger
and write-only bits, which are never stored. -/
def State.readValue (s : State) (off : Nat) : Word :=
  match pageOf (offPage off) with
  | none => 0
  | some (.dst, d) => s.dstValue d (off % 0x1000)
  | some (k, n) => if off % 0x1000 = 0x004 then s.reg off &&& 0x2 else s.blockValue k n (off % 0x1000)

/-! ## Reads -/

/-- A malformed access answered: a read returns all ones (R445). The `HL_PROTOCOL` arm acts on it, too (R510). -/
def State.malformed (s0 : State) (write : Bool) : State :=
  let s := if s0.armed Fld.errInjectHlProtocol then s0.disarm Fld.errInjectHlProtocol else s0
  if write then s.protocolError else State.protocolError { s with gate := { s.gate with readData := some 0xFFFFFFFF } }

/-- Whether an access to a page is held until Ready (R411). -/
def State.readHeld (s : State) (pg : Nat) : Bool :=
  decide (s.phase = .up) && decide (3 ≤ s.rd Fld.blkRungCurrent) && decide (pg ≠ 0) && decide (pg ≠ 7)

/-- A host read of a window offset, where it is served, with the `HL_PROTOCOL` arm (R510). -/
def State.guardRead (s : State) (off : Nat) (f : State → State) : State :=
  if s.readHeld (offPage off) then s.askWake off
  else if s.armed Fld.errInjectHlProtocol then s.malformed false
  else f s

/-- A register's parity checked as the host reads it (R472). -/
def State.readParity (s : State) (off : Nat) : State := if off ∈ s.parBad then s.parityCheck (offPage off) else s

/-- The value of a read delivered to the host. -/
def State.answerRead (s : State) (v : Word) : State := { s with gate := { s.gate with readData := some v } }

/-- `REG_ACCESS_MALFORMED` (R445): an access that is not 4 bytes long and aligned, or lies beyond the window. A well-formed access
is none, and changes nothing here. -/
def execRegAccessMalformed (off : BitVec 32) (len : Nat) (write : Bool) (s : State) : Res :=
  .next (if len = 4 ∧ off.toNat % 4 = 0 ∧ off.toNat < 0x100000 then s
    else if s.readHeld (offPage off.toNat) then s.askWake off.toNat
    else s.malformed write)

/-- Window data registers: an access reaches a table entry or a counter (R481). -/
def windowData (off : Nat) : Bool :=
  let o := off % 0x1000
  (decide (offPage off = 5) && decide (0x100 ≤ o ∧ o < 0x180)) || (decide (offPage off = 6) && decide (0x100 ≤ o ∧ o < 0x110))

/-- A read of a tenant or map word: parity of the page's registers (R472) and of the word (R489, R491); a halted page discards the access, whose answer the spec does
not state (R473; assumption log 40); a district under reset makes it wait. -/
def State.tableRead (s0 : State) (off : Nat) : State :=
  let s := s0.parityCheck (offPage off)
  let n := (off % 0x1000 - 0x100) / 4
  if offPage off = 5 then
    if s.halted .ten then State.answerRead { s with freeCtr := s.freeCtr + 1 } (Config.freeWord s.freeCtr 0)
    else
      let t := s.rd Fld.tenIndexIndex
      ((if t * 32 + n ∈ s.tenBad then s.tenReport t else s)).answerRead (s.readValue off)
  else
    let e := s.rd Fld.mapIndexIndex
    if s.halted .map then State.answerRead { s with freeCtr := s.freeCtr + 1 } (Config.freeWord s.freeCtr 0)
    else if (s.dist (e / 512)).inReset then s
    else ((if e * 4 + n ∈ s.mapBad then s.mapReport e else s)).answerRead (s.readValue off)

/-- Registers whose reads have rows of their own: `CH_BAL_LO` (R485) and the tally window (R486). -/
def ownRead (off : Nat) : Bool := decide (off = 0x0305C) || (decide (offPage off = 4) && decide (0x100 ≤ off % 0x1000 ∧ off % 0x1000 < 0x120))

/-- `REGISTER_READ` (R20, R472): a read of a register without read-clearing bits. -/
def execRegisterRead (off : BitVec 20) (s : State) : Res :=
  let o := off.toNat
  .next (if o % 4 ≠ 0 then s.malformed false
    else if (regAt o).rc ≠ 0 ∨ ownRead o then s
    else s.guardRead o (fun t =>
      if windowData o then t.tableRead o
      else
        let u := t.readParity o
        u.answerRead (t.readValue o)))

/-- `RC_READ` (R466): the bits read as 1 clear once the response is delivered. A district page under reset reads its reset values
(R20). -/
def execRcRead (off : BitVec 20) (delivered : Bool) (s : State) : Res :=
  let o := off.toNat
  .next (if o % 4 ≠ 0 then s.malformed false
    else if (regAt o).rc = 0 then s
    else s.guardRead o (fun t =>
      let u := t.readParity o
      let v := u.readValue o
      let hidden := match pageOf (offPage o) with
        | some (.dst, d) => (u.dist d).inReset
        | _ => false
      if !delivered then u
      else if hidden then u.answerRead v
      else (u.setReg o (u.reg o &&& ~~~((regAt o).rc &&& v))).answerRead v))

/-- `BALANCE_CAPTURE` (R383, R472, R485): reading `CH_BAL_LO` captures the selected account whole. -/
def execBalanceCapture (s : State) : Res :=
  .next (s.guardRead 0x0305C (fun t0 =>
    let t := t0.parityCheck 3
    let kind := t.flag Fld.chBalSelKind
    let a := t.account kind (if kind then t.rd Fld.chBalSelIndex % 4 else t.rd Fld.chBalSelIndex)
    State.answerRead { t with gate := { t.gate with capBal := a } } (BitVec.ofInt 32 a.bal)))

/-! ## Plain writes -/

/-- Page offsets whose writes have rows of their own, by page kind. -/
def PageKind.ownWrites : PageKind → List Nat
  | .blk => [0x048, 0x050, 0x054, 0x060, 0x070]
  | .lnk => [0x050, 0x06C]
  | .twn => [0x040]
  | .ch => [0x054]
  | .ten => (List.range 32).map (fun i => 0x100 + 4 * i)
  | .map => [0x044, 0x100, 0x104, 0x108, 0x10C]
  | .ctr => [0x040, 0x048, 0x04C]
  | .dst => [0x040, 0x048, 0x060, 0x068]
  | .que => [0x048, 0x04C, 0x060, 0x064, 0x070]
  | .tly | .pwr | .stk | .err => []

/-- Whether a write to a window offset has a row of its own. -/
def ownWrite (off : Nat) : Bool :=
  match pageOf (offPage off) with
  | none => false
  | some (k, _) => decide (off % 0x1000 ∈ [0x004, 0x010, 0x01C, 0x020]) || decide (off % 0x1000 ∈ k.ownWrites)

/-- Whether a word written to a window offset is a command with a row of its own. `CH_GRANT_CMD` without `GO`, `BLK_RST_CMD` with a `SCOPE` that
starts nothing and `BLK_MOP_CMD` with an `OP` that starts nothing only store their RW fields (R9, R367, R383, R452). -/
def ownCommand (off : Nat) (v : Word) : Bool :=
  ownWrite off && (if off = 0x03054 then v.getLsbD 31
    else if off = 0x00054 then decide (1 ≤ field v 10 8 ∧ field v 10 8 ≤ 4) && !(decide (field v 10 8 = 2) && decide (5 < field v 6 0))
    else if off = 0x00070 then decide (1 ≤ field v 2 0 ∧ field v 2 0 ≤ 4)
    else true)

/-- A mask that the spec leaves undefined. -/
def State.freeMask (s : State) (i : Nat) : Mask :=
  (Config.freeWord s.freeCtr (2 * i)).setWidth 64 ||| ((Config.freeWord s.freeCtr (2 * i + 1)).setWidth 64 <<< 32)

/-- `CH_LEDGER_BASE` changed: the run ledger's masks are lost (R465; what they then read as: assumption log 41). -/
def State.loseLedger (s : State) : State :=
  { s with
    freeCtr := s.freeCtr + 1
    house := { s.house with ledger := (s.house.ledger.zipIdx).map (fun p =>
      { p.1 with done := p.1.dealt &&& s.freeMask (2 * p.2), hit := p.1.dealt &&& s.freeMask (2 * p.2 + 1) }) } }

/-- `CH_PACK_BASE` changed: staged output is lost (R310, R465; what is then written: assumption log 41). -/
def State.losePack (s : State) : State :=
  { s with
    freeCtr := s.freeCtr + 1
    house := { s.house with ledger := (s.house.ledger.zipIdx).map (fun p =>
      { p.1 with pack := p.1.pack.map (fun e => (e.1, s.freeBytes (p.2 * 65536 + e.1 * 1024) e.2.length)) }) } }

/-- The heaps of a pool of `room` chunks, laid one after another in it: one that does not lie in it whole loses its chunks, and what it
holds is undefined (R210; the places: DESIGN CHOICE, assumption log 41). -/
def cutHeaps (ctr room : Nat) : Nat → List Heap → List Heap
  | _, [] => []
  | at', h :: rest =>
    (if at' + h.chunks ≤ room then h
     else { h with chunks := 0, ents := h.ents.zipIdx.map (fun e =>
       (Config.freeWord ctr (at' * 4096 + 2 * e.2), Config.freeWord ctr (at' * 4096 + 2 * e.2 + 1), e.1.2.2)) })
    :: cutHeaps ctr room (at' + h.chunks) rest

/-- `DST_HEAP_CTL.SLOTS` changed (R210, R465): the chunks of the removed slots are gone. -/
def State.loseHeaps (s : State) (d : Nat) : State :=
  State.updDist { s with freeCtr := s.freeCtr + 1 } d (fun x => { x with heaps := cutHeaps s.freeCtr (s.heapPool d) 0 x.heaps })

/-- The tag of the root that a register holds part of (R369), if it does. -/
def rootOf (off : Nat) : Option Nat :=
  match pageOf (offPage off) with
  | some (.lnk, _) => if off % 0x1000 = 0x054 ∨ off % 0x1000 = 0x058 then some (rootTag .gate) else none
  | some (.que, q) => if off % 0x1000 = 0x068 ∨ off % 0x1000 = 0x06C then some q else none
  | _ => none

/-- A write to a root register empties the entries of the translation cache that the root found (R375). -/
def State.dropRoot (s : State) (off : Nat) : State :=
  match rootOf off with
  | some r => { s with xc := s.xc.filter (fun e => decide (e.root ≠ r)) }
  | none => s

/-- What a write to a register that held `was` starts or loses (R168, R184, R193, R210, R270, R310, R373, R375, R389, R465, R473). -/
def State.afterWrite (s0 : State) (off : Nat) (was : Word) : State :=
  let s := s0.dropRoot off
  let now := s.reg off
  let changed := decide (now ≠ was)
  let enabled (t : State) : State := if now.getLsbD 0 && !was.getLsbD 0 then t.wantRound else t
  if off = 0x03040 then s.topSweep
  else if off = 0x03048 then enabled (if changed && decide (s.house.ledger ≠ []) then s.loseLedger else s)
  else if off = 0x0304C then enabled (if changed && decide (s.house.ledger ≠ []) then s.losePack else s)
  else if off = 0x0105C ∧ changed then { s with stamps := [] }
  else if offPage off = 1 then s.shootTick
  else
    match pageOf (offPage off) with
    | some (.dst, d) =>
      if !changed then s
      else if off % 0x1000 = 0x05C then s.loseParks d
      else if off % 0x1000 = 0x050 then s.loseHeaps d
      else s
    | _ => s

/-- Whether a write's value is not stored: `LNK_FRING_CTL.DEPTH` of 1 or above 65,536 (R333). -/
def notStored (off : Nat) (v : Word) : Bool :=
  decide (off = 0x01048) && (decide (field v 16 0 = 1) || decide (65536 < field v 16 0))

/-- The effect of a plain write (R463 to R465). -/
def State.plainWrite (s : State) (off : Nat) (v : Word) : State :=
  if notStored off v then s
  else
    let t := s.hostSet off v
    t.afterWrite off (s.reg off)

/-- `REGISTER_WRITE` (R463): a word that is no command with a row of its own; a write that is not aligned is malformed (R445). -/
def execRegisterWrite (off : BitVec 20) (v : Word) (s : State) : Res :=
  let o := off.toNat
  .next (if o % 4 ≠ 0 then s.malformed true
    else if ownCommand o v then s
    else s.guardWrite o (fun t => t.plainWrite o v))

/-! ## The page header -/

/-- A masked write of `PG_CTL` (R461, R462), in ascending bit order; with bits [31:16] all zero it changes nothing (R9). -/
def State.pgCtl (s : State) (pg : Nat) (v : Word) : State :=
  let on (i : Nat) : Bool := v.getLsbD (16 + i)
  if field v 31 16 = 0 then s
  else match pageOf pg with
  | none => s
  | some (.dst, d) =>
    let t := if on 0 then
        (let was := s.flag (Fld.crcCheck pg)
         let u := s.wr (Fld.crcCheck pg) (b2n (v.getLsbD 0))
         if v.getLsbD 0 && !was then u.crcCheck d else u)
      else s
    if on 2 && v.getLsbD 2 then (t.setReg (pg * 0x1000 + 0x014) (t.crcNow d)).crcCheck d else t
  | some _ => (if on 1 then s.wr (Fld.parCheck pg) (b2n (v.getLsbD 1)) else s).parityWrite (pg * 0x1000 + 0x004)

/-- `PG_CTL_WRITE` (R462). -/
def execPgCtlWrite (pg : BitVec 8) (v : Word) (s : State) : Res :=
  .next (s.guardWrite (pg.toNat * 0x1000 + 0x004) (fun t => t.pgCtl pg.toNat v))

/-- `CRC_LOAD` (R461): `PG_CTL` of a district page written with 0x0004_0004. -/
def execCrcLoad (d : Dist) (s : State) : Res :=
  .next (s.guardWrite (pageReg .dst d.val 0x004) (fun t => t.pgCtl (0x40 + d.val) 0x00040004))

/-- `PG_LOCK_WRITE` (R467, R468): the first write after cold reset is stored; a later one is discarded as a lock-write. -/
def execPgLockWrite (pg : BitVec 8) (v : Word) (s : State) : Res :=
  let off := pg.toNat * 0x1000 + 0x01C
  .next (s.guardWrite off (fun t =>
    match pageOf pg.toNat with
    | none => t
    | some (k, _) =>
      if pg.toNat ∈ t.locked then t.lockDiscard off
      else
        let u := State.setReg { t with locked := insertBy (fun a b => decide (a < b)) pg.toNat t.locked } off v
        if k.district then u else u.parityWrite off))

/-! ## Counters and captures (R474 to R479) -/

/-- The counters of a unit captured (R476). -/
def State.captureUnit (s : State) (u : Nat) : State :=
  { s with hold := (List.range (unitCounters u)).foldl (fun m i => SMap.set 0 m (u * 256 + i) (SMap.get 0 s.live (u * 256 + i))) s.hold }

/-- A page's capture: its unit's counters, and its `SEQ` (R477, R496). -/
def State.capturePage (s : State) (pg : Nat) : State :=
  let off := pg * 0x1000 + 0x020
  let t := if pageUnit pg = unitNone then s else s.captureUnit (pageUnit pg)
  t.wr ⟨off, 31, 16⟩ (field (t.reg off) 31 16 + 1)

/-- `PG_SNAP` (R477). -/
def execPgSnap (pg : BitVec 8) (s : State) : Res :=
  .next (s.guardWrite (pg.toNat * 0x1000 + 0x020) (fun t =>
    if (pageOf pg.toNat).isSome then t.capturePage pg.toNat else t))

/-- Every page of the register ring, block pages first (R478). -/
def ringPages : List Nat := (List.range 256).filter (fun pg => (pageOf pg).isSome)

/-- `CTR_SNAP` (R478): the wave through every page; discarded while the page is halted (R473). -/
def execCtrSnap (s : State) : Res :=
  .next (s.guardWrite 0x0F040 (fun t =>
    if t.halted .ctr then t.parityCheck 15
    else
      let u := ringPages.foldl State.capturePage t
      (u.wr Fld.ctrSnapSeq (u.rd Fld.ctrSnapSeq + 1)).status 15 0))

/-- `COUNTER_WRITE` (R472, R474): one half of the live counter that `CTR_SEL` names. -/
def execCounterWrite (hi : Bool) (v : Word) (s : State) : Res :=
  .next (s.guardWrite (if hi then 0x0F04C else 0x0F048) (fun t0 =>
    let t := t0.parityCheck 15
    match t.ctrKey with
    | none => t
    | some k =>
      let old := SMap.get 0 t.live k
      let new : BitVec 64 := if hi then v.setWidth 64 <<< 32 ||| (old &&& 0xFFFFFFFF) else (old &&& 0xFFFFFFFF00000000) ||| v.setWidth 64
      { t with live := SMap.set 0 t.live k new }))

/-- `INJECT_ARM` (R506, R507): a `CFG` arm that was ready acts on this write before the new value is applied. -/
def execInjectArm (pg : BitVec 8) (v : Word) (s : State) : Res :=
  let off := pg.toNat * 0x1000 + 0x010
  .next (s.guardWrite off (fun t =>
    match pageOf pg.toNat with
    | none => t
    | some (k, _) => (if k.district then t else t.parityWrite off).setReg off (v &&& k.armBits)))

/-! ## Windows onto tables (R486 to R491) -/

/-- A word's parity after a window write: good, unless the page's `TBL` arm inverts it (R510). -/
def parityAfter (bad : List Nat) (k : Nat) (arm : Bool) : List Nat :=
  let l := bad.filter (fun x => decide (x ≠ k))
  if arm then insertBy (fun a b => decide (a < b)) k l else l

/-- `MAP_DATA_WRITE` (R491): discarded on a halted page (R473); a district under reset makes it wait. -/
def execMapDataWrite (n : Fin 4) (v : Word) (s : State) : Res :=
  .next (s.guardWrite (0x06100 + 4 * n.val) (fun t0 =>
    let t := t0.parityCheck 6
    let e := t.rd Fld.mapIndexIndex
    if t.halted .map then t
    else if (t.dist (e / 512)).inReset then t
    else
      let arm := t.armed Fld.mapInjectTbl
      let u := if arm then t.disarm Fld.mapInjectTbl else t
      State.bumpEpoch { u with map := SMap.set 0 u.map (e * 4 + n.val) v, mapBad := parityAfter u.mapBad (e * 4 + n.val) arm }))

/-- `MAP_HASH` (R490): `MAP_HASH_IN` written, and `MAP_HASH_OUT` read. -/
def execMapHash (v : Word) (s : State) : Res :=
  .next (s.guardWrite 0x06044 (fun t =>
    let u := t.hostSet 0x06044 v
    u.answerRead u.hashOut))

/-- `TEN_DATA_WRITE` (R489): discarded on a halted page (R473). -/
def execTenDataWrite (n : Fin 32) (v : Word) (s : State) : Res :=
  .next (s.guardWrite (0x05100 + 4 * n.val) (fun t0 =>
    let t := t0.parityCheck 5
    let i := t.rd Fld.tenIndexIndex
    if t.halted .ten then t
    else
      let arm := t.armed Fld.tenInjectTbl
      let u := if arm then t.disarm Fld.tenInjectTbl else t
      { u with ten := tenSet u.ten i n.val v, tenBad := parityAfter u.tenBad (i * 32 + n.val) arm }))

/-- `TALLY_WINDOW_READ` (R472, R486): a word with an uncorrectable or nibble error reads as all ones. -/
def execTallyWindowRead (n : Fin 8) (s : State) : Res :=
  .next (s.guardRead (0x04100 + 4 * n.val) (fun t0 =>
    let t := t0.parityCheck 4
    let i := t.rd Fld.tlyIndexIndex
    let w := t.tallyWord i n.val
    match t.tallyWordRead i (n.val / 2) with
    | (u, true) => u.answerRead w
    | (u, false) => u.answerRead 0xFFFFFFFF))

end Sys2Proof.Machine
end

