-- ==== Sys2Proof/Machine/Power.lean ====
section
/-! DEFINITION. Supply voltage (R399 to R402), heat (R403 to R406), the watch rings (R505) and the rung ladder of the block and of
the districts (R407 to R413, R443, R448). -/

namespace Sys2Proof.Machine

/-! ## Supply voltage -/

/-- A voltage handshake reported stuck (R399, R505). -/
def State.vackStuck (s : State) : State :=
  State.report { s with power := { s.power with stuck := true } } (some (7, 0)) (some 17) unitPwr none

/-- A code presented and the request raised (R399 step 1), with the `VACK` arm (R510). -/
def State.voltRequest (s : State) : State :=
  let t := State.count { s with power := { s.power with vreq := true } } unitPwr 0 1
  let u := (t.wr Fld.pwrVstatusRequest (s.voltCode (s.rd Fld.pwrVstatusDim))).wr Fld.pwrVstatusPending 1
  if u.armed Fld.pwrInjectVack then (u.disarm Fld.pwrInjectVack).vackStuck else u

/-- `VOLTAGE_REQUEST` (R399, R400): only while both lines are low, and not by a halted page (R473). -/
def execVoltageRequest (s0 : State) : Res :=
  let s := s0.checkPages [7]
  .next (if s.power.vreq || s.power.vack || s.halted .pwr then s else s.voltRequest)

/-- What a voltage acknowledgement lets the Counting House do (R395). -/
def State.dimAck (s : State) : State :=
  if s.dimNeeded then s.dimStep.1
  else if s.rd Fld.pwrVstatusRowsMasked = 0 ∧ s.rd Fld.pwrVstatusDim ≠ 0 then s.wr Fld.pwrVstatusDim (s.rd Fld.pwrVstatusDim - 1)
  else s

/-- `VOLTAGE_ACK` (R399 steps 2 and 3). -/
def execVoltageAck (s : State) : Res :=
  .next (if s.power.vreq && !s.power.vack then
      let t : State := { s with power := { s.power with vreq := false, vack := true } }
      ((t.wr Fld.pwrVstatusAcked (t.rd Fld.pwrVstatusRequest)).wr Fld.pwrVstatusPending 0).dimAck
    else s)

/-- `VOLTAGE_ACK_FALL` (R399 step 4). -/
def execVoltageAckFall (s : State) : Res :=
  .next (if s.power.vack && !s.power.vreq then { s with power := { s.power with vack := false, stuck := false } } else s)

/-- Whether a watch ring with its limit in `f` is enabled: the limit M × 2^E is zero exactly when M is (R27, R29). -/
def State.ringOn (s : State) (f : Fld) : Bool := decide (16 ≤ s.rd f)

/-- `VACK_RING_EXPIRY` (R505): while an exchange is under way. -/
def execVackRingExpiry (s : State) : Res :=
  .next (if (s.power.vreq || s.power.vack) && !s.power.stuck && s.ringOn Fld.pwrWatchVack then s.vackStuck else s)

/-! ## Heat -/

/-- A threshold and the hysteresis in force: the reset values on a halted page (R473). -/
def State.therm (s : State) (f : Fld) : Nat := if s.halted .pwr then field 0x69625C03 f.hi f.lo else s.rd f

/-- The code of a temperature in °C (R403). -/
def tempCode (c : Nat) : Nat := (c + 40) * 4

/-- Above a threshold after a reading, with hysteresis (R404). -/
def State.above (s : State) (was : Bool) (f : Fld) (r : Nat) : Bool :=
  if tempCode (s.therm f) ≤ r then true
  else if r + 4 * s.therm Fld.pwrThermHyst < tempCode (s.therm f) then false
  else was

/-- The reading an armed district reports in place of its own (R509). -/
def State.armReading (s : State) (d r : Nat) : State × Nat × Bool :=
  let trip := s.armed (Fld.dstInjectTrip d)
  let high := s.armed (Fld.dstInjectHigh d)
  let sens := s.armed (Fld.dstInjectSensor d)
  let s1 := if trip then s.disarm (Fld.dstInjectTrip d) else s
  let s2 := if high then s1.disarm (Fld.dstInjectHigh d) else s1
  let s3 := if sens then s2.disarm (Fld.dstInjectSensor d) else s2
  let at_ (f : Fld) : Nat := min 1023 (tempCode (s.therm f))
  let v := if trip && high then max (at_ Fld.pwrThermTrip) (at_ Fld.pwrThermHigh) else if trip then at_ Fld.pwrThermTrip
    else if high then at_ Fld.pwrThermHigh else r
  (s3, v, sens)

/-- `PWR_TEMP` and the thermal summary of the power port (R406, R443). -/
def State.thermSummary (s : State) : State :=
  let temp (d : Nat) : Nat := s.rd (Fld.dstTempTemp d)
  let best := allDists.foldl (fun acc d => if temp acc < temp d then d else acc) 0
  let was := s.rd Fld.pwrTempMax
  let t := (s.wr Fld.pwrTempMax (temp best)).wr Fld.pwrTempMaxDist best
  if temp best = was then t else { t with power := { t.power with ttog := !t.power.ttog } }

/-- A sensor fault (R403): the district acts as above `TRIP`; reported as it begins. -/
def State.sensorFault (s : State) (d : Nat) : State :=
  if (s.dist d).sensFault then s
  else
    let t := (s.status (0x40 + d) 3).report (some (7, 3)) (some 15) d none
    t.updDist d (fun x => { x with sensFault := true })

/-- `WARM` and `HIGH` after a reading (R404, R405). -/
def State.warmHigh (s : State) (d r : Nat) : State :=
  let x := s.dist d
  let warm := s.above x.warm Fld.pwrThermWarm r
  let high := s.above x.high Fld.pwrThermHigh r
  let s1 := s.updDist d (fun y => { y with warm := warm, high := high })
  let s2 := if high && !x.high then ((s1.status (0x40 + d) 3).report (some (7, 1)) (some 14) d none).heatClose d else s1
  if !high && x.high then s2.setReason d rsHeat false else s2

/-- `TRIP` after a reading (R404); a sensor fault leaves this mark alone (R403). -/
def State.tripped (s : State) (d r : Nat) : State :=
  let was := (s.dist d).trip
  let trip := s.above was Fld.pwrThermTrip r
  let t := s.updDist d (fun y => { y with trip := trip })
  if trip && !was then ((t.status (0x40 + d) 3).report (some (7, 2)) (some 15) d none).count unitPwr 2 1 else t

/-- A reading taken in by the district and the power unit (R403, R404): each threshold acts on it; above 150 °C, below −30 °C or made
so by its arm it is a sensor fault, and any other ends one. -/
def State.reading (s : State) (d r : Nat) : State :=
  match s.armReading d r with
  | (t, v, sens) =>
    let u := (((t.wr (Fld.dstTempTemp d) v).thermSummary).warmHigh d v).tripped d v
    if sens || decide (760 < v) || decide (v < 40) then u.sensorFault d else u.updDist d (fun y => { y with sensFault := false })

/-- `SENSOR_READING` (R403, R404): sensing is off in Deep (R408). -/
def execSensorReading (d : Dist) (r : BitVec 10) (s0 : State) : Res :=
  let s := s0.checkPages [7]
  .next (if s.rd Fld.blkRungCurrent = 4 then s else s.reading d.val r.toNat)

/-- `SENSOR_RING_EXPIRY` (R403, R505): the ring is parked in Deep (R412). -/
def execSensorRingExpiry (d : Dist) (s : State) : Res :=
  .next (if decide (s.rd Fld.blkRungCurrent = 4) || !s.ringOn Fld.pwrWatchSensor then s else (s.sensorFault d.val).report (some (7, 3)) (some 17) d.val none)

/-! ## Watch rings (R505) -/

/-- The link of a router lane that has stalled closed (R186, R505). -/
def State.laneStall (s : State) (d : Nat) (x : Dir) : State :=
  match neighbour d x with
  | none => s
  | some b => s.unlink d b

/-- Whether a district's router forwards: no rung has parked it and it is neither in reset nor dead (R186, R412, R454). A trip stops
cells, core and tiles only (R404), and a fault closure leaves the router at work (R186). -/
def State.forwards (s : State) (d : Nat) : Bool := s.active && !(s.dist d).inReset && !(s.dist d).routerDead

/-- The expiry of a district's step ring, or of a lane of its router: a district already closed by a fault is not lost again (R191). -/
def State.stepRing (s : State) (d : Nat) : State :=
  if (s.dist d).reasons.getLsbD rsFault then s.report (some (0x40 + d, 2)) (some 17) d none else s.stepExpiry d

/-- `STEP_RING_EXPIRY` (R412, R505): the district closes with `FAULT`; a stalled lane of its router closes its link as well. -/
def execStepRingExpiry (d : Dist) (lane : Option Dir) (s : State) : Res :=
  .next (if !s.ringOn (Fld.dstWatchStep d.val) then s
    else
      match lane with
      | none => if s.walking d.val && decide (s.rd (Fld.dstRungCurrent d.val) = 0) then s.stepRing d.val else s
      | some x => if s.forwards d.val then (s.stepRing d.val).laneStall d.val x else s)

/-- `CORE_RING_EXPIRY` (R243, R505). -/
def execCoreRingExpiry (d : Dist) (s : State) : Res :=
  .next (if s.coreOn d.val && decide ((s.dist d.val).core.groups ≠ []) && s.ringOn (Fld.dstWatchCore d.val) then s.coreExpiry d.val else s)

/-- Whether a district's tiles hold work: a matrix instruction or a probe that waits for its job (R207, R255, R505). -/
def State.tileWork (s : State) (d : Nat) : Bool :=
  (s.dist d).core.groups.any (fun p => decide (p.2.mtx ≠ [])) || (s.nextProbe d).isSome

/-- `TILE_RING_EXPIRY` (R438, R505). -/
def execTileRingExpiry (d : Dist) (t : Fin 2) (s : State) : Res :=
  .next (if s.coreOn d.val && !(s.dist d.val).core.tiles.getLsbD t.val && s.tileWork d.val && s.ringOn (Fld.dstWatchCore d.val) then s.failTile d.val t.val else s)

/-- `STACK_REQ_RING_EXPIRY` (R505): the port begins a reset. In Doze and Deep its stack is in self-refresh (R408, R412). -/
def execStackReqRingExpiry (p : Port) (s : State) : Res :=
  .next (if s.present p.val && !(s.port p.val).inResetP && decide (s.phase = .up) && decide (s.rd Fld.blkRungCurrent < 3)
      && s.ringOn (Fld.stkWatchReq p.val) then s.stackExpiry p.val else s)

/-- `HOST_RING_EXPIRY` (R505): warm reset with `CAUSE` 10. -/
def execHostRingExpiry (s : State) : Res :=
  .next (if s.active && s.ringOn Fld.lnkWatchHost then (s.report none (some 17) unitGate none).wantWarm 10 else s)

/-! ## The block's rung -/

/-- `LSTATE` changed, with its status bit (R448, R482). -/
def State.setLink (s : State) (v : Nat) : State :=
  if s.rd Fld.lnkLinkLstate = v then s else (s.wr Fld.lnkLinkLstate v).status 1 3

/-- Both links follow a rung (R448): L0 in Ready and Quiet, L2 in Doze and Deep. Entry to L1 is a step of its own. -/
def State.linksFollow (s : State) (r : Nat) : State :=
  let live (t : State) : Bool := decide (2 ≤ t.rd Fld.lnkLinkLstate)
  let v := if 3 ≤ r then 4 else 2
  let t := if r = 2 then s else if live s then s.setLink v else s
  if t.twin.linkUp then { t with twin := { t.twin with lstate := if r = 2 then 3 else BitVec.ofNat 3 v } } else t

/-- The rung becomes `r` (R409, R443, R482, R497); the twin is told (R411). -/
def State.nowRung (s : State) (r : Nat) : State :=
  let t := ((s.wr Fld.blkRungCurrent r).wr Fld.blkRungWaiting 0).count unitPwr 1 1
  let u : State := (State.status { t with power := { t.power with rungOut := BitVec.ofNat 3 r } } 7 4).twinSend (.rung (BitVec.ofNat 3 r))
  (if u.rd Fld.blkRungTarget = r then u.status 0 3 else u).linksFollow r

/-- The district emptied as Doze and Deep leave it (R408). -/
def District.dozed (x : District) : District :=
  { x with squares := [], plot := [], memo := [], asked := [], heaps := [], ncache := [],
           core := { x.core with waiting := [], groups := [], inbox := [], desk := [] } }

/-- Every `VALID` bit of the treelet map clear (R408, R458). -/
def mapInvalid (m : SMap Word) : SMap Word :=
  m.foldl (fun acc p => SMap.set 0 acc p.1 (if p.1 % 4 = 2 then p.2 &&& ~~~1 else p.2)) []

/-- Status fields that Doze and Deep do not keep (R408), by page offset: header status, capture counts, and each page's own. Which
read-only fields count as status is a choice (assumption log 44). -/
def PageKind.statusFields : PageKind → List (Nat × Word)
  | .blk => [(0x054, 0x20000), (0x060, 0x800000), (0x070, 0x20000)]
  | .lnk => [(0x048, 0xFF000000), (0x06C, 0x20000)]
  | .twn => [(0x060, 0xFF)]
  | .ch => []
  | .tly => [(0x040, 0x10000)]
  | .ten => [(0x044, 0xFFFFFFFF)]
  | .map => [(0x04C, 0xFFFFFFFF)]
  | .pwr => [(0x044, 0x7FF), (0x04C, 0xFFFFFFFF)]
  | .stk => [(0x040, 0x80000), (0x050, 0xFFFFFFFF), (0x054, 0xFFFF0000)]
  | .err => [(0x040, 0xFFFFFFFF), (0x044, 0xFFFFFFFF), (0x048, 0xFFFFFFFF), (0x04C, 0xFFFFFFFF)]
  | .ctr => [(0x040, 0xFFFFFFFF)]
  | .dst => [(0x064, 0xFFFFFFFF)]
  | .que => [(0x064, 0xF000)]

/-- The bits of a register set to their reset values. -/
def State.resetBits (s : State) (off : Nat) (m : Word) : State :=
  s.setReg off ((s.reg off &&& ~~~m) ||| ((regAt off).reset &&& m))

/-- The status fields of a page at their reset values. -/
def State.resetStatus (s : State) (pg : Nat) : State :=
  match pageOf pg with
  | none => s
  | some (k, _) => ([(0x008, 0xFFFFFFFF), (0x020, 0xFFFFFFFF)] ++ k.statusFields).foldl (fun (t : State) (p : Nat × Word) => t.resetBits (pg * 0x1000 + p.1) p.2) s

/-- What a wake from Doze or Deep finds (R408). -/
def State.wakeLoss (s : State) : State :=
  let t : State := { s with
    map := mapInvalid s.map, mapBad := [], live := [], hold := []
    dists := s.dists.map (fun p => (p.1, p.2.dozed))
    stk := s.stk.map (fun p => (p.1, { p.2 with lines := [], misses := [], strides := [] }))
    house := { s.house with top := [], rems := [] } }
  ringPages.foldl State.resetStatus t

/-- A wake to a shallower rung (R411); from Deep the block first drives rung 3 and waits for `POK_MAIN` (R443). -/
def State.wakeTo (s : State) (r : Nat) : State :=
  let c := s.rd Fld.blkRungCurrent
  if c ≤ r then s
  else if c = 4 ∧ !s.power.pokMain then { s with power := { s.power with rungOut := 3 } }
  else (if 3 ≤ c ∧ r < 3 then s.wakeLoss else s).nowRung r

/-- What must be over before Doze or Deep (R410 step 3). -/
def State.dozeReady (s : State) : Bool :=
  s.batches.all (fun x => decide (x.admitOrd = 0) || decide (x.st = .isSealed)) && decide (s.heldWalkers = [])
    && s.dists.all (fun p => decide (p.2.core.groups = []))

/-- The rung holds while the page `BLK` or `PWR` is halted (R473). -/
def State.rungHeld (s : State) : Bool := s.halted .blk || s.halted .pwr

/-- `BLK_RUNG_WRITE` (R409, R410): 5 to 7 are not stored; a shallower target wakes the block unless the rung holds. -/
def execBlkRungWrite (v : Word) (s : State) : Res :=
  .next (s.guardWrite 0x00050 (fun t =>
    let r := field v 2 0
    if 4 < r then t
    else
      let u := t.hostSet 0x00050 v
      if u.rungHeld then u.checkPages [0, 7]
      else if r < u.rd Fld.blkRungCurrent then u.wakeTo r
      else if r = u.rd Fld.blkRungCurrent then u.wr Fld.blkRungWaiting 0
      else u.wr Fld.blkRungWaiting (b2n (decide (3 ≤ r) && !u.dozeReady))))

/-- Step 4 of R410: what is issued has finished: host writes, and where it still can finish, plot loads, the instructions that groups
wait for, and the transfers of the ports. -/
def State.quiesced (s : State) : Bool :=
  decide (s.hostWr = [])
    && s.dists.all (fun p => !s.walking p.1 || (p.2.core.groups.all (fun g => !g.2.busy)
      && (!s.isOpen p.1 || p.2.plot.all (fun k => decide (k.2.st ≠ .loading)))))
    && s.stk.all (fun p => p.2.inResetP || decide (p.2.misses = []))

/-- Steps 5 and 6 of R410. -/
def State.enterRung (s : State) (r : Nat) : State :=
  if 3 ≤ r then
    let t := ((List.range 6).filter s.present).foldl State.cleanPort s
    State.nowRung { t with
      dists := t.dists.map (fun p => (p.1, p.2.dozed))
      house := { t.house with top := [] }
      power := { t.power with pokMain := decide (r ≠ 4) && t.power.pokMain } } r
  else s.nowRung r

/-- `BLOCK_RUNG_ENTRY` (R410): the target's conditions hold. A wake that a halt delayed is made here. -/
def execBlockRungEntry (s0 : State) : Res :=
  let s := s0.checkPages [0, 7]
  let r := s.rd Fld.blkRungTarget
  let c := s.rd Fld.blkRungCurrent
  .next (if decide (s.phase ≠ .up) || s.rungHeld || decide (r = c) then s
    else if r < c then s.wakeTo r
    else if 3 ≤ r ∧ !s.dozeReady then s.wr Fld.blkRungWaiting 1
    else if !s.quiesced then s
    else s.enterRung r)

/-- Whether an access or message has asked for this wake (R411). -/
def State.wakeAsked (s : State) (w : Wake) : Bool :=
  match s.gate.held with
  | none => false
  | some off =>
    match w with
    | .quePage => decide (0xC0 ≤ offPage off ∧ offPage off < 0x100)
    | .heldAccess => decide (3 ≤ s.rd Fld.blkRungCurrent)
    | .twinMessage => decide (off = 0x02000)

/-- `BLOCK_WAKE` (R411): hardware writes `TARGET` = 0. -/
def execBlockWake (w : Wake) (s0 : State) : Res :=
  let s := s0.checkPages [0, 7]
  .next (if s.rungHeld || decide (s.rd Fld.blkRungCurrent = 0) || !s.wakeAsked w then s
    else (State.wr { s with gate := { s.gate with held := none } } Fld.blkRungTarget 0).wakeTo 0)

/-- `POK_MAIN_RISE` (R443): a wake from Deep that waits for it goes on, unless the rung holds. -/
def execPokMainRise (s : State) : Res :=
  let t : State := { s with power := { s.power with pokMain := true } }
  .next (if t.rd Fld.blkRungCurrent = 4 ∧ t.power.rungOut = 3 ∧ t.rungHeld = false then t.wakeTo (t.rd Fld.blkRungTarget) else t)

/-- `HOST_LINK_L1_ENTRY` (R448): in Nap, whenever the link is idle. -/
def execHostLinkL1Entry (s : State) : Res :=
  .next (if s.rd Fld.blkRungCurrent = 2 ∧ s.rd Fld.lnkLinkLstate = 2 ∧ s.hostWr = [] then s.setLink 3 else s)

/-- `LINK_STATE_EXIT` (R448): the far side of a link brings it back to L0. -/
def execLinkStateExit (twin : Bool) (s : State) : Res :=
  .next (if twin then
      (if s.twin.lstate = 3 ∨ s.twin.lstate = 4 then { s with twin := { s.twin with lstate := 2 } } else s)
    else if s.rd Fld.lnkLinkLstate = 3 ∨ s.rd Fld.lnkLinkLstate = 4 then s.setLink 2 else s)

/-! ## A district's own rung -/

/-- What a district keeps no longer in its own Doze, and finds invalid when it reopens (R413). -/
def State.dropCaches (s : State) (d : Nat) : State :=
  s.updDist d (fun x => { x with ncache := [], core := { x.core with desk := [] } })

/-- What a district's own Doze does not keep: all but its page configuration and its map share (R413). Its status fields and counters
have their reset values at the wake, as R408 gives them for the block (assumption log 65). -/
def State.dozeLoss (s : State) (d : Nat) : State :=
  ((s.zeroUnit d).updDist d (fun x => { x with memo := [], asked := [], core := { x.core with inbox := [] } })).resetStatus (0x40 + d)

/-- A district leaves its rung `c` for a shallower one (R413). -/
def State.leaveRung (s : State) (d c : Nat) : State :=
  if c = 3 then (s.dropCaches d).dozeLoss d else if c = 2 then s.dropCaches d else s

/-- `DST_RUNG_WRITE` (R413): Nap and Doze close the district with `RUNG`; a shallower target wakes it. -/
def execDstRungWrite (d : Dist) (v : Word) (s : State) : Res :=
  .next (s.guardWrite (pageReg .dst d.val 0x068) (fun t =>
    let u := t.hostSet (pageReg .dst d.val 0x068) v
    let r := field v 1 0
    let c := u.rd (Fld.dstRungCurrent d.val)
    let w := if r < c then (u.leaveRung d.val c).wr (Fld.dstRungCurrent d.val) (if r = 2 then 2 else 0) else u
    w.setReason d.val rsRung (decide (2 ≤ r))))

/-- Nothing is present in a district that could keep it from Quiet (R413). -/
def State.distIdle (s : State) (d : Nat) : Bool :=
  let x := s.dist d
  s.walkers.all (fun w => decide (w.dist ≠ d) || decide (w.st = .inTransit)) && decide (x.core.groups = []) && decide (x.core.waiting = [])
    && x.plot.all (fun p => decide (p.2.st ≠ .loading)) && s.msgs.all (fun m => decide (m.here ≠ d))

/-- `DISTRICT_RUNG_ENTRY` (R413). -/
def execDistrictRungEntry (d : Dist) (s : State) : Res :=
  let r := s.rd (Fld.dstRungTarget d.val)
  let c := s.rd (Fld.dstRungCurrent d.val)
  .next (if decide (s.phase ≠ .up) || (s.dist d.val).inReset then s
    else if 2 ≤ r then
      (if c < r ∧ (s.dist d.val).drained ∧ s.heapUsed d.val = 0 ∧ (s.dist d.val).core.groups = [] then
        (if r = 3 then s.dropCaches d.val else s).wr (Fld.dstRungCurrent d.val) r else s)
    else if c = 0 ∧ (r = 1 ∨ s.flag (Fld.dstRungAutoQuiet d.val)) ∧ s.distIdle d.val then s.wr (Fld.dstRungCurrent d.val) 1
    else s)

/-- `DISTRICT_QUIET_WAKE` (R413): a message addressed to the district, or a run dealt to it. -/
def execDistrictQuietWake (d : Dist) (s : State) : Res :=
  .next (if s.msgs.any (fun m => decide (m.dst = d.val) && decide (m.here = d.val)) || s.walkers.any (fun w => decide (w.dist = d.val) && decide (w.st = .entering))
    then s.wakeDist d.val else s)

end Sys2Proof.Machine
end

