-- ==== Sys2Proof/Machine/TwinOps.lean ====
section
/-! DEFINITION. The twin (R414 to R438): pairing, messages, mirrors, fencing and claiming, takeover and return, and the
hand-over of batches. -/

namespace Sys2Proof.Machine

/-! ## The owner word (R426) -/

/-- The owner word's virtual address. -/
def State.ownerVa (s : State) : Nat := s.rd Fld.twnOwnerHiAddr * 2 ^ 32 + s.rd Fld.twnOwnerLoAddr * 8

/-- The side whose engine holds the entries of a side. -/
def ownOf (w : BitVec 64) (side : Nat) : Nat := b2n (w.getLsbD side)

/-- The word with the entries of `side` given to `who`, its `EPOCH` incremented. -/
def ownGive (w : BitVec 64) (side who : Nat) : BitVec 64 :=
  let own : Nat := if side = 0 then who + 2 * ownOf w 1 else ownOf w 0 + 2 * who
  BitVec.ofNat 64 ((w.toNat / 2 ^ 32 + 1) % 2 ^ 32 * 2 ^ 32 + own)

/-- The owner word read through the Gate's root; `none` where it cannot be read or its reserved bits are not zero (R416). -/
def State.readOwner (s : State) : State × Option (BitVec 64) :=
  match s.readVa .gate s.ownerVa 8 with
  | (t, .fault _ _) => (t, none)
  | (t, .ok bs) => let w := BitVec.ofNat 64 (leNat bs); (t, if w.extractLsb' 2 30 = 0 then some w else none)

/-- The compare-and-swap of the word just read, which finds it unchanged: read and swap are one step here. -/
def State.swapOwner (s : State) (new : BitVec 64) : Option State :=
  match s.writeVa .gate s.ownerVa (leBytes 8 new.toNat) .free with
  | (_, .fault _ _) => none
  | (t, .ok ()) => some { t with twin := { t.twin with owner := new } }

/-! ## Replays -/

/-- A batch as it stands before its replay (R430, R431): a status fixed stays, and deferrals and charges go on from what the entry
holds. -/
def Batch.anew (x : Batch) : Batch :=
  { x with
    st := .accepted, parkAt := none, mode := 0, restarts := x.restarts + 1, est := 0, cmtLeft := 0, hits := 0, regv := 0, fmtv := 0,
    traps := 0, parks := 0, checked := false, regions := [], nextIdx := 0, doneCount := 0, zeroed := false, nextRun := 0, cursor := 0,
    top := none, stop := x.status.isSome, work := false, refit := false, admitOrd := 0, handed := false, canceled := false,
    trapped := false, outW := 0, cbeads := none, again := false }

/-- A replayed batch stamped by this engine (R72, R374, R430), at once or when the stamp store has room (R373). -/
def State.restamp (s : State) (b : Bid) : State :=
  match s.batch b with
  | none => s
  | some x =>
    if x.desc.check1.isSome || x.desc.check3.isSome || x.status.isSome then s
    else
      match s.stampBatch b x.desc with
      | (t, none) => if stampCap < t.stamps.length then s.updBatch b (fun y => { y with st := .parked, parkAt := some .stamping, again := true }) else t
      | (t, some (c, a)) => t.xlateFault b .stamping 0x00 c a noWalker none

/-- What a batch's seal word says: whether its seal has passed; `none` where it cannot be read. -/
def State.sealPassed (s : State) (b : Bid) : State × Option Bool :=
  match s.readVa (bidRoot b) (recSeal (s.queRec b)) 8 with
  | (t, .fault _ _) => (t, none)
  | (t, .ok bs) => (t, some (passed (bytesWord bs 0) b.seq))

/-- A batch of the twin's side dropped, its mirror entry with it if `free`. -/
def State.dropHeld (s : State) (x : Batch) (free : Bool) : State :=
  let t := s.clearBatch x
  if free then { t with twin := { t.twin with mirrors := t.twin.mirrors.filter (fun m => decide (m.idx.toNat ≠ x.tly)) } } else t

/-- One entry to be replayed: an entry whose seal has passed retires without a write (R429 step 4), another waits for admission
again. -/
def State.replayEntry (s : State) (b : Bid) : State :=
  match s.sealPassed b with
  | (t, some true) =>
    (match t.batch b with
     | some x => if b.held then t.dropHeld x true else t.retire x false
     | none => t)
  | (t, some false) | (t, none) => (t.restamp b).wantRound

/-- A mirror entry as a batch of this engine (R429 step 3, R430). `copy` marks one handed over by a live twin. -/
def State.heldBatch (s : State) (m : Mirror) (copy : Bool) : Batch :=
  let bs := m.bytes
  let q : Que := ⟨bytesLe bs 1 1 % 64, Nat.mod_lt _ (by decide)⟩
  let bid : Bid := { que := q, seq := bytesWord bs 4, held := true }
  let ct := (s.queRec bid).classTenant
  let d := descOf (bs.drop 32) (field ct 13 12) (field ct 11 0)
  let status : Byte := BitVec.ofNat 8 (bytesLe bs 0xA 1)
  Batch.anew
    { bid := bid, desc := d, raw := bs.drop 32, ring := bytesLe bs 8 2, tly := m.idx.toNat, cls := max (field ct 13 12) d.cls, tenant := d.tenant,
      st := .accepted, parkAt := none, status := if status = 0xFF then none else some status, crcode := 0, cdefer := bytesLe bs 3 1, mode := 0,
      restarts := bytesLe bs 0xB 1 / 4 % 2, beads := bytesLe bs 0xC 4, est := 0, cmtLeft := 0, hits := 0, regv := 0, fmtv := 0, traps := 0,
      parks := 0, checked := false, regions := [], nextIdx := 0, doneCount := 0, zeroed := false, nextRun := 0, cursor := 0, top := none,
      stop := false, work := false, refit := false, admitOrd := 0, acceptOrd := s.house.accepts + 1, twinCopy := copy, wake := d.wake,
      irq := d.irq, handed := false, canceled := false, trapped := false, outW := 0, cbeads := none, frac := 0, wrote := [], again := false }

/-- A mirror entry taken on and its replay begun. -/
def State.adopt (s : State) (m : Mirror) (copy : Bool) : State :=
  let x := s.heldBatch m copy
  if (s.batch x.bid).isSome then s.updBatch x.bid (fun y => { y with twinCopy := copy })
  else
    let isM (y : Mirror) : Bool := decide (y.idx = m.idx)
    let t : State := { s with
      batches := s.batches ++ [x]
      house := { s.house with accepts := s.house.accepts + 1 }
      twin := { s.twin with mirrors := updFirst isM (fun y => { y with held := true }) s.twin.mirrors } }
    t.replayEntry x.bid

/-- This engine's own batches that are still to be sealed, in the order they were accepted. -/
def State.ownLive (s : State) : List Batch := s.batches.filter (fun x => !x.bid.held && decide (x.st ≠ .isSealed))

/-- A batch of the engine's own replayed after a reset or an unfinished hand-over (R431, R432). One that never left `ACCEPTED` is no
restart. -/
def State.replayOwn (s : State) (x : Batch) : State :=
  let first := x.st = .accepted ∧ x.restarts = 0
  let t := s.updTally x.bid (fun y => if first then { y.anew with restarts := y.restarts } else y.anew)
  t.replayEntry x.bid

/-! ## The link -/

/-- The pair's state field (R418). -/
def State.setTwnState (s : State) (v : Nat) : State := s.wr Fld.twnStatusState v

/-- This engine's identity record (R416). -/
def State.ownIdent (s : State) : TwinIdentRec :=
  { version := s.reg 0x00040, side := s.pins.straps.twnSide, mode := BitVec.ofNat 2 s.twnMode, walker := s.flag Fld.twnCtlWalker,
    check := s.reg 0x02044 }

/-- The first failing condition of R416 for a peer's record, 0 where all hold. -/
def State.judgeIdent (s : State) (id : TwinIdentRec) : Nat :=
  let mode (m : BitVec 2) : Nat := if m = 3 then 0 else m.toNat
  if (id.version ^^^ s.reg 0x00040).toNat / 256 ≠ 0 then 2
  else if id.side.val = s.side then 3
  else if mode id.mode ≠ s.twnMode ∨ (s.twnMode = 2 ∧ id.walker ≠ s.flag Fld.twnCtlWalker) then 4
  else if id.check ≠ s.reg 0x02044 ∨ id.check = 0 ∨ s.reg 0x02044 = 0 then 5
  else if 3 ≤ s.twin.linkFails then 7
  else 0

/-- Held batches that were handed over by a live twin go back to its mirror entries when the link is lost (R432). -/
def State.dropCopies (s : State) : State :=
  if s.flag Fld.twnStatusHolding then s
  else
    let t := (s.batches.filter (fun x => x.bid.held && x.twinCopy)).foldl (fun u x => u.dropHeld x false) s
    { t with twin := { t.twin with mirrors := t.twin.mirrors.map (fun m => { m with held := false }) } }

/-- The engine is to fence (R428): not in solo mode. -/
def State.askFence (s : State) : State := if s.twnMode = 0 then s else { s with twin := { s.twin with wantFence := true } }

/-- The twin link reset (R419, R428, R451, R458): what was sent and not acknowledged is lost, the link trains again and identity is
exchanged. -/
def State.linkReset (s : State) (failed : Bool) : State :=
  let up := s.pins.straps.twin
  let t := (State.twnEvent { s with twin := { s.twin with
      linkUp := up, sendNum := 0, recvNum := 0, sent := [], peer := none, quiet := false, silent := false, waitAck := []
      resync := true, lstate := if up then 2 else 0
      linkFails := if failed then s.twin.linkFails + 1 else 0 } } Fld.twnEventLinkDown).count unitTwn 2 1
  let u := (t.setReg 0x02010 0).dropCopies
  let v := if u.twnMode = 0 then u else ((u.setTwnState 1).wr Fld.twnStatusReason (if up then 0 else 1)).askFence
  v.twinSend (.ident v.ownIdent)

/-- The silence ring reaches `FENCE` (R420, R504). -/
def State.silence (s : State) : State :=
  let t := (s.report none (some 11) unitTwn none).twnEvent Fld.twnEventLinkDown
  ({ t with twin := { t.twin with silent := true } } : State).setTwnState 1 |>.askFence

/-- A message received (R419, R420): its number and CRC are checked; it restarts the silence ring, with the `SILENCE` arm (R510), and
wakes the block (R411). -/
def State.twinRecv (s : State) (h : TwinHdr) (f : State → State) : State :=
  if !s.twin.linkUp then s
  else
    let s1 := s.count unitTwn 1 1
    if !h.crcOk || decide (h.num ≠ s1.twin.recvNum) then (s1.report none (some 10) unitTwn none).linkReset true
    else
      let s2 : State := { s1 with twin := { s1.twin with recvNum := s1.twin.recvNum + 1, quiet := false, silent := false } }
      let s3 := if s2.armed Fld.twnInjectSilence && decide (s2.twnMode ≠ 0) then (s2.disarm Fld.twnInjectSilence).silence else s2
      f (if s3.rd Fld.blkRungCurrent = 0 then s3 else s3.askWake 0x02000)

/-! ## Pairing -/

/-- The bytes of a batch's entries sent to the twin. -/
def State.sendEntry (s : State) (x : Batch) : State := s.twinSend (.entry (BitVec.ofNat 14 x.tly) (x.entryBytes s.side))

/-- Every live entry of the engine's own sent (R417, R419). -/
def State.sendLive (s : State) : State := (s.ownLive.filter (fun x => !x.handed)).foldl (fun t x => t.sendEntry x) s

/-- Every queue that is not `DISABLED` sends its record (R417). -/
def State.sendQrecs (s : State) : State :=
  (List.finRange 64).foldl (fun t q => if t.queState q.val = 0 then t
    else t.twinSend (.qrec (t.queRec { que := q, seq := 0, held := false }))) s

/-- Pairing completes (R417): the pair is live, queue records and entries are exchanged. -/
def State.pairNow (s : State) : State :=
  let t := ((s.setTwnState (if s.standby then 3 else 2)).wr Fld.twnStatusReason 0).twnEvent Fld.twnEventPaired
  let u := ({ t with twin := { t.twin with linkFails := 0, resync := false } } : State).sendQrecs
  if s.twin.resync then u.sendLive.twinSend .resync else u.sendLive

/-- Where the engine stands once it holds the right to its side (R428): in the pair, or alone. -/
def State.settleRight (s : State) : State :=
  match s.twin.peer with
  | some id => if s.twin.linkUp && !s.twin.silent && decide (s.judgeIdent id = 0) then s.pairNow else s.setTwnState 4
  | none => s.setTwnState 4

/-- `TWN_MODE_WRITE` (R415, R416, R418): a change ends the pairing; a non-zero mode starts the exchange. -/
def State.modeWrite (s : State) (v : Word) : State :=
  let old := s.reg 0x02040
  let t := s.hostSet 0x02040 v
  if t.reg 0x02040 = old then t
  else
    let u := (t.batches.filter (fun x => x.bid.held)).foldl (fun w x => w.dropHeld x true) t
    let w : State := { u with twin := { u.twin with mirrors := [], qrecs := [], waitAck := [], wantFence := false } }
    let x := (w.wr Fld.twnStatusHolding 0).wr Fld.twnStatusReason 0
    if x.twnMode = 0 then ((x.setTwnState 0).wr Fld.twnStatusFenced 0).wr Fld.twnStatusLent 0
    else if !x.pins.straps.twin || !x.twin.linkUp then (x.setTwnState 1).wr Fld.twnStatusReason 1
    else (x.setTwnState 1).twinSend (.ident x.ownIdent)

/-- What an identity record leads to (R416, R417). -/
def State.identified (s : State) (id : TwinIdentRec) : State :=
  let t := State.setReg { s with twin := { s.twin with peer := some id } } 0x02058 id.version
  if t.twnMode = 0 then t
  else
    let r := t.judgeIdent id
    let u := t.wr Fld.twnStatusReason r
    if r ≠ 0 then (if u.rd Fld.twnStatusState = 4 then u else u.setTwnState 1)
    else if u.rd Fld.twnStatusState = 4 && !u.twin.wantFence then u.pairNow
    else if u.flag Fld.twnStatusLent then u
    else (if u.rd Fld.twnStatusState = 4 then u else u.setTwnState 1).askFence

/-- `TWIN_IDENT` (R416). -/
def execTwinIdent (h : TwinHdr) (id : TwinIdentRec) (s : State) : Res := .next (s.twinRecv h (fun t => t.identified id))

/-- `TWIN_BEACON` (R420): only restarts the silence ring. -/
def execTwinBeacon (h : TwinHdr) (s : State) : Res := .next (s.twinRecv h (fun t => t))

/-- `BEACON_RING_EXPIRY` (R420). -/
def execBeaconRingExpiry (s0 : State) : Res :=
  let s := s0.checkPages [2]
  .next (if decide (s.phase = .up) && s.twin.linkUp && decide (s.rd Fld.blkRungCurrent ≤ 1) && s.ringOn Fld.twnWatch1Beacon then s.twinSend .beacon else s)

/-! ## Fencing and claiming (R428) -/

/-- The owner word, read as `w`, names the twin: the engine's own entries are discarded without a write. -/
def State.lend (s0 : State) (w : BitVec 64) : State :=
  let s : State := { s0 with twin := { s0.twin with owner := w } }
  let t := (s.wr Fld.twnStatusLent 1).twnEvent Fld.twnEventLent
  let u := t.ownLive.foldl (fun v x => v.clearBatch x) t
  { u with fetched := [], twin := { u.twin with handWait := [] } }

/-- Batches handed over whose seal had not come back follow the owner word (R432). -/
def State.takeBack (s : State) : State :=
  ((s.ownLive.filter (·.handed)).foldl (fun t x => t.replayOwn x) s)

/-- The claim: the word swapped to itself with `EPOCH` + 1. Where the word cannot be read or swapped, the claim is tried again. -/
def State.claim (s : State) : State :=
  match s.readOwner with
  | (t, none) => (t.wr Fld.twnStatusReason 6).askFence
  | (t, some w) =>
    if ownOf w t.side = t.side then
      match t.swapOwner (ownGive w t.side t.side) with
      | none => (t.wr Fld.twnStatusReason 6).askFence
      | some u =>
        let v := ((u.wr Fld.twnStatusFenced 0).wr Fld.twnStatusLent 0).wr Fld.twnStatusHolding (b2n (decide (ownOf w (1 - t.side) = t.side)))
        (v.twnEvent Fld.twnEventClaimed).takeBack.settleRight
    else t.lend w

/-- Fencing once the writes issued are acknowledged; on a halted page the claim waits (R473). -/
def State.fenceNow (s : State) : State :=
  if s.hostWr ≠ [] then s
  else
    let t := if s.flag Fld.twnStatusFenced then s else (s.wr Fld.twnStatusFenced 1).twnEvent Fld.twnEventFenced
    if t.halted .twn then t
    else State.claim { t with twin := { t.twin with wantFence := false } }

/-- `FENCE` (R420, R428): a fence that is due, or the silence ring reaching `FENCE`. A solo engine has no silence ring. -/
def execFence (s0 : State) : Res :=
  let s := s0.checkPages [2]
  .next (if decide (s.phase ≠ .up) || decide (s.twnMode = 0) then s
    else if s.twin.wantFence then s.fenceNow
    else if s.halted .twn then s.askFence.fenceNow
    else if s.paired && !s.twin.quiet && !s.twin.silent && s.ringOn Fld.twnWatch0Fence then s.silence.fenceNow
    else s)

/-! ## Takeover and return (R429, R430, R433) -/

/-- Every mirror entry becomes a held entry and its replay begins, in order (R429 steps 3 to 5). -/
def State.holdAll (s : State) : State := s.twin.mirrors.foldl (fun t m => t.adopt m false) s

/-- The steps of R429. -/
def State.takeover (s : State) : State :=
  match s.readOwner with
  | (t, none) => t.wr Fld.twnStatusReason 6
  | (t, some w) =>
    if w ≠ t.twin.owner then { t with twin := { t.twin with owner := w } }
    else
      match t.swapOwner (ownGive w (1 - t.side) t.side) with
      | none => t.wr Fld.twnStatusReason 6
      | some u => ((u.wr Fld.twnStatusHolding 1).twnEvent Fld.twnEventTookOver).holdAll

/-- A takeover where the engine has its own side and not the twin's (R427, R429). -/
def State.takeNow (s : State) : State :=
  if decide (s.phase ≠ .up) || decide (s.twnMode = 0) || s.flag Fld.twnStatusFenced || s.flag Fld.twnStatusLent || s.twin.wantFence
      || s.flag Fld.twnStatusHolding || s.halted .twn then s
  else s.takeover

/-- The silence ring counts towards `TAKE` (R27, R420, R429): the engine is `ALONE`, the twin is not known to be quiet, and the ring has
a limit. -/
def State.takeRing (s : State) : Bool := decide (s.rd Fld.twnStatusState = 4) && !s.twin.quiet && s.ringOn Fld.twnWatch0Take

/-- `TAKEOVER` (R420, R429): where the silence ring counts towards `TAKE` its expiry there; elsewhere a host write of `TWN_CTL` as it
stands with `TAKEOVER` set. -/
def execTakeover (s0 : State) : Res :=
  let s := s0.checkPages [2]
  .next (if s.takeRing then s.takeNow else s0.guardWrite 0x02040 State.takeNow)

/-- `TWN_MODE_WRITE`: the whole of `TWN_CTL` is written (R418). -/
def execTwnModeWrite (v : Word) (s : State) : Res :=
  .next (s.guardWrite 0x02040 (fun t => if v.getLsbD 8 then (t.modeWrite v).takeNow else t.modeWrite v))

/-- `SIDE_RETURN` (R433): every held entry has retired and the twin is on the link again. -/
def State.sideReturn (s : State) : State :=
  match s.readOwner with
  | (t, none) => t.wr Fld.twnStatusReason 6
  | (t, some w) =>
    match t.swapOwner (ownGive w (1 - t.side) (1 - t.side)) with
    | none => t.wr Fld.twnStatusReason 6
    | some u => (u.wr Fld.twnStatusHolding 0).twinSend (.ret (if u.side = 0 then 1 else 0) u.twin.owner)

/-- `SIDE_RETURN`. -/
def execSideReturn (s : State) : Res :=
  .next (if s.flag Fld.twnStatusHolding && s.batches.all (fun x => !x.bid.held) && s.twin.linkUp && !s.twin.silent && s.twin.peer.isSome
      && decide (s.twnMode ≠ 0) && !s.twin.wantFence then s.sideReturn
    else s)

/-- What a `RETURN` gives back (R433): the side, and each running queue's next sequence number. -/
def State.returned (s : State) (side : Fin 2) (word : BitVec 64) : State :=
  if decide (side.val ≠ s.side) || !s.flag Fld.twnStatusLent then s
  else
    let t := (({ s with twin := { s.twin with owner := word, wantFence := false } } : State).wr Fld.twnStatusLent 0).wr Fld.twnStatusFenced 0
    let u := t.twnEvent Fld.twnEventReturned
    let v := (List.finRange 64).foldl (fun w q => if w.flag (Fld.queStateRun q.val) then w.loadSeq q else w) u
    ({ v with twin := { v.twin with resync := true } } : State).twinSend .retAck |>.settleRight

/-- `TWIN_RETURN` (R433). -/
def execTwinReturn (h : TwinHdr) (side : Fin 2) (word : BitVec 64) (s : State) : Res := .next (s.twinRecv h (fun t => t.returned side word))

/-! ## Hand-over (R432) -/

/-- A hand-over that the pair's end has overtaken: the batch's scene data is lost (R348, R432). -/
def State.handLost (s : State) (b : Bid) : State :=
  State.fixStatus { s with twin := { s.twin with handWait := s.twin.handWait.filter (fun x => decide (x ≠ b)) } } b 0x30 0

/-- `HANDOFF` (R432 steps 2 and 3). -/
def execHandoff (b : Bid) (s : State) : Res :=
  .next (if b ∉ s.twin.handWait then s
    else
      match s.batch b with
      | none => s
      | some x =>
        if !s.paired then s.handLost b
        else if !s.writesAcked b then s
        else
          let t : State := { s with twin := { s.twin with handWait := s.twin.handWait.filter (fun y => decide (y ≠ b)) } }
          (t.updBatch b (fun y => { y with handed := true })).twinSend (.handoff (BitVec.ofNat 14 x.tly)))

/-- `TWIN_HANDOFF` (R432 step 4): the mirror entry is replayed here. -/
def execTwinHandoff (h : TwinHdr) (idx : BitVec 14) (s : State) : Res :=
  .next (s.twinRecv h (fun t =>
    match t.twin.mirrors.find? (fun m => decide (m.idx = idx)) with
    | none => t
    | some m => if t.paired then (t.adopt m true).twinSend (.handoffAck idx) else t))

/-- `TWIN_SEALED` (R432 step 5): a batch handed over is sealed. -/
def execTwinSealed (h : TwinHdr) (q : Que) (seq : Word) (s : State) : Res :=
  .next (s.twinRecv h (fun t =>
    match t.batches.find? (fun x => decide (x.bid = { que := q, seq := seq, held := false }) && x.handed) with
    | none => t
    | some x => t.retire x false))

/-! ## Mirrors (R417, R419, R423) -/

/-- `TWIN_QREC` (R417). -/
def execTwinQrec (h : TwinHdr) (r : QueRec) (s : State) : Res :=
  .next (s.twinRecv h (fun t =>
    ({ t with twin := { t.twin with qrecs := SMap.put t.twin.qrecs r.que.val r } } : State).twinSend (.qrecAck r.que)))

/-- A mirror entry dropped, and the twin asked for its live entries (R423). -/
def State.mismatch (s : State) (idx : BitVec 14) : State :=
  let t := s.report (some (4, 2)) (some 12) unitTly none
  ({ t with twin := { t.twin with mirrors := t.twin.mirrors.filter (fun m => decide (m.idx ≠ idx)) } } : State).twinSend .resync

/-- An `ENTRY` taken into the mirror (R423), with the `MISMATCH` arm (R510). -/
def State.mirrorEntry (s : State) (idx : BitVec 14) (bytes : List Byte) : State :=
  let old := s.twin.mirrors.find? (fun m => decide (m.idx = idx))
  if s.armed Fld.tlyInjectMismatch then (s.disarm Fld.tlyInjectMismatch).mismatch idx
  else
    match old with
    | some m => if m.bytes = bytes then s.twinSend (.entryAck idx) else s.mismatch idx
    | none =>
      let n := bytes.length / 32
      let t := State.count { s with twin := { s.twin with mirrors := s.twin.mirrors ++ [{ idx := idx, len := n, bytes := bytes, held := false }] } } unitTwn 3 n
      t.twinSend (.entryAck idx)

/-- `TWIN_ENTRY` (R423). -/
def execTwinEntry (h : TwinHdr) (idx : BitVec 14) (bytes : List Byte) (s : State) : Res :=
  .next (s.twinRecv h (fun t => if t.twnMode = 0 then t else t.mirrorEntry idx bytes))

/-- A header brought up to date by a `STATE` message (R422, R423). -/
def stateBytes (bs : List Byte) (r : TwinStateRec) : List Byte :=
  let b0 := BitVec.ofNat 8 (bytesLe bs 0 1 % 16 + r.state.toNat * 16)
  bytesPut (bytesPut (bytesPut bs 0 [b0]) 3 [r.cdefer]) 0xA ([r.status, r.mode] ++ leBytes 4 r.beads.toNat)

/-- A batch handed over by the twin ends here as its `CANCEL` asks (R74, R432). -/
def State.cancelCopy (s : State) (idx : BitVec 14) (st : TwinStateRec) : State :=
  match s.batches.find? (fun x => x.bid.held && x.twinCopy && decide (x.tly = idx.toNat)) with
  | none => s
  | some x => if st.status = 0x31 then s.cancelBatch x else s

/-- `TWIN_STATE` (R423). -/
def execTwinState (h : TwinHdr) (idx : BitVec 14) (st : TwinStateRec) (s : State) : Res :=
  .next (s.twinRecv h (fun t =>
    State.cancelCopy { t with twin := { t.twin with
      mirrors := updFirst (fun m => decide (m.idx = idx)) (fun m => { m with bytes := stateBytes m.bytes st }) t.twin.mirrors } } idx st))

/-- `TWIN_RETIRE` (R423): the mirror entry is freed. -/
def execTwinRetire (h : TwinHdr) (idx : BitVec 14) (s : State) : Res :=
  .next (s.twinRecv h (fun t =>
    { t with twin := { t.twin with mirrors := t.twin.mirrors.filter (fun m => decide (m.idx ≠ idx)) } }))

/-- `TWIN_RUNG` (R420): silence is not counted while the twin is in Nap or deeper. -/
def execTwinRung (h : TwinHdr) (rung : BitVec 3) (s : State) : Res :=
  .next (s.twinRecv h (fun t => { t with twin := { t.twin with peerRung := rung, quiet := decide (2 ≤ rung.toNat) } }))

/-- `TWIN_RESET` (R420): nor while it is in an announced warm reset. -/
def execTwinReset (h : TwinHdr) (s : State) : Res :=
  .next (s.twinRecv h (fun t => { t with twin := { t.twin with quiet := true } }))

/-- `TWIN_RESYNC` (R419). -/
def execTwinResync (h : TwinHdr) (s : State) : Res := .next (s.twinRecv h (fun t => if t.paired then t.sendLive else t))

/-- An entry's copy acknowledged: the descriptor that waits for it may be accepted (R66). -/
def State.entryAcked (s : State) (idx : BitVec 14) : State :=
  { s with
    fetched := s.fetched.map (fun p => (p.1, if p.2.tly = some idx.toNat then { p.2 with mirrored := true } else p.2))
    twin := { s.twin with waitAck := s.twin.waitAck.filter (fun i => decide (i ≠ idx)) } }

/-- `TWIN_ACK` (R419). Nothing waits for the acknowledgement of a queue record, a hand-over or a return. -/
def execTwinAck (h : TwinHdr) (k : TwinAckKind) (s : State) : Res :=
  .next (s.twinRecv h (fun t =>
    match k with
    | .entry idx => t.entryAcked idx
    | .qrec _ | .handoff _ | .ret => t))

end Sys2Proof.Machine
end

