-- ==== Sys2Proof/Machine/Reset.lean ====
section
/-! DEFINITION. Resets and start-up (R339, R340, R344, R431, R440 to R444, R451 to R459), and the test ports (R449, R450). -/

namespace Sys2Proof.Machine

/-! ## Resets requested by register (R452) -/

/-- A write of `BLK_RST_CMD` with `SCOPE` 1 to 4: discarded with `OVERRUN` while `BUSY`, and by a halted page (R473); else the reset
`f` begins. -/
def State.rstCmd (s : State) (scope idx : Nat) (f : State → State) : State :=
  s.guardWrite 0x00054 (fun t =>
    if t.halted .blk then t.parityCheck 0
    else if t.flag Fld.blkRstCmdBusy then t.wr Fld.blkRstCmdOverrun 1
    else
      let u := t.hostSet 0x00054 (if scope ≤ 2 then BitVec.ofNat 32 idx else t.reg 0x00054)
      f (({ u with gate := { u.gate with rst := some (scope, idx) } } : State).wr Fld.blkRstCmdBusy 1))

/-- A reset has ended: `BUSY` and `RST_DONE` where it was requested by register (R452, R456, R482). -/
def State.rstDone (s : State) (scope idx : Nat) : State :=
  if s.gate.rst = some (scope, idx) then
    (State.wr { s with gate := { s.gate with rst := none } } Fld.blkRstCmdBusy 0).status 0 2
  else s

/-! ## District reset (R454) -/

/-- A district reset asked for: it begins at once in a drained district, whose parked walkers are lost; elsewhere a fault closure
comes first, and the reset follows its census. A reset already under way is merged (R456). -/
def State.distResetAsked (s : State) (d : Nat) : State :=
  let x := s.dist d
  if x.inReset then s
  else if x.reasons ≠ 0 ∧ x.drained then
    let t : State := { s with walkers := s.walkers.filter (fun w => !lostWith d w) }
    (t.setReason d rsFault true).updDist d (fun y => { y with inReset := true, faultDone := true, renewed := false })
  else if x.reasons.getLsbD 3 then s
  else s.faultClose d

/-- The district's map entries with `VALID` 0 (R458). -/
def State.dropMapShare (s : State) (d : Nat) : State :=
  { s with
    map := s.map.foldl (fun m p => SMap.set 0 m p.1 (if p.1 / 2048 = d ∧ p.1 % 4 = 2 then p.2 &&& ~~~1 else p.2)) []
    mapBad := s.mapBad.filter (fun w => decide (w / 2048 ≠ d)) }

/-- A page's status, injection arms and snapshot count at their reset values. -/
def State.resetPage (s : State) (pg : Nat) : State := (s.resetStatus pg).setReg (pg * 0x1000 + 0x010) 0

/-- A district's stores that are not yet acknowledged, abandoned (R458). -/
def State.abandonStores (s : State) (d : Nat) : State :=
  let away (fr : AckFor) : Bool := match fr with
    | .store _ _ e => decide (e = d)
    | .result _ _ _ | .batch _ | .completion _ | .fault | .free => false
  State.shootTick { s with hostWr := s.hostWr.filter (fun h => !away h.fr) }

/-- The end of a district's reset (R454, R458): everything in the district as after reset, what R458 keeps kept. It stays closed with
`FAULT`; its router and links are in use again. -/
def State.distResetEnd (s0 : State) (d : Nat) (pass : Bool) : State :=
  let s := s0.relink d
  let x := s.dist d
  let y := { District.reset with
    reasons := x.reasons, warm := x.warm, high := x.high, trip := x.trip, sensFault := x.sensFault
    testFail := !pass, faultDone := true, renewed := true }
  let t := (s.dropMapShare d).setDist d y
  (((t.zeroUnit d).resetPage (0x40 + d)).wr (Fld.dstCoreCtlSplitDef d) 1).abandonStores d |>.rstDone 1 d

/-- `DISTRICT_RESET` (R454): as the host asks for it, or the end of a reset under way with its test's result. -/
def execDistrictReset (d : Dist) (host pass : Bool) (s : State) : Res :=
  .next (if host then s.rstCmd 1 d.val (fun t => t.distResetAsked d.val)
    else if (s.dist d.val).inReset then s.distResetEnd d.val pass
    else s)

/-! ## Stack identity (R339 to R341) -/

/-- The identity as the port reads it, with the `IDENT` arm: `HEIGHT` one higher (R510). -/
def State.readIdent (s : State) (p : Nat) (e : StackEnv) : State × StackEnv :=
  if s.armed (Fld.stkInjectIdent p) then
    (s.disarm (Fld.stkInjectIdent p), { e with ident := e.ident.map (fun i => { i with height := i.height + 1 }) })
  else (s, e)

/-- The heights a generation supports (R338). -/
def heightOk (gen h : Nat) : Bool := decide (h = 8) || decide (h = 12) || (decide (gen = 4) && decide (h = 16))

/-- The pin rate a port uses, in 0.1 Gb/s: the grade, capped by generation (R338). -/
def pinRate (i : StackIdent) : Nat :=
  if i.gen = 3 then min i.grade.toNat 96 else if i.gen = 4 then min i.grade.toNat 80 else 0

/-- Whether an identity is another stack than the one read at cold reset (R340). -/
def identDiffers (first : Option StackIdent) (i : StackIdent) : Bool :=
  match first with
  | none => false
  | some f => decide (f.vendor ≠ i.vendor) || decide (f.gen ≠ i.gen) || decide (f.height ≠ i.height) || decide (f.density ≠ i.density)

/-- `REASON` for what a port finds: `IDENT_CHANGED` for any identity that differs from the first (R340, R504), else the first of
R339's table that applies, 0 for a port in use. -/
def stackReason (first : Option StackIdent) (e : StackEnv) : Nat :=
  match e.ident with
  | none => 1
  | some i =>
    if identDiffers first i then 7
    else if i.gen ≠ 3 ∧ i.gen ≠ 4 then 2
    else if !heightOk i.gen.toNat i.height.toNat || decide (768 < i.height.toNat * i.density.toNat) then 3
    else if i.grade.toNat < 64 then 4
    else if !i.ecc then 5
    else if !e.trains then 6
    else 0

/-- `STK_ID0`, `STK_ID1` and `STK_CAP` show an identity (R341). -/
def State.showIdent (s : State) (p : Nat) (e : StackEnv) : State :=
  match e.ident with
  | none => s
  | some i =>
    let t := s.setReg (pageReg .stk p 0x044) (i.vendor ++ i.gen ++ i.height ++ i.density)
    let u := t.setReg (pageReg .stk p 0x048) (bitsAt 23 16 i.grade.toNat ||| bitsAt 15 8 (pinRate i) ||| bitsAt 3 1 i.odecc.toNat ||| bitsAt 0 0 (b2n i.ecc))
    u.setReg (pageReg .stk p 0x04C) (BitVec.ofNat 32 (i.height.toNat * i.density.toNat * 128))

/-- The identity mismatch detector (R340, R504). -/
def State.judgeMismatch (s : State) (p : Nat) (e : StackEnv) : State :=
  match e.ident with
  | none => s
  | some i => if identDiffers (s.port p).first i then s.report (some (8 + p, 3)) (some 5) (unitStk p) none else s

/-- A port's identity read and shown: the state, and what the port finds. -/
def State.identify (s : State) (p : Nat) (e0 : StackEnv) : State × Nat :=
  match s.readIdent p e0 with
  | (t, e) => ((t.showIdent p e).judgeMismatch p e, stackReason (t.port p).first e)

/-- The port marks itself absent (R339, R482). -/
def State.markAbsent (s : State) (p r : Nat) : State :=
  ((s.wr (Fld.stkStatusPresent p) 0).wr (Fld.stkStatusReason p) r).status (8 + p) 4

/-! ## Port reset (R455) -/

/-- The addresses of a port's dirty sectors. -/
def StackPort.dirtyAt (x : StackPort) : List Nat :=
  (x.evict ++ x.lines).flatMap (fun l => ((List.range 4).filter (fun i => (l.sec i).valid && (l.sec i).dirty)).map (fun i => l.addr + 64 * i))

/-- A port's dirty sectors lost, each reported as an uncorrectable event (R353, R455). -/
def State.loseDirty (s : State) (p : Nat) : State :=
  ((s.port p).dirtyAt.foldl (fun t a => t.codeReport p a .uncorrectable) s).updPort p (fun x => { x with lines := [], evict := [] })

/-- What R458 resets in a port's page: `UE_VALID`, `STK_UE_ADDR` and its counters. -/
def State.portPage (s : State) (p : Nat) : State :=
  ((s.zeroUnit (unitStk p)).wr (Fld.stkStatusUeValid p) 0).wr (Fld.stkUeAddrAddr p) 0

/-- The end of a port's reset (R455). -/
def State.portResetEnd (s : State) (p : Nat) (e : StackEnv) : State :=
  let was := s.present p
  let a := (if was && e.accepts then s.cleanPort p else s).portPage p
  match a.identify p e with
  | (b, r) =>
    let c := if !was then b else if r = 0 then b.cleanPort p else (b.markAbsent p r).loseDirty p
    let t := (c.scInvalAll p).updPort p (fun x => { x with inResetP := false })
    ((t.setReg (pageReg .stk p 0x010) 0).rstDone 2 p).shootTick

/-- `PORT_RESET` (R455): as the host asks for it, merged with one under way (R456), or its end with what the port finds. -/
def execPortReset (p : Port) (host : Bool) (stack : StackEnv) (s : State) : Res :=
  .next (if host then s.rstCmd 2 p.val (fun t => t.updPort p.val (fun x => { x with inResetP := true }))
    else if (s.port p.val).inResetP then s.portResetEnd p.val stack
    else s)

/-! ## The links -/

/-- The host link trained (R444): the largest power of two of good modules. The Bool says whether it is up. -/
def State.trainHost (s : State) (l : LinkEnv) : State × Bool :=
  let n := min (if s.pins.straps.hlGen then 8 else 4) l.modules.toNat
  let m : Nat := if 8 ≤ n then 8 else if 4 ≤ n then 4 else if 2 ≤ n then 2 else n
  let r := min 3 l.rate.toNat
  if m = 0 ∨ r = 0 then (((s.wr Fld.lnkLinkModules 0).wr Fld.lnkLinkRate 0).setLink 0, false)
  else (((s.wr Fld.lnkLinkModules m).wr Fld.lnkLinkRate r).setLink 2, true)

/-- Host writes not yet acknowledged are issued again (R438, R458). -/
def State.reissue (s : State) : State :=
  s.hostWr.foldl (fun t h => State.count { t with host := Memory.store t.host h.pa h.data } unitGate 4 h.data.length) s

/-- The end of a host link reset (R451, R458). -/
def State.hostLinkEnd (s : State) (l : LinkEnv) : State :=
  let t := (s.wr Fld.lnkLinkRetrains (min 255 (s.rd Fld.lnkLinkRetrains + 1))).setReg 0x01010 0
  match t.trainHost l with
  | (u, up) => ((if up then u.reissue else u).rstDone 3 0).shootTick

/-- `HOST_LINK_RESET` (R451): as the host asks for it, which the Gate acknowledges before the retrain, or the retrain itself. -/
def execHostLinkReset (host : Bool) (link : LinkEnv) (s : State) : Res :=
  .next (if host then s.rstCmd 3 0 (fun t => t.setLink 1)
    else if s.phase = .up then s.hostLinkEnd link
    else s)

/-- `TWIN_LINK_RESET` (R419, R428, R451). -/
def execTwinLinkReset (host : Bool) (s : State) : Res :=
  .next (if host then s.rstCmd 4 0 (fun t => (t.linkReset false).rstDone 4 0)
    else if s.phase = .up then s.linkReset false
    else s)

/-! ## Cold and warm reset -/

/-- `BLK_STATUS.CAUSE` of a cold reset (R457). -/
def coldCode : ColdCause → Nat
  | .pokAon => 1 | .resetN => 2 | .pokMain => 3 | .testMode => 4

/-- Everything as after a cold reset, the straps sampled anew (R440, R451, R458); what lies outside the block stays. -/
def State.cold (s : State) (c : ColdCause) (straps : Straps) : State :=
  let pins := { Pins.reset with straps := straps, testMode := s.pins.testMode && decide (c ≠ .testMode), hlClk := s.pins.hlClk }
  let power := { Power.reset with vack := s.power.vack }
  State.wr { State.reset with pending := s.pending, host := s.host, pins := pins, power := power, freeCtr := s.freeCtr }
    Fld.blkStatusCause (coldCode c)

/-- `COLD_RESET` (R451): `POK_MAIN` is ignored in Deep (R443), and `TEST_MODE` falls only from high. -/
def execColdReset (c : ColdCause) (straps : Straps) (s : State) : Res :=
  .next (if c = .pokMain ∧ s.rd Fld.blkRungCurrent = 4 then s
    else if c = .testMode ∧ s.pins.testMode = false then s
    else s.cold c straps)

/-- `BLK_WARM` (R452): `BLK_CTL.WARM` written as 1. -/
def execBlkWarm (s : State) : Res := .next (s.guardWrite 0x00048 (fun t => t.wantWarm 8))

/-- `FABRIC_RESET` (R451). -/
def execFabricReset (s : State) : Res := .next (s.wantWarm 9)

/-- The bits of a page's own registers that a warm reset keeps (R458): configuration fields and the items R458 names. -/
def PageKind.warmOwn (k : PageKind) (o : Nat) : Word :=
  let rw := ((SMap.find k.regs o).getD ⟨0, 0, 0⟩).rw
  match k with
  | .blk => if o = 0x04C then 0xFFF00200 else if o = 0x050 then 0 else rw
  | .lnk => if o = 0x04C then 0xFFFFFFFF else rw
  | .twn | .err => 0xFFFFFFFF
  | .ch => rw
  | .pwr => if o = 0x044 then 0x7F7F8000 else if o = 0x04C then 0xFFFFFFFF else rw
  | .stk => if o < 0x054 then 0xFFFFFFFF else rw
  | .dst => if o = 0x054 then rw &&& ~~~0x30 else if o = 0x068 then 0xFFFFFFFF else rw
  | .que => if o = 0x064 then 0 else if o = 0x050 ∨ o = 0x080 then 0xFFFFFFFF else rw
  | .tly | .ten | .map | .ctr => 0

/-- The bits of a register that a warm reset keeps (R458). -/
def warmKeep (off : Nat) : Word :=
  let o := off % 0x1000
  match pageOf (offPage off) with
  | none => 0
  | some (k, _) =>
    if o = 0x004 ∨ o = 0x00C ∨ o = 0x014 ∨ o = 0x01C then 0xFFFFFFFF
    else if o = 0x008 then (if k = .err then 0xFFFFFFFF else 0)
    else if o < 0x040 then 0
    else k.warmOwn o

/-- The registers after a warm reset (R458, R459). -/
def warmRegs (m : SMap Word) : SMap Word :=
  m.foldl (fun acc p => regsSet acc p.1 ((p.2 &&& warmKeep p.1) ||| ((regAt p.1).reset &&& ~~~(warmKeep p.1)))) []

/-- A stack port after its cache is cleaned and its logic reset. -/
def StackPort.warm (x : StackPort) : StackPort := { StackPort.reset with first := x.first, kept := x.kept }

/-- What the twin port keeps through a warm reset: mirror entries, queue records and the owner word as last seen. -/
def Twin.warm (x : Twin) : Twin := { Twin.reset with mirrors := x.mirrors, qrecs := x.qrecs, owner := x.owner }

/-- The Counting House after a warm reset: accounts at zero (R386); the acceptance order goes on. -/
def House.warm (x : House) : House := { House.reset with accepts := x.accepts }

/-- Every unit outside the always-on island reset (R453 step 5, R458). -/
def State.warmUnits (s : State) : State :=
  { s with
    regs := warmRegs s.regs, live := [], hold := [], map := mapInvalid s.map, mapBad := [], hostWr := [], fetched := [], cancels := []
    queErrS := [], seqWait := [], batches := s.batches.filter (fun x => decide (x.st ≠ .isSealed)), tallyStop := [], stamps := [], xc := [], faults := []
    reports := [], contribs := [], locks := [], walkers := [], links := [], msgs := []
    stk := s.stk.map (fun p => (p.1, p.2.warm))
    dists := s.dists.foldl (fun m p => SMap.set District.reset m p.1 { District.reset with testFail := p.2.testFail }) []
    gate := { Gate.reset with irqs := s.gate.irqs }
    house := s.house.warm
    power := { s.power with rungOut := 0 }
    twin := s.twin.warm
    phase := .starting false }

/-- `WARM_RESET` (R453): once one is triggered. -/
def execWarmReset (s : State) : Res :=
  .next (if s.phase = .warmWanted then
      let t := s.twinSend .reset
      let u := ((List.range 6).filter t.present).foldl State.cleanPort t
      u.dropCopies.warmUnits.wr Fld.blkStatusStep 2
    else s)

/-! ## Start-up (R457) -/

/-- Step 3 after a cold reset: the array test. -/
def State.arrayTest (s : State) (env : StartEnv) : State :=
  let bad := allDists.filter (fun d => env.failed.any (fun x => decide (x.val = d)))
  let t := bad.foldl (fun u d => u.updDist d (fun x => { x with testFail := true })) s
  (t.wr Fld.blkStatusBistDist bad.length).wr Fld.blkStatusStripFail (b2n env.stripFail)

/-- Step 4 for one port: identity and training (R339, R340); a cold start-up takes the stack as it finds it. -/
def State.portStart (s : State) (cold : Bool) (e : StackEnv) (p : Nat) : State :=
  match s.identify p e with
  | (t, r) =>
    let u := if cold then t.updPort p (fun x => { x with first := e.ident }) else t
    if r = 0 then (u.wr (Fld.stkStatusPresent p) 1).wr (Fld.stkStatusReason p) 0 else u.markAbsent p r

/-- Steps 2 to 4. -/
def State.startUnits (s : State) (cold : Bool) (env : StartEnv) : State :=
  let t := if cold then s.arrayTest env else s
  (List.range 6).foldl (fun u p => u.portStart cold (env.ports.getD p { ident := none, trains := false, accepts := false }) p) t

/-- Where a scene address goes when the interleave changes: the same place in its stack, if the new interleave uses it. -/
def State.movedTo (s t : State) (a : Nat) : Option Nat :=
  match s.portAt a with
  | none => none
  | some (p, loc) => if loc < t.capC then t.sceneOf p loc else none

/-- One byte of a stack, by port and port-local address, put where the interleave in force has it, or kept with its port. -/
def State.putStack (t : State) (p loc : Nat) (b : Byte) : State :=
  match (if loc < t.capC then t.sceneOf p loc else none) with
  | some a => { t with scene := Memory.setByte t.scene a b }
  | none => t.updPort p (fun x => { x with kept := Memory.setByte x.kept loc b })

/-- Scene memory laid out anew over what the stacks hold (R344). -/
def State.layOut (s : State) (ps : List Nat) (c : Nat) : State :=
  let t0 : State := { s with ports := ps, capC := c, scene := [], codeErr := [], poison := [], stk := s.stk.map (fun p => (p.1, { p.2 with kept := [] })) }
  let bytes : List (Nat × Nat × Byte) :=
    s.scene.filterMap (fun x => (s.portAt x.1).map (fun q => (q.1, q.2, x.2))) ++ s.stk.flatMap (fun q => q.2.kept.map (fun x => (q.1, x.1, x.2)))
  let t := bytes.foldl (fun u x => u.putStack x.1 x.2.1 x.2.2) t0
  { t with
    codeErr := s.codeErr.foldl (fun m x => match s.movedTo t0 (x.1 * 8) with
      | some a => SMap.set 0 m (a / 8) x.2
      | none => m) []
    poison := s.poison.filterMap (fun w => (s.movedTo t0 (w * 8)).map (fun a => a / 8)) }

/-- Step 6: the interleave fixed (R342 to R344), then every cache invalid (R360). -/
def State.fixInterleave (s : State) : State :=
  let ps := (List.range 6).filter s.present
  let caps := ps.map (fun p => s.rd (Fld.stkCapCap p) * 2 ^ 20)
  let c := caps.foldl min (caps.headD 0) / 65536 * 65536
  let t := if ps = s.ports ∧ c = s.capC then s else s.layOut ps c
  ((List.range 6).foldl State.scInvalAll t).dcInvalAll.ncInvalAll

/-- Step 7: the twin link (R416). -/
def State.startTwin (s : State) (trains : Bool) : State :=
  if s.pins.straps.twin && trains then
    let t : State := { s with twin := { s.twin with linkUp := true, lstate := 2 } }
    if t.twnMode = 0 then t else (t.setTwnState 1).twinSend (.ident t.ownIdent)
  else if s.twnMode = 0 then s
  else (s.setTwnState 1).wr Fld.twnStatusReason 1

/-- Step 8: fencing and the tally's recovery (R428, R431). Entries wait for the claim where it does not succeed at once. -/
def State.recover (s : State) : State :=
  let t := s.wr Fld.blkStatusTallyLive (b2n (decide (s.batches ≠ [])))
  if t.twnMode = 0 then
    let u := ((t.wr Fld.twnStatusFenced 0).wr Fld.twnStatusLent 0).setTwnState 0
    u.ownLive.foldl (fun v x => v.replayOwn x) u
  else
    let isOwn (x : Batch) : Bool := !x.bid.held
    let u : State := { t with batches := updAll isOwn (fun x => { x with handed := true }) t.batches }
    let v := u.askFence.fenceNow
    (v.batches.filter (·.bid.held)).foldl (fun w x =>
      if w.flag Fld.twnStatusHolding then (w.updBatch x.bid (fun y => y.anew)).replayEntry x.bid else w.dropHeld x false) v

/-- The reasons that keep a district closed when start-up ends (R193, R457). -/
def State.startReasons (s : State) (d : Nat) : BitVec 6 :=
  let b (n : Nat) (on : Bool) : BitVec 6 := if on then BitVec.ofNat 6 (2 ^ n) else 0
  b rsHost (s.flag (Fld.dstCtlClose d)) ||| b rsRung (decide (2 ≤ s.rd (Fld.dstRungTarget d))) ||| b rsFault (s.dist d).testFail
    ||| b rsNoSide (!s.flag (Fld.dstSideBaseEn d))

/-- Step 9: the open set and the tables; the route epoch counts the change of the open set (R162). -/
def State.openSet (s : State) : State :=
  let t := allDists.foldl (fun t d =>
    let r := t.startReasons d
    let u := t.updDist d (fun x => { x with reasons := r, drained := decide (r ≠ 0), faultDone := x.testFail, renewed := x.testFail })
    if r = 0 then u.status (0x40 + d) 0 else u) s
  if allDists.any t.isOpen then t.reroute else t.isolate.wantRound

/-- Step 10: `READY`. -/
def State.nowReady (s : State) : State :=
  ((State.wr { s with phase := .up } Fld.blkStatusReady 1).wr Fld.blkStatusStep 0).status 0 0 |>.askEvent

/-- Steps 5 to 10: the host link, without which start-up is held, then the rest. -/
def State.startRest (s : State) (cold : Bool) (env : StartEnv) : State :=
  let wait : State := State.wr { s with phase := .holding cold } Fld.blkStatusStep 5
  if !s.pins.hlClk then wait
  else
    match s.trainHost env.link with
    | (t, false) => State.wr { t with phase := .holding cold } Fld.blkStatusStep 5
    | (t, true) =>
      let u := t.fixInterleave.startTwin env.twinTrains
      let v := if cold then u else u.recover
      v.openSet.nowReady

/-- Whether step 2 waits for its voltage exchange (R399, R457). -/
def State.voltWaits (s : State) : Bool := decide (s.rd Fld.pwrVstatusAcked ≠ s.voltCode 0)

/-- `STARTUP` (R457): from where it stands, with what it finds. A failure of the strips ends it for good. -/
def execStartup (env : StartEnv) (s : State) : Res :=
  .next (match s.phase with
    | .up | .warmWanted => s
    | .holding cold => s.startRest cold env
    | .starting cold =>
      if s.flag Fld.blkStatusStripFail then s.wr Fld.blkStatusStep 3
      else if s.voltWaits then s.wr Fld.blkStatusStep 2
      else
        let t := s.startUnits cold env
        if t.flag Fld.blkStatusStripFail then t.wr Fld.blkStatusStep 3 else t.startRest cold env)

/-- `HL_REFCLK_ARRIVAL` (R441). -/
def execHlRefclkArrival (s : State) : Res := .next { s with pins := { s.pins with hlClk := true } }

/-! ## Test ports (R449, R450) -/

/-- The `n` low bits of a number, lowest first. -/
def lsbFirst (n v : Nat) : List Bool := (List.range n).map (fun i => v.testBit i)

/-- The boundary register: the pins of R440 and the signals of R443, in their order. -/
def State.boundary (s : State) : List Bool :=
  let p := s.pins.straps
  [true, true, s.power.pokMain, s.pins.testMode] ++ lsbFirst 1 p.twnSide.val ++ lsbFirst 2 p.ncw.toNat ++ [p.hlGen, p.twin] ++ lsbFirst 11 p.mfr.toNat
    ++ [s.flag Fld.blkStatusReady] ++ lsbFirst 7 (s.rd Fld.pwrVstatusRequest) ++ [s.power.vreq, s.power.vack] ++ lsbFirst 10 (s.rd Fld.pwrTempMax)
    ++ [s.power.ttog] ++ lsbFirst 3 s.power.rungOut.toNat

/-- The identification code (R450). -/
def State.idCode (s : State) : BitVec 32 := (0x3 : BitVec 4) ++ (0x7E01 : BitVec 16) ++ s.pins.straps.mfr ++ (1 : BitVec 1)

/-- The instruction that a code runs: the bypass for a code not listed, or not available with `TEST_MODE` low. -/
def testCode (p : TestPort) (mode : Bool) (code : BitVec 4) : BitVec 4 :=
  match p with
  | .jtag => if code = 0x1 ∨ code = 0x2 ∨ (code = 0x0 ∧ mode) then code else 0xF
  | .wrapper => if mode ∧ (code = 0x1 ∨ code = 0x2 ∨ code = 0x8 ∨ code = 0x9) then code else 0x0

/-- What the selected data register holds. The contents of the wrapper's own chains are not in the spec: none is modelled. -/
def State.testData (s : State) (p : TestPort) (code : BitVec 4) (fails : List Nat) : List Bool :=
  match p with
  | .jtag => if code = 0x1 then lsbFirst 32 s.idCode.toNat else if code = 0xF then [false] else s.boundary
  | .wrapper => if code = 0x0 then [false] else if code = 0x9 then (List.range 136).map (fun i => decide (i ∈ fails)) else []

/-- `TEST_PORT_INSTRUCTION` (R449). -/
def execTestPortInstruction (p : TestPort) (code : BitVec 4) (fails : List Nat) (s : State) : Res :=
  let c := testCode p s.pins.testMode code
  .next (match p with
    | .jtag => { s with pins := { s.pins with ir := c, dr := s.testData .jtag c fails } }
    | .wrapper => { s with pins := { s.pins with wir := c, dr := s.testData .wrapper c fails } })

/-- `TEST_MODE_RISE` (R449). -/
def execTestModeRise (s : State) : Res := .next { s with pins := { s.pins with testMode := true } }

end Sys2Proof.Machine
end

