-- ==== Sys2Proof/Machine/Dispatch.lean ====
section
/-! DEFINITION. The dispatch: one arm for each command, a direct call of its meaning. -/

namespace Sys2Proof.Machine

/-- The effect of a command on everything but the queue. -/
def exec (i : Instr) (s : State) : Host.Outcome State Fault Refusal :=
  match i with
  | .queTailWrite q v => Sys2Proof.Machine.execQueTailWrite q v s
  | .queDepthWrite q v => Sys2Proof.Machine.execQueDepthWrite q v s
  | .queRunSet q => Sys2Proof.Machine.execQueRunSet q s
  | .queRunClear q => Sys2Proof.Machine.execQueRunClear q s
  | .queCancel q => Sys2Proof.Machine.execQueCancel q s
  | .queResume q => Sys2Proof.Machine.execQueResume q s
  | .queEstWrite q v => Sys2Proof.Machine.execQueEstWrite q v s
  | .descriptorFetch q => Sys2Proof.Machine.execDescriptorFetch q s
  | .stamping q => Sys2Proof.Machine.execStamping q s
  | .pageWalkComplete r va => Sys2Proof.Machine.execPageWalkComplete r va s
  | .acceptance q => Sys2Proof.Machine.execAcceptance q s
  | .admissionRound => Sys2Proof.Machine.execAdmissionRound s
  | .dealRun => Sys2Proof.Machine.execDealRun s
  | .walkerEntering d => Sys2Proof.Machine.execWalkerEntering d s
  | .walkerArrival d => Sys2Proof.Machine.execWalkerArrival d s
  | .walkerReload d => Sys2Proof.Machine.execWalkerReload d s
  | .nodeStep d pick => Sys2Proof.Machine.execNodeStep d pick s
  | .triangleTest d pick tie => Sys2Proof.Machine.execTriangleTest d pick tie s
  | .loadDecision d => Sys2Proof.Machine.execLoadDecision d s
  | .plotLoadComplete d ch => Sys2Proof.Machine.execPlotLoadComplete d ch s
  | .copyDrainEnd d slot => Sys2Proof.Machine.execCopyDrainEnd d slot s
  | .mapLookup d => Sys2Proof.Machine.execMapLookup d s
  | .mapLookupReply d => Sys2Proof.Machine.execMapLookupReply d s
  | .doneNotice r => Sys2Proof.Machine.execDoneNotice r s
  | .resultWrite d => Sys2Proof.Machine.execResultWrite d s
  | .packWrite d => Sys2Proof.Machine.execPackWrite d s
  | .runFlush b => Sys2Proof.Machine.execRunFlush b s
  | .contribution pick => Sys2Proof.Machine.execContribution pick s
  | .candidateMessage d => Sys2Proof.Machine.execCandidateMessage d s
  | .tauReply d => Sys2Proof.Machine.execTauReply d s
  | .endNotice d => Sys2Proof.Machine.execEndNotice d s
  | .probeJob d pick => Sys2Proof.Machine.execProbeJob d pick s
  | .refitRepair b => Sys2Proof.Machine.execRefitRepair b s
  | .maintOperation b => Sys2Proof.Machine.execMaintOperation b s
  | .completionWrite b => Sys2Proof.Machine.execCompletionWrite b s
  | .sealCas b => Sys2Proof.Machine.execSealCas b s
  | .wakeMessage b => Sys2Proof.Machine.execWakeMessage b s
  | .eventInterrupt => Sys2Proof.Machine.execEventInterrupt s
  | .faultRecordWrite => Sys2Proof.Machine.execFaultRecordWrite s
  | .fringHeadWrite v => Sys2Proof.Machine.execFringHeadWrite v s
  | .hostWriteAck n => Sys2Proof.Machine.execHostWriteAck n s
  | .hostReadData pa data => Sys2Proof.Machine.execHostReadData pa data s
  | .apertureRead a len => Sys2Proof.Machine.execApertureRead a len s
  | .apertureWrite a data => Sys2Proof.Machine.execApertureWrite a data s
  | .regAccessMalformed off len write => Sys2Proof.Machine.execRegAccessMalformed off len write s
  | .registerWrite off v => Sys2Proof.Machine.execRegisterWrite off v s
  | .rcRead off delivered => Sys2Proof.Machine.execRcRead off delivered s
  | .pgCtlWrite pg v => Sys2Proof.Machine.execPgCtlWrite pg v s
  | .crcLoad d => Sys2Proof.Machine.execCrcLoad d s
  | .pgLockWrite pg v => Sys2Proof.Machine.execPgLockWrite pg v s
  | .pgSnap pg => Sys2Proof.Machine.execPgSnap pg s
  | .ctrSnap => Sys2Proof.Machine.execCtrSnap s
  | .counterWrite hi v => Sys2Proof.Machine.execCounterWrite hi v s
  | .injectArm pg v => Sys2Proof.Machine.execInjectArm pg v s
  | .balanceCapture => Sys2Proof.Machine.execBalanceCapture s
  | .grantAdd kind index => Sys2Proof.Machine.execGrantAdd kind index s
  | .grantSet kind index => Sys2Proof.Machine.execGrantSet kind index s
  | .mapDataWrite n v => Sys2Proof.Machine.execMapDataWrite n v s
  | .mapHash v => Sys2Proof.Machine.execMapHash v s
  | .tenDataWrite n v => Sys2Proof.Machine.execTenDataWrite n v s
  | .tallyWindowRead n => Sys2Proof.Machine.execTallyWindowRead n s
  | .dstClose d => Sys2Proof.Machine.execDstClose d s
  | .dstOpen d => Sys2Proof.Machine.execDstOpen d s
  | .dstReopen d => Sys2Proof.Machine.execDstReopen d s
  | .dstSideBaseWrite d v => Sys2Proof.Machine.execDstSideBaseWrite d v s
  | .orderlyClosure d => Sys2Proof.Machine.execOrderlyClosure d s
  | .faultClosure d => Sys2Proof.Machine.execFaultClosure d s
  | .censusMarker d => Sys2Proof.Machine.execCensusMarker d s
  | .censusReplay => Sys2Proof.Machine.execCensusReplay s
  | .avenueMessageReceive n crcOk => Sys2Proof.Machine.execAvenueMessageReceive n crcOk s
  | .avenueReplay n crcOk => Sys2Proof.Machine.execAvenueReplay n crcOk s
  | .meterReport m beads b => Sys2Proof.Machine.execMeterReport m beads b s
  | .voltageRequest => Sys2Proof.Machine.execVoltageRequest s
  | .voltageAck => Sys2Proof.Machine.execVoltageAck s
  | .sensorReading d r => Sys2Proof.Machine.execSensorReading d r s
  | .stepRingExpiry d lane => Sys2Proof.Machine.execStepRingExpiry d lane s
  | .coreRingExpiry d => Sys2Proof.Machine.execCoreRingExpiry d s
  | .tileRingExpiry d t => Sys2Proof.Machine.execTileRingExpiry d t s
  | .stackReqRingExpiry p => Sys2Proof.Machine.execStackReqRingExpiry p s
  | .hostRingExpiry => Sys2Proof.Machine.execHostRingExpiry s
  | .vackRingExpiry => Sys2Proof.Machine.execVackRingExpiry s
  | .sensorRingExpiry d => Sys2Proof.Machine.execSensorRingExpiry d s
  | .stackFill p st addr => Sys2Proof.Machine.execStackFill p st addr s
  | .evictionWrite p => Sys2Proof.Machine.execEvictionWrite p s
  | .prefetch p st => Sys2Proof.Machine.execPrefetch p st s
  | .scrubRead p => Sys2Proof.Machine.execScrubRead p s
  | .stackRefresh p => Sys2Proof.Machine.execStackRefresh p s
  | .mopInval target => Sys2Proof.Machine.execMopInval target s
  | .mopClean target => Sys2Proof.Machine.execMopClean target s
  | .mopCleanInval target => Sys2Proof.Machine.execMopCleanInval target s
  | .mopZero target => Sys2Proof.Machine.execMopZero target s
  | .mopComplete => Sys2Proof.Machine.execMopComplete s
  | .scInv p => Sys2Proof.Machine.execScInv p s
  | .dcInv => Sys2Proof.Machine.execDcInv s
  | .ncInv => Sys2Proof.Machine.execNcInv s
  | .cacheEnable c => Sys2Proof.Machine.execCacheEnable c s
  | .cacheDisable c => Sys2Proof.Machine.execCacheDisable c s
  | .shootdownGo => Sys2Proof.Machine.execShootdownGo s
  | .groupLaunch d => Sys2Proof.Machine.execGroupLaunch d s
  | .splitChange d => Sys2Proof.Machine.execSplitChange d s
  | .preemption d => Sys2Proof.Machine.execPreemption d s
  | .groupPark g => Sys2Proof.Machine.execGroupPark g s
  | .groupRestore d => Sys2Proof.Machine.execGroupRestore d s
  | .trapReplay d h => Sys2Proof.Machine.execTrapReplay d h s
  | .trapKill d h => Sys2Proof.Machine.execTrapKill d h s
  | .mtxComplete g n => Sys2Proof.Machine.execMtxComplete g n s
  | .fillComplete g n => Sys2Proof.Machine.execFillComplete g n s
  | .sendDelivery d => Sys2Proof.Machine.execSendDelivery d s
  | .sendStatus d => Sys2Proof.Machine.execSendStatus d s
  | .iadd g f => Sys2Proof.Machine.execIadd g f s
  | .isub g f => Sys2Proof.Machine.execIsub g f s
  | .imul g f => Sys2Proof.Machine.execImul g f s
  | .imulhi g f => Sys2Proof.Machine.execImulhi g f s
  | .and g f => Sys2Proof.Machine.execAnd g f s
  | .or g f => Sys2Proof.Machine.execOr g f s
  | .xor g f => Sys2Proof.Machine.execXor g f s
  | .shl g f => Sys2Proof.Machine.execShl g f s
  | .shr g f => Sys2Proof.Machine.execShr g f s
  | .sar g f => Sys2Proof.Machine.execSar g f s
  | .imin g f => Sys2Proof.Machine.execImin g f s
  | .imax g f => Sys2Proof.Machine.execImax g f s
  | .umin g f => Sys2Proof.Machine.execUmin g f s
  | .umax g f => Sys2Proof.Machine.execUmax g f s
  | .imad g f => Sys2Proof.Machine.execImad g f s
  | .popc g f => Sys2Proof.Machine.execPopc g f s
  | .clz g f => Sys2Proof.Machine.execClz g f s
  | .mov g f => Sys2Proof.Machine.execMov g f s
  | .sel g f => Sys2Proof.Machine.execSel g f s
  | .udiv g f => Sys2Proof.Machine.execUdiv g f s
  | .urem g f => Sys2Proof.Machine.execUrem g f s
  | .fadd g f => Sys2Proof.Machine.execFadd g f s
  | .fsub g f => Sys2Proof.Machine.execFsub g f s
  | .fmul g f => Sys2Proof.Machine.execFmul g f s
  | .ffma g f => Sys2Proof.Machine.execFfma g f s
  | .fmin g f => Sys2Proof.Machine.execFmin g f s
  | .fmax g f => Sys2Proof.Machine.execFmax g f s
  | .fabs g f => Sys2Proof.Machine.execFabs g f s
  | .fneg g f => Sys2Proof.Machine.execFneg g f s
  | .frcp g f => Sys2Proof.Machine.execFrcp g f s
  | .frsq g f => Sys2Proof.Machine.execFrsq g f s
  | .fsqrt g f => Sys2Proof.Machine.execFsqrt g f s
  | .fdiv g f => Sys2Proof.Machine.execFdiv g f s
  | .ffloor g f => Sys2Proof.Machine.execFfloor g f s
  | .fceil g f => Sys2Proof.Machine.execFceil g f s
  | .fexp2 g f => Sys2Proof.Machine.execFexp2 g f s
  | .flog2 g f => Sys2Proof.Machine.execFlog2 g f s
  | .f2i g f => Sys2Proof.Machine.execF2i g f s
  | .i2f g f => Sys2Proof.Machine.execI2f g f s
  | .f2bf g f => Sys2Proof.Machine.execF2bf g f s
  | .f2h g f => Sys2Proof.Machine.execF2h g f s
  | .bf2f g f => Sys2Proof.Machine.execBf2f g f s
  | .h2f g f => Sys2Proof.Machine.execH2f g f s
  | .f2d g f => Sys2Proof.Machine.execF2d g f s
  | .d2f g f => Sys2Proof.Machine.execD2f g f s
  | .pk8 g f => Sys2Proof.Machine.execPk8 g f s
  | .pku8 g f => Sys2Proof.Machine.execPku8 g f s
  | .pk4 g f => Sys2Proof.Machine.execPk4 g f s
  | .pku4 g f => Sys2Proof.Machine.execPku4 g f s
  | .pkf4 g f => Sys2Proof.Machine.execPkf4 g f s
  | .up8 g f => Sys2Proof.Machine.execUp8 g f s
  | .upu8 g f => Sys2Proof.Machine.execUpu8 g f s
  | .up4 g f => Sys2Proof.Machine.execUp4 g f s
  | .upu4 g f => Sys2Proof.Machine.execUpu4 g f s
  | .upf4 g f => Sys2Proof.Machine.execUpf4 g f s
  | .icmp g f => Sys2Proof.Machine.execIcmp g f s
  | .ucmp g f => Sys2Proof.Machine.execUcmp g f s
  | .fcmp g f => Sys2Proof.Machine.execFcmp g f s
  | .pand g f => Sys2Proof.Machine.execPand g f s
  | .por g f => Sys2Proof.Machine.execPor g f s
  | .pxor g f => Sys2Proof.Machine.execPxor g f s
  | .pnot g f => Sys2Proof.Machine.execPnot g f s
  | .bra g f => Sys2Proof.Machine.execBra g f s
  | .braAny g f => Sys2Proof.Machine.execBraAny g f s
  | .braNone g f => Sys2Proof.Machine.execBraNone g f s
  | .braEmpty g f => Sys2Proof.Machine.execBraEmpty g f s
  | .call g f => Sys2Proof.Machine.execCall g f s
  | .callr g f => Sys2Proof.Machine.execCallr g f s
  | .ret g f => Sys2Proof.Machine.execRet g f s
  | .push g f => Sys2Proof.Machine.execPush g f s
  | .elseM g f => Sys2Proof.Machine.execElseM g f s
  | .brk g f => Sys2Proof.Machine.execBrk g f s
  | .reconv g f => Sys2Proof.Machine.execReconv g f s
  | .pop g f => Sys2Proof.Machine.execPop g f s
  | .barAll g f => Sys2Proof.Machine.execBarAll g f s
  | .barActive g f => Sys2Proof.Machine.execBarActive g f s
  | .wait g f => Sys2Proof.Machine.execWait g f s
  | .exit g f => Sys2Proof.Machine.execExit g f s
  | .trap g f => Sys2Proof.Machine.execTrap g f s
  | .nop g f => Sys2Proof.Machine.execNop g f s
  | .instructionFetch g => Sys2Proof.Machine.execInstructionFetch g s
  | .ldL g f => Sys2Proof.Machine.execLdL g f s
  | .stL g f => Sys2Proof.Machine.execStL g f s
  | .ldS g f => Sys2Proof.Machine.execLdS g f s
  | .fillL g f => Sys2Proof.Machine.execFillL g f s
  | .ldH g f => Sys2Proof.Machine.execLdH g f s
  | .stH g f => Sys2Proof.Machine.execStH g f s
  | .mma g f => Sys2Proof.Machine.execMma g f s
  | .msmax g f => Sys2Proof.Machine.execMsmax g f s
  | .mred g f => Sys2Proof.Machine.execMred g f s
  | .send g f => Sys2Proof.Machine.execSend g f s
  | .recv g f => Sys2Proof.Machine.execRecv g f s
  | .slotLock g f => Sys2Proof.Machine.execSlotLock g f s
  | .slotLd g f => Sys2Proof.Machine.execSlotLd g f s
  | .slotSt g f => Sys2Proof.Machine.execSlotSt g f s
  | .slotUnlock g f => Sys2Proof.Machine.execSlotUnlock g f s
  | .tid g f => Sys2Proof.Machine.execTid g f s
  | .amask g f => Sys2Proof.Machine.execAmask g f s
  | .v2u g f => Sys2Proof.Machine.execV2u g f s
  | .u2v g f => Sys2Proof.Machine.execU2v g f s
  | .shfl g f => Sys2Proof.Machine.execShfl g f s
  | .vote g f => Sys2Proof.Machine.execVote g f s
  | .blkRungWrite v => Sys2Proof.Machine.execBlkRungWrite v s
  | .blockRungEntry => Sys2Proof.Machine.execBlockRungEntry s
  | .blockWake w => Sys2Proof.Machine.execBlockWake w s
  | .dstRungWrite d v => Sys2Proof.Machine.execDstRungWrite d v s
  | .districtRungEntry d => Sys2Proof.Machine.execDistrictRungEntry d s
  | .districtQuietWake d => Sys2Proof.Machine.execDistrictQuietWake d s
  | .coldReset c straps => Sys2Proof.Machine.execColdReset c straps s
  | .blkWarm => Sys2Proof.Machine.execBlkWarm s
  | .fabricReset => Sys2Proof.Machine.execFabricReset s
  | .warmReset => Sys2Proof.Machine.execWarmReset s
  | .startup env => Sys2Proof.Machine.execStartup env s
  | .districtReset d host pass => Sys2Proof.Machine.execDistrictReset d host pass s
  | .portReset p host stack => Sys2Proof.Machine.execPortReset p host stack s
  | .hostLinkReset host link => Sys2Proof.Machine.execHostLinkReset host link s
  | .twinLinkReset host => Sys2Proof.Machine.execTwinLinkReset host s
  | .pokMainRise => Sys2Proof.Machine.execPokMainRise s
  | .twnModeWrite v => Sys2Proof.Machine.execTwnModeWrite v s
  | .takeover => Sys2Proof.Machine.execTakeover s
  | .fence => Sys2Proof.Machine.execFence s
  | .beaconRingExpiry => Sys2Proof.Machine.execBeaconRingExpiry s
  | .handoff b => Sys2Proof.Machine.execHandoff b s
  | .sideReturn => Sys2Proof.Machine.execSideReturn s
  | .twinIdent h id => Sys2Proof.Machine.execTwinIdent h id s
  | .twinBeacon h => Sys2Proof.Machine.execTwinBeacon h s
  | .twinQrec h r => Sys2Proof.Machine.execTwinQrec h r s
  | .twinEntry h idx bytes => Sys2Proof.Machine.execTwinEntry h idx bytes s
  | .twinState h idx st => Sys2Proof.Machine.execTwinState h idx st s
  | .twinRetire h idx => Sys2Proof.Machine.execTwinRetire h idx s
  | .twinHandoff h idx => Sys2Proof.Machine.execTwinHandoff h idx s
  | .twinSealed h q seq => Sys2Proof.Machine.execTwinSealed h q seq s
  | .twinRung h rung => Sys2Proof.Machine.execTwinRung h rung s
  | .twinReset h => Sys2Proof.Machine.execTwinReset h s
  | .twinResync h => Sys2Proof.Machine.execTwinResync h s
  | .twinReturn h side word => Sys2Proof.Machine.execTwinReturn h side word s
  | .twinAck h k => Sys2Proof.Machine.execTwinAck h k s
  | .voltageAckFall => Sys2Proof.Machine.execVoltageAckFall s
  | .hlRefclkArrival => Sys2Proof.Machine.execHlRefclkArrival s
  | .testPortInstruction p code fails => Sys2Proof.Machine.execTestPortInstruction p code fails s
  | .testModeRise => Sys2Proof.Machine.execTestModeRise s
  | .hostLinkL1Entry => Sys2Proof.Machine.execHostLinkL1Entry s
  | .linkStateExit twin => Sys2Proof.Machine.execLinkStateExit twin s
  | .registerRead off => Sys2Proof.Machine.execRegisterRead off s

end Sys2Proof.Machine
end

