-- ==== Sys2Proof/WellFormed.lean ====
section
/-! DEFINITION. Well-formed commands: the operands that the world outside can present to the block. `exec` does not rest on it. -/

namespace Sys2Proof

open Sys2Proof.Machine

/-- A window offset of a 4-byte aligned access (R445). -/
def aligned (off : BitVec 20) : Bool := decide (off.toNat % 4 = 0)

/-- An access that is not 4 bytes long and aligned, or lies beyond the window (R445). -/
def malformedAt (off : BitVec 32) (len : Nat) : Bool := decide (len ≠ 4) || decide (off.toNat % 4 ≠ 0) || decide (2 ^ 20 ≤ off.toNat)

/-- A page of the window (R460). -/
def isPage (pg : BitVec 8) : Bool := (pageOf pg.toNat).isSome

/-- The length of a host transfer: at most 256 bytes (R445). -/
def transfer (n : Nat) : Bool := decide (0 < n) && decide (n ≤ 256)

/-- An account: one of four classes, or a tenant (R383). -/
def accountAt (cls : Bool) (index : BitVec 12) : Bool := !cls || decide (index.toNat < 4)

/-- What training can find: up to eight modules, and a rate code of `LNK_LINK` (R444, R448). -/
def linkOk (l : LinkEnv) : Bool := decide (l.modules.toNat ≤ 8) && decide (l.rate.toNat ≤ 3)

/-- The bytes of a batch's entries: 1, 3 or 5 of 32 bytes (R63, R423). -/
def entryLen (n : Nat) : Bool := decide (n = 32) || decide (n = 96) || decide (n = 160)

/-- A well-formed command. -/
def Instr.wf (i : Instr) : Bool :=
  match i with
  | .hostReadData pa data => decide (0 < data.length ∧ pa.toNat + data.length ≤ 2 ^ 52)
  | .apertureRead _ len => transfer len
  | .apertureWrite _ data => transfer data.length
  | .regAccessMalformed off len _ => malformedAt off len
  | .registerWrite off _ => aligned off
  | .rcRead off _ => aligned off
  | .pgCtlWrite pg _ => isPage pg
  | .pgLockWrite pg _ => isPage pg
  | .pgSnap pg => isPage pg
  | .injectArm pg _ => isPage pg
  | .grantAdd kind index => accountAt kind index
  | .grantSet kind index => accountAt kind index
  | .stackFill _ _ addr => decide (addr.toNat % 64 = 0)
  | .startup env => decide (env.ports.length = 6) && linkOk env.link
  | .hostLinkReset _ link => linkOk link
  | .twinEntry _ _ bytes => entryLen bytes.length
  | .testPortInstruction _ _ fails => fails.all (fun n => decide (n < 136))
  | .registerRead off => aligned off
  | .queTailWrite _ _ | .queDepthWrite _ _ | .queRunSet _ | .queRunClear _ | .queCancel _ | .queResume _ | .queEstWrite _ _
  | .descriptorFetch _ | .stamping _ | .pageWalkComplete _ _ | .acceptance _ | .admissionRound | .dealRun | .walkerEntering _
  | .walkerArrival _ | .walkerReload _ | .nodeStep _ _ | .triangleTest _ _ _ | .loadDecision _ | .plotLoadComplete _ _ | .copyDrainEnd _ _
  | .mapLookup _ | .mapLookupReply _ | .doneNotice _ | .resultWrite _ | .packWrite _ | .runFlush _ | .contribution _ | .candidateMessage _
  | .tauReply _ | .endNotice _ | .probeJob _ _ | .refitRepair _ | .maintOperation _ | .completionWrite _ | .sealCas _ | .wakeMessage _
  | .eventInterrupt | .faultRecordWrite | .fringHeadWrite _ | .hostWriteAck _ | .crcLoad _ | .ctrSnap | .counterWrite _ _ | .balanceCapture
  | .mapDataWrite _ _ | .mapHash _ | .tenDataWrite _ _ | .tallyWindowRead _ | .dstClose _ | .dstOpen _ | .dstReopen _
  | .dstSideBaseWrite _ _ | .orderlyClosure _ | .faultClosure _ | .censusMarker _ | .censusReplay | .avenueMessageReceive _ _
  | .avenueReplay _ _ | .meterReport _ _ _ | .voltageRequest | .voltageAck | .sensorReading _ _ | .stepRingExpiry _ _ | .coreRingExpiry _
  | .tileRingExpiry _ _ | .stackReqRingExpiry _ | .hostRingExpiry | .vackRingExpiry | .sensorRingExpiry _ | .evictionWrite _
  | .prefetch _ _ | .scrubRead _ | .stackRefresh _ | .mopInval _ | .mopClean _ | .mopCleanInval _ | .mopZero _ | .mopComplete | .scInv _
  | .dcInv | .ncInv | .cacheEnable _ | .cacheDisable _ | .shootdownGo | .groupLaunch _ | .splitChange _ | .preemption _ | .groupPark _
  | .groupRestore _ | .trapReplay _ _ | .trapKill _ _ | .mtxComplete _ _ | .fillComplete _ _ | .sendDelivery _ | .sendStatus _ | .iadd _ _
  | .isub _ _ | .imul _ _ | .imulhi _ _ | .and _ _ | .or _ _ | .xor _ _ | .shl _ _ | .shr _ _ | .sar _ _ | .imin _ _ | .imax _ _
  | .umin _ _ | .umax _ _ | .imad _ _ | .popc _ _ | .clz _ _ | .mov _ _ | .sel _ _ | .udiv _ _ | .urem _ _ | .fadd _ _ | .fsub _ _
  | .fmul _ _ | .ffma _ _ | .fmin _ _ | .fmax _ _ | .fabs _ _ | .fneg _ _ | .frcp _ _ | .frsq _ _ | .fsqrt _ _ | .fdiv _ _ | .ffloor _ _
  | .fceil _ _ | .fexp2 _ _ | .flog2 _ _ | .f2i _ _ | .i2f _ _ | .f2bf _ _ | .f2h _ _ | .bf2f _ _ | .h2f _ _ | .f2d _ _ | .d2f _ _
  | .pk8 _ _ | .pku8 _ _ | .pk4 _ _ | .pku4 _ _ | .pkf4 _ _ | .up8 _ _ | .upu8 _ _ | .up4 _ _ | .upu4 _ _ | .upf4 _ _ | .icmp _ _
  | .ucmp _ _ | .fcmp _ _ | .pand _ _ | .por _ _ | .pxor _ _ | .pnot _ _ | .bra _ _ | .braAny _ _ | .braNone _ _ | .braEmpty _ _
  | .call _ _ | .callr _ _ | .ret _ _ | .push _ _ | .elseM _ _ | .brk _ _ | .reconv _ _ | .pop _ _ | .barAll _ _ | .barActive _ _
  | .wait _ _ | .exit _ _ | .trap _ _ | .nop _ _ | .instructionFetch _ | .ldL _ _ | .stL _ _ | .ldS _ _ | .fillL _ _ | .ldH _ _ | .stH _ _
  | .mma _ _ | .msmax _ _ | .mred _ _ | .send _ _ | .recv _ _ | .slotLock _ _ | .slotLd _ _ | .slotSt _ _ | .slotUnlock _ _ | .tid _ _
  | .amask _ _ | .v2u _ _ | .u2v _ _ | .shfl _ _ | .vote _ _ | .blkRungWrite _ | .blockRungEntry | .blockWake _ | .dstRungWrite _ _
  | .districtRungEntry _ | .districtQuietWake _ | .coldReset _ _ | .blkWarm | .fabricReset | .warmReset | .districtReset _ _ _
  | .portReset _ _ _ | .twinLinkReset _ | .pokMainRise | .twnModeWrite _ | .takeover | .fence | .beaconRingExpiry | .handoff _
  | .sideReturn | .twinIdent _ _ | .twinBeacon _ | .twinQrec _ _ | .twinState _ _ _ | .twinRetire _ _ | .twinHandoff _ _
  | .twinSealed _ _ _ | .twinRung _ _ | .twinReset _ | .twinResync _ | .twinReturn _ _ _ | .twinAck _ _ | .voltageAckFall
  | .hlRefclkArrival | .testModeRise | .hostLinkL1Entry | .linkStateExit _ => true

end Sys2Proof
end

