-- ==== Sys2Proof/Safety.lean ====
section
/-! DEFINITION. What statements are said in terms of: when an access is served, when a core instruction reaches the front of its group
and issues, and what a state keeps but for named parts. -/

namespace Sys2Proof.Machine

/-- A command answers a next state. -/
def Completes (i : Instr) (s : State) : Prop := ∃ t, exec i s = .next t

/-- A host write to a window offset is served, is not locked, and no injection arm turns it away (R457, R467, R510). -/
def State.opens (s : State) (off : Nat) : Bool :=
  decide (s.serveWrite off = .yes) && !s.armed Fld.errInjectHlProtocol && !s.armed Fld.errInjectLockWrite && !s.lockedReg off

/-- A host read of a window offset is served and no injection arm turns it away (R411, R510). -/
def State.opensRead (s : State) (off : Nat) : Bool := !s.readHeld (offPage off) && !s.armed Fld.errInjectHlProtocol

/-- An instruction word at the front of a group's stream may issue, its waits apart, and finds its registers without error (R225, R226, R236,
R237): the group comes before the other ready ones, the word is the one fetched, and no register it names is still to be written. -/
abbrev State.fronts (s : State) (r : GRef) (cls op : Nat) (f : Fields) (g : Group) : Prop :=
  s.coreOn r.dist.val = true ∧ s.group r.dist.val r.slot.val = some g ∧ s.heldGroup r.dist.val g = false
    ∧ s.leads r.dist.val r.slot.val cls g = true ∧ (g.ir = none ∨ g.ir = some (insWord cls op f))
    ∧ s.armed (Fld.dstInjectCore r.dist.val) = false ∧ g.nanPend = [] ∧ g.pc < g.codeLen ∧ g.pendingReg cls op f = false
    ∧ g.legal cls op f = true ∧ g.badRegs ((opForm cls op f).reads f) = []

/-- The state after a lane instruction (R236, R239): each active thread's words in the destination, the group at its next instruction,
the instruction counted. With no active thread nothing is written. -/
def State.laneNext (s : State) (r : GRef) (g : Group) (m : Form) (f : Fields) (val : Nat → List Word) : State :=
  s.retireIns r.dist.val r.slot.val (g.putLanes f val).next (g.keys (m.writes f))

/-- The state after an instruction that changes the group alone: the group as it is then, the instruction counted. -/
def State.ran (s : State) (r : GRef) (g : Group) : State := s.retireIns r.dist.val r.slot.val g []

/-- A twin message that is the next on a live link, received with no injection armed, by a block in Ready (R411, R419). -/
def State.hears (s : State) (h : TwinHdr) : Bool :=
  s.twin.linkUp && h.crcOk && decide (h.num = s.twin.recvNum) && !s.armed Fld.twnInjectSilence && decide (s.rd Fld.blkRungCurrent = 0)

/-- The state once a twin message is taken in, before its own effect (R419, R420): counted, its number used, the silence ring restarted. -/
def State.heard (s : State) : State :=
  let t := s.count unitTwn 1 1
  { t with twin := { t.twin with recvNum := t.twin.recvNum + 1, quiet := false, silent := false } }

/-- Two states that agree on everything but the districts, the counters and the arms. -/
def State.coreFrame (s t : State) : Prop := { t with dists := s.dists, live := s.live, regs := s.regs } = s

/-- The kind of a message of the avenues (R13, R163, R185, R212, R213, R258, R259). -/
def Payload.code : Payload → Nat
  | .walker _ _ _ _ _ => 0 | .lookup _ => 1 | .lookupReply _ _ _ => 2 | .candidates _ _ _ _ _ => 3 | .tau _ _ _ _ => 4
  | .endNotice _ _ _ _ _ => 5 | .send _ _ _ _ _ _ => 6 | .sendStatus _ _ _ _ => 7 | .marker => 8

/-- The message of a kind that a district's router hands over next. -/
abbrev State.gets (s : State) (d : Dist) (kind : Nat) (m : Msg) : Prop := s.nextMsg d.val (fun p => decide (p.code = kind)) = some m

/-- The memories in canonical form. -/
def State.memoryOk (s : State) : Bool := Memory.wf s.host && Memory.wf s.scene

end Sys2Proof.Machine
end

