-- ==== Sys2Proof/Certificates/Slice0/Obligations.lean ====
section
/-! DEFINITION. The statements for the provers: what the block does with its commands, by the numbered rules of the spec. -/

open Sys2Proof Sys2Proof.Machine

/-- Class INT (R514, R236, R239): each integer instruction at the front of its group completes with the word its row gives put into the
destination of every active thread, the group at its next instruction. -/
def Obligations.IntegerInstructionsComplete : Prop := ∀ (r : GRef) (f : Fields) (s : State) (g : Group),
  (s.fronts r 0 0x00 f g → exec (.iadd r f) s = .next (s.laneNext r g form2 f (fun j => [g.srcA f j + g.srcB f j])))
  ∧ (s.fronts r 0 0x01 f g → exec (.isub r f) s = .next (s.laneNext r g form2 f (fun j => [g.srcA f j - g.srcB f j])))
  ∧ (s.fronts r 0 0x02 f g → exec (.imul r f) s = .next (s.laneNext r g form2 f (fun j => [g.srcA f j * g.srcB f j])))
  ∧ (s.fronts r 0 0x03 f g → exec (.imulhi r f) s = .next (s.laneNext r g (formInt 0x03) f (fun j => [mulHi (decide (f.typ = 1)) (g.srcA f j) (g.srcB f j)])))
  ∧ (s.fronts r 0 0x04 f g → exec (.and r f) s = .next (s.laneNext r g form2 f (fun j => [g.srcA f j &&& g.srcB f j])))
  ∧ (s.fronts r 0 0x05 f g → exec (.or r f) s = .next (s.laneNext r g form2 f (fun j => [g.srcA f j ||| g.srcB f j])))
  ∧ (s.fronts r 0 0x06 f g → exec (.xor r f) s = .next (s.laneNext r g form2 f (fun j => [g.srcA f j ^^^ g.srcB f j])))
  ∧ (s.fronts r 0 0x07 f g → exec (.shl r f) s = .next (s.laneNext r g form2 f (fun j => [shlW (g.srcA f j) (g.srcB f j)])))
  ∧ (s.fronts r 0 0x08 f g → exec (.shr r f) s = .next (s.laneNext r g form2 f (fun j => [shrW (g.srcA f j) (g.srcB f j)])))
  ∧ (s.fronts r 0 0x09 f g → exec (.sar r f) s = .next (s.laneNext r g form2 f (fun j => [sarW (g.srcA f j) (g.srcB f j)])))
  ∧ (s.fronts r 0 0x0A f g → exec (.imin r f) s = .next (s.laneNext r g form2 f (fun j => [if (g.srcA f j).slt (g.srcB f j) then g.srcA f j else g.srcB f j])))
  ∧ (s.fronts r 0 0x0B f g → exec (.imax r f) s = .next (s.laneNext r g form2 f (fun j => [if (g.srcA f j).slt (g.srcB f j) then g.srcB f j else g.srcA f j])))
  ∧ (s.fronts r 0 0x0C f g → exec (.umin r f) s = .next (s.laneNext r g form2 f (fun j => [if (g.srcA f j).ult (g.srcB f j) then g.srcA f j else g.srcB f j])))
  ∧ (s.fronts r 0 0x0D f g → exec (.umax r f) s = .next (s.laneNext r g form2 f (fun j => [if (g.srcA f j).ult (g.srcB f j) then g.srcB f j else g.srcA f j])))
  ∧ (s.fronts r 0 0x0E f g → exec (.imad r f) s = .next (s.laneNext r g form3 f (fun j => [g.srcA f j * g.srcB f j + g.srcC f j])))
  ∧ (s.fronts r 0 0x0F f g → exec (.popc r f) s = .next (s.laneNext r g form1 f (fun j => [popcW (g.srcA f j)])))
  ∧ (s.fronts r 0 0x10 f g → exec (.clz r f) s = .next (s.laneNext r g form1 f (fun j => [clzW (g.srcA f j)])))
  ∧ (s.fronts r 0 0x11 f g → exec (.mov r f) s = .next (s.laneNext r g (formInt 0x11) f (fun j => [g.srcB f j])))
  ∧ (s.fronts r 0 0x12 f g → exec (.sel r f) s = .next (s.laneNext r g form2 f (fun j => [if (g.pred f.sc.toNat).getLsbD j then g.srcA f j else g.srcB f j])))
  ∧ (s.fronts r 0 0x13 f g → exec (.udiv r f) s = .next (s.laneNext r g form2 f (fun j => [udivW (g.srcA f j) (g.srcB f j)])))
  ∧ (s.fronts r 0 0x14 f g → exec (.urem r f) s = .next (s.laneNext r g form2 f (fun j => [uremW (g.srcA f j) (g.srcB f j)])))

/-- Class FLT (R286, R287): with `NAN_TRAP` = 0 each floating instruction completes with its rounded value in every active thread, in FP32
or in both halves. -/
def Obligations.FloatingInstructionsComplete : Prop := ∀ (r : GRef) (f : Fields) (s : State) (g : Group),
  (s.fronts r 1 0x00 f g → g.nanTrap = false → exec (.fadd r f) s = .next (s.laneNext r g (formF 2) f (fun j => [g.fltVal f (fun a b _ => toF32 (a.add b)) j])))
  ∧ (s.fronts r 1 0x01 f g → g.nanTrap = false → exec (.fsub r f) s = .next (s.laneNext r g (formF 2) f (fun j => [g.fltVal f (fun a b _ => toF32 (a.add b.neg)) j])))
  ∧ (s.fronts r 1 0x02 f g → g.nanTrap = false → exec (.fmul r f) s = .next (s.laneNext r g (formF 2) f (fun j => [g.fltVal f (fun a b _ => toF32 (a.mul b)) j])))
  ∧ (s.fronts r 1 0x03 f g → g.nanTrap = false → exec (.ffma r f) s = .next (s.laneNext r g (formF 3) f (fun j => [g.fltVal f (fun a b c => toF32 ((a.mul b).add c)) j])))
  ∧ (s.fronts r 1 0x04 f g → g.nanTrap = false → exec (.fmin r f) s = .next (s.laneNext r g (formF 2) f (fun j => [g.fltVal f (fun a b _ => toF32 (fMin a b)) j])))
  ∧ (s.fronts r 1 0x05 f g → g.nanTrap = false → exec (.fmax r f) s = .next (s.laneNext r g (formF 2) f (fun j => [g.fltVal f (fun a b _ => toF32 (fMax a b)) j])))
  ∧ (s.fronts r 1 0x06 f g → g.nanTrap = false → exec (.fabs r f) s = .next (s.laneNext r g (formF 1) f (fun j => [g.fltVal f (fun a _ _ => toF32 (fAbs a)) j])))
  ∧ (s.fronts r 1 0x07 f g → g.nanTrap = false → exec (.fneg r f) s = .next (s.laneNext r g (formF 1) f (fun j => [g.fltVal f (fun a _ _ => toF32 a.neg) j])))
  ∧ (s.fronts r 1 0x08 f g → g.nanTrap = false → exec (.frcp r f) s = .next (s.laneNext r g (formF 1) f (fun j => [g.fltVal f (fun a _ _ => fRcp a) j])))
  ∧ (s.fronts r 1 0x09 f g → g.nanTrap = false → exec (.frsq r f) s = .next (s.laneNext r g (formF 1) f (fun j => [g.fltVal f (fun a _ _ => fRsq a) j])))
  ∧ (s.fronts r 1 0x0A f g → g.nanTrap = false → exec (.fsqrt r f) s = .next (s.laneNext r g (formF 1) f (fun j => [g.fltVal f (fun a _ _ => toF32 a.sqrt) j])))
  ∧ (s.fronts r 1 0x0B f g → g.nanTrap = false → exec (.fdiv r f) s = .next (s.laneNext r g (formF 2) f (fun j => [g.fltVal f (fun a b _ => toF32 (a.div b)) j])))
  ∧ (s.fronts r 1 0x0C f g → g.nanTrap = false → exec (.ffloor r f) s = .next (s.laneNext r g (formF 1) f (fun j => [g.fltVal f (fun a _ _ => toF32 (fFloor a)) j])))
  ∧ (s.fronts r 1 0x0D f g → g.nanTrap = false → exec (.fceil r f) s = .next (s.laneNext r g (formF 1) f (fun j => [g.fltVal f (fun a _ _ => toF32 (fCeil a)) j])))
  ∧ (s.fronts r 1 0x0E f g → g.nanTrap = false → exec (.fexp2 r f) s = .next (s.laneNext r g (formF 1) f (fun j => [g.fltVal f (fun a _ _ => fExp2 a) j])))
  ∧ (s.fronts r 1 0x0F f g → g.nanTrap = false → exec (.flog2 r f) s = .next (s.laneNext r g (formF 1) f (fun j => [g.fltVal f (fun a _ _ => fLog2 a) j])))

/-- Class CVT (R288, R513): each conversion, pack and unpack completes; those with a floating source with `NAN_TRAP` = 0. -/
def Obligations.ConversionsComplete : Prop := ∀ (r : GRef) (f : Fields) (s : State) (g : Group),
  (s.fronts r 2 0x00 f g → g.nanTrap = false → exec (.f2i r f) s = .next (s.laneNext r g (formC 0) f (fun j => [BitVec.ofInt 32 (intWrite (-2147483648) 2147483647 (g.srcF f j)).1])))
  ∧ (s.fronts r 2 0x01 f g → exec (.i2f r f) s = .next (s.laneNext r g (formC 0) f (fun j => [toF32 (.fin (Q.int (g.srcA f j).toInt))])))
  ∧ (s.fronts r 2 0x02 f g → g.nanTrap = false → exec (.f2bf r f) s = .next (s.laneNext r g (formC 0) f (fun j => [BitVec.ofNat 32 (fmtB.write (g.srcF f j))])))
  ∧ (s.fronts r 2 0x03 f g → g.nanTrap = false → exec (.f2h r f) s = .next (s.laneNext r g (formC 0) f (fun j => [BitVec.ofNat 32 (fmt16.write (g.srcF f j))])))
  ∧ (s.fronts r 2 0x04 f g → g.nanTrap = false → exec (.bf2f r f) s = .next (s.laneNext r g (formC 1) f (fun j => [toF32 (fmtB.read (partOf (g.srcA f j) 16 f.typ.toNat))])))
  ∧ (s.fronts r 2 0x05 f g → g.nanTrap = false → exec (.h2f r f) s = .next (s.laneNext r g (formC 1) f (fun j => [toF32 (fmt16.read (partOf (g.srcA f j) 16 f.typ.toNat))])))
  ∧ (s.fronts r 2 0x06 f g → g.nanTrap = false → exec (.f2d r f) s = .next (s.laneNext r g { formC 0 with dst := 2 } f (fun j => [BitVec.ofNat 32 (fmt64.write (g.srcF f j)), BitVec.ofNat 32 (fmt64.write (g.srcF f j) / 2 ^ 32)])))
  ∧ (s.fronts r 2 0x07 f g → g.nanTrap = false → exec (.d2f r f) s = .next (s.laneNext r g { formC 0 with a := 2 } f (fun j => [toF32 (fmt64.read ((g.srcA f j).toNat + 2 ^ 32 * (g.srcA f j 1).toNat))])))
  ∧ (s.fronts r 2 0x08 f g → g.nanTrap = false → exec (.pk8 r f) s = .next (s.laneNext r g (formPk 3) f (fun j => g.packInt f 8 (-128) 127 j)))
  ∧ (s.fronts r 2 0x09 f g → g.nanTrap = false → exec (.pku8 r f) s = .next (s.laneNext r g (formPk 3) f (fun j => g.packInt f 8 0 255 j)))
  ∧ (s.fronts r 2 0x0A f g → g.nanTrap = false → exec (.pk4 r f) s = .next (s.laneNext r g (formPk 7) f (fun j => g.packInt f 4 (-8) 7 j)))
  ∧ (s.fronts r 2 0x0B f g → g.nanTrap = false → exec (.pku4 r f) s = .next (s.laneNext r g (formPk 7) f (fun j => g.packInt f 4 0 15 j)))
  ∧ (s.fronts r 2 0x0C f g → g.nanTrap = false → exec (.pkf4 r f) s = .next (s.laneNext r g (formPk 7) f (fun j => [partPut (g.oldDst f j) 4 f.typ.toNat (f4Write (g.srcF f j)).1])))
  ∧ (s.fronts r 2 0x0D f g → exec (.up8 r f) s = .next (s.laneNext r g (formC 3) f (fun j => [toF32 (.fin (Q.int (signedOf 8 (partOf (g.srcA f j) 8 f.typ.toNat))))])))
  ∧ (s.fronts r 2 0x0E f g → exec (.upu8 r f) s = .next (s.laneNext r g (formC 3) f (fun j => [toF32 (.fin (Q.int (partOf (g.srcA f j) 8 f.typ.toNat : Nat)))])))
  ∧ (s.fronts r 2 0x0F f g → exec (.up4 r f) s = .next (s.laneNext r g (formC 7) f (fun j => [toF32 (.fin (Q.int (signedOf 4 (partOf (g.srcA f j) 4 f.typ.toNat))))])))
  ∧ (s.fronts r 2 0x10 f g → exec (.upu4 r f) s = .next (s.laneNext r g (formC 7) f (fun j => [toF32 (.fin (Q.int (partOf (g.srcA f j) 4 f.typ.toNat : Nat)))])))
  ∧ (s.fronts r 2 0x11 f g → g.nanTrap = false → exec (.upf4 r f) s = .next (s.laneNext r g (formC 7) f (fun j => [toF32 (f4Read (partOf (g.srcA f j) 4 f.typ.toNat))])))

/-- Class CMP (R289, R514): a comparison or predicate operation completes with predicate `DST` set for the active threads. -/
def Obligations.ComparisonsComplete : Prop := ∀ (r : GRef) (f : Fields) (s : State) (g : Group),
  (s.fronts r 3 0x00 f g → g.active ≠ 0 → exec (.icmp r f) s = .next (s.ran r (g.setPred f.dst.toNat (laneMask (fun j => intCond (condOf f) (decide (g.srcA f j = g.srcB f j)) ((g.srcA f j).slt (g.srcB f j))))).next))
  ∧ (s.fronts r 3 0x01 f g → g.active ≠ 0 → exec (.ucmp r f) s = .next (s.ran r (g.setPred f.dst.toNat (laneMask (fun j => intCond (condOf f) (decide (g.srcA f j = g.srcB f j)) ((g.srcA f j).ult (g.srcB f j))))).next))
  ∧ (s.fronts r 3 0x02 f g → g.active ≠ 0 → exec (.fcmp r f) s = .next (s.ran r (g.setPred f.dst.toNat (laneMask (fun j => fpCond (condOf f) (f32 (g.srcA f j)) (f32 (g.srcB f j))))).next))
  ∧ (s.fronts r 3 0x08 f g → g.active ≠ 0 → exec (.pand r f) s = .next (s.ran r (g.setPred f.dst.toNat (g.pred f.sa.toNat &&& g.pred f.sb.toNat)).next))
  ∧ (s.fronts r 3 0x09 f g → g.active ≠ 0 → exec (.por r f) s = .next (s.ran r (g.setPred f.dst.toNat (g.pred f.sa.toNat ||| g.pred f.sb.toNat)).next))
  ∧ (s.fronts r 3 0x0A f g → g.active ≠ 0 → exec (.pxor r f) s = .next (s.ran r (g.setPred f.dst.toNat (g.pred f.sa.toNat ^^^ g.pred f.sb.toNat)).next))
  ∧ (s.fronts r 3 0x0B f g → g.active ≠ 0 → exec (.pnot r f) s = .next (s.ran r (g.setPred f.dst.toNat (~~~(g.pred f.sa.toNat))).next))

/-- Class SPC (R237, R514): the special lane instructions complete. That `VOTE` counts the active threads alone is the model's reading
(assumption log 12). -/
def Obligations.SpecialInstructionsComplete : Prop := ∀ (r : GRef) (f : Fields) (s : State) (g : Group),
  (s.fronts r 9 0x00 f g → exec (.tid r f) s = .next (s.laneNext r g { form1 with a := 0 } f (fun j => [BitVec.ofNat 32 j])))
  ∧ (s.fronts r 9 0x03 f g → exec (.u2v r f) s = .next (s.laneNext r g form1 f (fun j => [g.srcA f j])))
  ∧ (s.fronts r 9 0x04 f g → exec (.shfl r f) s = .next (s.laneNext r g form1 f (fun j => [g.srcA f ((f.imm.toNat % 64) ^^^ j)])))
  ∧ (s.fronts r 9 0x02 f g → g.active ≠ 0 → exec (.v2u r f) s = .next (s.ran r (g.setU f.dst.toNat (g.srcA f g.lowest)).next))
  ∧ (s.fronts r 9 0x01 f g → g.active ≠ 0 → exec (.amask r f) s = .next (s.ran r (g.setUs f.dst.toNat (maskWords g.active)).next))
  ∧ (s.fronts r 9 0x05 f g → g.active ≠ 0 → exec (.vote r f) s = .next (s.ran r (g.setUs f.dst.toNat (maskWords (g.pred f.sc.toNat &&& g.active))).next))

/-- Class CTL without the mask stack (R234, R237, R242, R244, R245, R251, R261): branches, calls and returns to good targets, barriers and
waits that hold, `NOP`, and `TRAP`, whose own effect is the trap with `IMM16` recorded. Where the rules leave a point open it is the model's reading (assumption log 17). -/
def Obligations.ControlInstructionsComplete : Prop := ∀ (r : GRef) (f : Fields) (s : State) (g : Group),
  (s.fronts r 4 0x00 f g → exec (.bra r f) s = .next (s.ran r (g.jump (g.target f))))
  ∧ (s.fronts r 4 0x01 f g → exec (.braAny r f) s = .next (s.ran r (g.branch f (decide (g.active &&& g.predC f ≠ 0)))))
  ∧ (s.fronts r 4 0x02 f g → exec (.braNone r f) s = .next (s.ran r (g.branch f (decide (g.active &&& g.predC f = 0)))))
  ∧ (s.fronts r 4 0x03 f g → exec (.braEmpty r f) s = .next (s.ran r (g.branch f (decide (g.active = 0)))))
  ∧ (s.fronts r 4 0x04 f g → exec (.call r f) s = .next (s.ran r (g.link.jump (g.target f))))
  ∧ (s.fronts r 4 0x05 f g → g.badTarget (g.ureg f.sa.toNat).toNat = false → exec (.callr r f) s = .next (s.ran r (g.link.jump (g.ureg f.sa.toNat).toNat)))
  ∧ (s.fronts r 4 0x06 f g → g.badTarget (g.ureg 63).toNat = false → exec (.ret r f) s = .next (s.ran r (g.jump (g.ureg 63).toNat)))
  ∧ (s.fronts r 4 0x10 f g → g.active = g.launch → s.unfinished g = false → exec (.barAll r f) s = .next (s.ran r (g.next)))
  ∧ (s.fronts r 4 0x11 f g → s.unfinished g = false → exec (.barActive r f) s = .next (s.ran r (g.next)))
  ∧ (s.fronts r 4 0x12 f g → g.counter (f.imm.toNat % 4) ≤ f.imm.toNat / 4 % 64 → exec (.wait r f) s = .next (s.ran r (g.next)))
  ∧ (s.fronts r 4 0x1F f g → exec (.nop r f) s = .next (s.ran r (g.next)))
  ∧ (s.fronts r 4 0x19 f g → exec (.trap r f) s = .next (s.raiseHere r.dist.val r.slot.val g 9 f.imm []))

/-- The mask stack (R240): `PUSH`, `ELSE`, `BRK`, `RECONV` and `POP` where R241 makes them no trap. -/
def Obligations.MaskInstructionsComplete : Prop := ∀ (r : GRef) (f : Fields) (s : State) (g : Group),
  (s.fronts r 4 0x08 f g → g.mstack.length < 16 → exec (.push r f) s = .next (s.ran r ({ g.next with mstack := { outer := g.active, pend := g.active &&& ~~~(g.predC f) } :: g.mstack, active := g.active &&& g.predC f })))
  ∧ (∀ (e : MaskEntry) (rest : List MaskEntry), s.fronts r 4 0x09 f g → g.mstack = e :: rest → exec (.elseM r f) s = .next (s.ran r ({ g.next with mstack := { e with pend := 0 } :: rest, active := e.pend })))
  ∧ (s.fronts r 4 0x0A f g → f.imm.toNat % 16 < g.mstack.length → exec (.brk r f) s = .next (s.ran r ({ g.next with mstack := brkStack (g.active &&& g.predC f) (f.imm.toNat % 16) g.mstack, active := g.active &&& ~~~(g.active &&& g.predC f) })))
  ∧ (∀ (e : MaskEntry) (rest : List MaskEntry), s.fronts r 4 0x0B f g → g.mstack = e :: rest → exec (.reconv r f) s = .next (s.ran r ({ g.next with mstack := { e with pend := 0 } :: rest, active := g.active ||| e.pend })))
  ∧ (∀ (e : MaskEntry) (rest : List MaskEntry), s.fronts r 4 0x0C f g → g.mstack = e :: rest → exec (.pop r f) s = .next (s.ran r ({ g.next with mstack := rest, active := e.outer })))

/-- Class MEM (R246 to R249, R514): loads and stores of local store within the allocation and free of interlocks, scene loads and fills whose
accesses the checks let pass, and host loads and stores that translate. Where the rules leave a point open it is the model's reading (assumption log 19 and 25). -/
def Obligations.MemoryInstructionsComplete : Prop := ∀ (r : GRef) (f : Fields) (s : State) (g : Group), g.active ≠ 0 →
  (s.fronts r 5 0x00 f g → (∀ j ∈ g.threads, g.inside (g.localAt f j) (memBytes f.typ.toNat) (memBytes f.typ.toNat) = true)
    → (∀ j ∈ g.threads, g.readWaits ((g.localAt f j).toNat, memBytes f.typ.toNat) = false)
    → g.badLocal (overlaps (g.threads.map (fun j => ((g.localAt f j).toNat, memBytes f.typ.toNat)))) = []
    → exec (.ldL r f) s = .next (s.laneNext r g (formLoad f 1) f (fun j => loadWords (g.lbytes (g.localAt f j).toNat (memBytes f.typ.toNat)))))
  ∧ (∀ (t : State) (h : Group), s.fronts r 5 0x01 f g
    → (∀ j ∈ g.threads, g.inside (g.localAt f j) (memBytes f.typ.toNat) (memBytes f.typ.toNat) = true)
    → (∀ j ∈ g.threads, g.writeWaits ((g.localAt f j).toNat, memBytes f.typ.toNat) = false)
    → g.threads.foldl (fun p j => p.1.writeLocal r.dist.val p.2 (g.localAt f j).toNat (g.storeBytes f j)) (s, g) = (t, h)
    → exec (.stL r f) s = .next (t.ran r h.next))
  ∧ (∀ (t u : State) (no : List Nat) (l : List (Nat × List Byte)), s.fronts r 5 0x02 f g
    → s.checkThreads r.dist.val r.slot.val g (memBytes f.typ.toNat)
        (g.threads.map (fun j => (j, g.sceneAt f j (memBytes f.typ.toNat) f.imm.toInt))) = (t, some no)
    → t.loadThreads r.dist.val g.bid (memBytes f.typ.toNat) no
        (g.threads.map (fun j => (j, g.sceneAt f j (memBytes f.typ.toNat) f.imm.toInt))) = (u, some l)
    → exec (.ldS r f) s = .next (u.laneNext r (g.denied no) (formLoad f 2) f (fun j => loadWords (threadBytes l j))))
  ∧ (∀ (t : State) (no : List Nat), s.fronts r 5 0x03 f g
    → (∀ j ∈ g.threads, g.inside ((g.srcB f j).toNat : Nat) f.imm.toNat 64 = true)
    → g.counter (f.dst.toNat % 4) < 63 → (∀ j ∈ g.threads, g.writeWaits ((g.srcB f j).toNat, f.imm.toNat) = false)
    → s.checkThreads r.dist.val r.slot.val g f.imm.toNat (g.threads.map (fun j => (j, g.sceneAt f j 64 0))) = (t, some no)
    → exec (.fillL r f) s = .next (t.ran r { ((g.denied no).bumpCtr (f.dst.toNat % 4) true).next with
        fills := g.fills ++ [{ copies := g.threads.map (fun j => (g.sceneAt f j 64 0, (g.srcB f j).toNat, decide (j ∈ no))),
                               size := f.imm.toNat, ctr := f.dst.toNat % 4 }] }))
  ∧ (∀ (t : State) (l : List (Nat × List Byte)), s.fronts r 5 0x04 f g
    → s.hostLoads r.dist.val r.slot.val g (memBytes f.typ.toNat) (g.threads.map (fun j => (j, g.hostAt f j (memBytes f.typ.toNat)))) = (t, some l)
    → exec (.ldH r f) s = .next (t.laneNext r g (formLoad f 2) f (fun j => loadWords (threadBytes l j))))
  ∧ (∀ (t : State) (l : List (List (Nat × Nat) × List Byte)), s.fronts r 5 0x05 f g → s.mayWrite g.bid = true
    → s.hostPieces r.dist.val r.slot.val g f (memBytes f.typ.toNat) (g.threads.map (fun j => (j, g.hostAt f j (memBytes f.typ.toNat)))) = (t, some l)
    → exec (.stH r f) s = .next ((l.foldl (fun v p => v.hostWriteParts p.1 p.2 (.store g.bid g.seed r.dist.val)) t).ran r g.next))

/-- Classes MSG and WLK (R258 to R260, R321, R322): `SEND` puts its messages on the avenue and notes the statuses to come, `RECV` takes what the
inbox holds for it, and the slot instructions lock, read, write and unlock where they need not wait. Where the rules leave a point open it is the model's reading (assumption log 3, 28 and 29). -/
def Obligations.MessageAndSlotInstructionsComplete : Prop := ∀ (r : GRef) (f : Fields) (s : State) (g : Group), g.active ≠ 0 →
  (s.fronts r 7 0x00 f g → exec (.send r f) s
    = .next ((s.sendAll r.dist.val g f).ran r { g.next with sends := g.sends ++ g.threads.map (fun j => (j, g.statusReg f j)) }))
  ∧ (s.fronts r 7 0x01 f g → g.recvWaits f = false
    → exec (.recv r f) s = .next ((s.updCore r.dist.val (fun c => { c with
        inbox := (takeInbox g.bid f.imm g.threads.length (s.dist r.dist.val).core.inbox).2 })).retireIns r.dist.val r.slot.val
        (g.recvAll f (takeInbox g.bid f.imm g.threads.length (s.dist r.dist.val).core.inbox).1).next
        (g.recvKeys f (takeInbox g.bid f.imm g.threads.length (s.dist r.dist.val).core.inbox).1)))
  ∧ (∀ (t : State), s.fronts r 8 0x00 f g
    → s.lockAll g = (t, true)
    → exec (.slotLock r f) s = .next (t.ran r g.next))
  ∧ (s.fronts r 8 0x01 f g → (∀ j ∈ g.threads, (s.slotRead g f j).isSome = true)
    → exec (.slotLd r f) s = .next ({ s.countSlotReads r.dist.val g f with freeCtr := (s.countSlotReads r.dist.val g f).freeCtr + 1 }.laneNext r g (formWlk 1 f) f
        (fun j => (s.slotRead g f j).getD [])))
  ∧ (∀ (t : State), s.fronts r 8 0x02 f g
    → s.slotWrites g f g.threads = some t → exec (.slotSt r f) s = .next ((t.slotTrips r.dist.val g).ran r g.next))
  ∧ (s.fronts r 8 0x03 f g → ∃ t : State, exec (.slotUnlock r f) s = .next (t.ran r g.next)
    ∧ t = { s with locks := t.locks }
    ∧ ∀ l, l ∈ t.locks ↔ l ∈ s.locks ∧ ¬ ∃ j ∈ g.threads, ∃ x w, s.slotOf g j = some (x, w) ∧ l.bid = w.bid ∧ l.slot = w.ray.slot.toNat ∧ l.idx = w.idx)

/-- Class MTX (R251 to R257): with threads active and a good descriptor that nothing outstanding overlaps, a matrix instruction joins the
outstanding ones, behind what waits in the tiles' queue, and its wait counter rises; with none it is a no-op. Where the rules leave a point open it is the model's reading (assumption log 13 and 20). -/
def Obligations.MatrixInstructionsIssue : Prop := ∀ (r : GRef) (f : Fields) (s : State) (g : Group) (i : Instr) (op : Nat),
  ((i, op) = (.mma r f, 0) ∨ (i, op) = (.msmax r f, 1) ∨ (i, op) = (.mred r f, 2)) →
  s.fronts r 6 op f g →
  (g.active = 0 → exec i s = .next (s.ran r g.next))
  ∧ (g.active ≠ 0 → g.inside (localOff (g.srcA f g.lowest) f.imm) 64 1 = true
    → g.readWaits ((localOff (g.srcA f g.lowest) f.imm).toNat, 64) = false → g.counter (f.dst.toNat % 4) < 63 → g.mtx.length < 8
    → g.badLocal (overlap ((localOff (g.srcA f g.lowest) f.imm).toNat, 64)) = []
    → ∀ raw, raw = g.lbytes (localOff (g.srcA f g.lowest) f.imm).toNat 64
    → (mdescOf raw).empty op = false → mdescBad op raw (mdescOf raw) g.room = false
    → (mtxInputs op (mdescOf raw)).any g.readWaits = false → (mtxOutputs op (mdescOf raw)).any g.writeWaits = false
    → exec i s = .next ((if g.active = g.launch then s else s.count r.dist.val 7 1).tick.ran r { (g.bumpCtr (f.dst.toNat % 4) true).next with
        mtx := g.mtx ++ [{ op := op, typ := f.typ.toNat, desc := raw, off := (localOff (g.srcA f g.lowest) f.imm).toNat, pc := g.pc,
                           ctr := f.dst.toNat % 4, ord := s.clock }] }))

/-- Instruction fetch, fills and matrix work of a core (R237, R248, R250, R251, R255): a fetched word of a known class is taken up, a fill's copies
land and its counter falls, and a working tile computes the matrix instruction that comes first in its queue. Where the rules leave a point open it is the model's reading (assumption log 18, 19 and 20). -/
def Obligations.CoreEnginesComplete : Prop := ∀ (r : GRef) (s : State) (g : Group), s.coreOn r.dist.val = true → s.group r.dist.val r.slot.val = some g →
  (∀ (t : State) (bs : List Byte), s.heldGroup r.dist.val g = false → g.ir = none → g.nanPend = [] → g.pc < g.codeLen
    → regionsAllow (s.regionsOf g.bid) Region.program (g.img + 64 + g.pc) 8 = true → s.deskBytes r.dist.val (g.img + 64 + g.pc) 8 = (t, bs, false)
    → knownOp (wordClass (BitVec.ofNat 64 (leNat bs))) (wordOp (BitVec.ofNat 64 (leNat bs))) = true
    → exec (.instructionFetch r) s = .next (t.putGroup r.dist.val r.slot.val
        { g with ir := some (BitVec.ofNat 64 (leNat bs)), parked := none, replay := false, settled := false }))
  ∧ (∀ (n : Nat) (o : FillOp) (t : State) (h : Group), g.fills[n]? = some o → s.fillCopies r.dist.val g o.size o.copies = (t, some h)
    → exec (.fillComplete r n) s = .next (t.putGroup r.dist.val r.slot.val { h.bumpCtr o.ctr false with fills := h.fills.eraseIdx n }))
  ∧ (∀ (n : Nat) (o : MtxOp) (tl : Nat), g.mtx[n]? = some o → (s.dist r.dist.val).tile = some tl → s.tileFirst r.dist.val (tileKey g.cls o.ord) = true
    → s.armed (Fld.dstInjectTile r.dist.val) = false → exec (.mtxComplete r n) s = .next (s.mtxFinish r.dist.val r.slot.val g n o))

/-- `EXIT` (R233, R240, R243): the active threads exit, each taking its outputs with it; the group goes on without them, or ends when none is
left and its work is done. Where the rules leave a point open it is the model's reading (assumption log 24 and 32). -/
def Obligations.ExitCompletes : Prop := ∀ (r : GRef) (f : Fields) (s : State) (g : Group), s.fronts r 4 0x18 f g
  → g.exitWaits = false → s.emitStalls g = false →
  (g.exited.live = 0 → exec (.exit r f) s
    = .next (((g.threads.foldl (fun v j => v.exitThread r.dist.val g j) s).dropGroup r.dist.val r.slot.val).count r.dist.val 4 1))
  ∧ (g.exited.live ≠ 0 → ((g.threads.foldl (fun v j => v.exitThread r.dist.val g j) s).group r.dist.val r.slot.val).isSome = true → exec (.exit r f) s
    = .next ((g.threads.foldl (fun v j => v.exitThread r.dist.val g j) s).ran r g.exited))

/-- With an empty active mask a lane, memory, message or slot instruction is a no-op that writes nothing and goes on (R239). -/
def Obligations.EmptyMaskIsNoOp : Prop := ∀ (r : GRef) (f : Fields) (s : State) (g : Group), g.active = 0 →
  (s.fronts r 0 0x00 f g → exec (.iadd r f) s = .next (s.ran r g.next))
  ∧ (s.fronts r 0 0x01 f g → exec (.isub r f) s = .next (s.ran r g.next))
  ∧ (s.fronts r 0 0x02 f g → exec (.imul r f) s = .next (s.ran r g.next))
  ∧ (s.fronts r 0 0x03 f g → exec (.imulhi r f) s = .next (s.ran r g.next))
  ∧ (s.fronts r 0 0x04 f g → exec (.and r f) s = .next (s.ran r g.next))
  ∧ (s.fronts r 0 0x05 f g → exec (.or r f) s = .next (s.ran r g.next))
  ∧ (s.fronts r 0 0x06 f g → exec (.xor r f) s = .next (s.ran r g.next))
  ∧ (s.fronts r 0 0x07 f g → exec (.shl r f) s = .next (s.ran r g.next))
  ∧ (s.fronts r 0 0x08 f g → exec (.shr r f) s = .next (s.ran r g.next))
  ∧ (s.fronts r 0 0x09 f g → exec (.sar r f) s = .next (s.ran r g.next))
  ∧ (s.fronts r 0 0x0A f g → exec (.imin r f) s = .next (s.ran r g.next))
  ∧ (s.fronts r 0 0x0B f g → exec (.imax r f) s = .next (s.ran r g.next))
  ∧ (s.fronts r 0 0x0C f g → exec (.umin r f) s = .next (s.ran r g.next))
  ∧ (s.fronts r 0 0x0D f g → exec (.umax r f) s = .next (s.ran r g.next))
  ∧ (s.fronts r 0 0x0E f g → exec (.imad r f) s = .next (s.ran r g.next))
  ∧ (s.fronts r 0 0x0F f g → exec (.popc r f) s = .next (s.ran r g.next))
  ∧ (s.fronts r 0 0x10 f g → exec (.clz r f) s = .next (s.ran r g.next))
  ∧ (s.fronts r 0 0x11 f g → exec (.mov r f) s = .next (s.ran r g.next))
  ∧ (s.fronts r 0 0x12 f g → exec (.sel r f) s = .next (s.ran r g.next))
  ∧ (s.fronts r 0 0x13 f g → exec (.udiv r f) s = .next (s.ran r g.next))
  ∧ (s.fronts r 0 0x14 f g → exec (.urem r f) s = .next (s.ran r g.next))
  ∧ (s.fronts r 1 0x00 f g → exec (.fadd r f) s = .next (s.ran r g.next))
  ∧ (s.fronts r 1 0x01 f g → exec (.fsub r f) s = .next (s.ran r g.next))
  ∧ (s.fronts r 1 0x02 f g → exec (.fmul r f) s = .next (s.ran r g.next))
  ∧ (s.fronts r 1 0x03 f g → exec (.ffma r f) s = .next (s.ran r g.next))
  ∧ (s.fronts r 1 0x04 f g → exec (.fmin r f) s = .next (s.ran r g.next))
  ∧ (s.fronts r 1 0x05 f g → exec (.fmax r f) s = .next (s.ran r g.next))
  ∧ (s.fronts r 1 0x06 f g → exec (.fabs r f) s = .next (s.ran r g.next))
  ∧ (s.fronts r 1 0x07 f g → exec (.fneg r f) s = .next (s.ran r g.next))
  ∧ (s.fronts r 1 0x08 f g → exec (.frcp r f) s = .next (s.ran r g.next))
  ∧ (s.fronts r 1 0x09 f g → exec (.frsq r f) s = .next (s.ran r g.next))
  ∧ (s.fronts r 1 0x0A f g → exec (.fsqrt r f) s = .next (s.ran r g.next))
  ∧ (s.fronts r 1 0x0B f g → exec (.fdiv r f) s = .next (s.ran r g.next))
  ∧ (s.fronts r 1 0x0C f g → exec (.ffloor r f) s = .next (s.ran r g.next))
  ∧ (s.fronts r 1 0x0D f g → exec (.fceil r f) s = .next (s.ran r g.next))
  ∧ (s.fronts r 1 0x0E f g → exec (.fexp2 r f) s = .next (s.ran r g.next))
  ∧ (s.fronts r 1 0x0F f g → exec (.flog2 r f) s = .next (s.ran r g.next))
  ∧ (s.fronts r 2 0x00 f g → exec (.f2i r f) s = .next (s.ran r g.next))
  ∧ (s.fronts r 2 0x01 f g → exec (.i2f r f) s = .next (s.ran r g.next))
  ∧ (s.fronts r 2 0x02 f g → exec (.f2bf r f) s = .next (s.ran r g.next))
  ∧ (s.fronts r 2 0x03 f g → exec (.f2h r f) s = .next (s.ran r g.next))
  ∧ (s.fronts r 2 0x04 f g → exec (.bf2f r f) s = .next (s.ran r g.next))
  ∧ (s.fronts r 2 0x05 f g → exec (.h2f r f) s = .next (s.ran r g.next))
  ∧ (s.fronts r 2 0x06 f g → exec (.f2d r f) s = .next (s.ran r g.next))
  ∧ (s.fronts r 2 0x07 f g → exec (.d2f r f) s = .next (s.ran r g.next))
  ∧ (s.fronts r 2 0x08 f g → exec (.pk8 r f) s = .next (s.ran r g.next))
  ∧ (s.fronts r 2 0x09 f g → exec (.pku8 r f) s = .next (s.ran r g.next))
  ∧ (s.fronts r 2 0x0A f g → exec (.pk4 r f) s = .next (s.ran r g.next))
  ∧ (s.fronts r 2 0x0B f g → exec (.pku4 r f) s = .next (s.ran r g.next))
  ∧ (s.fronts r 2 0x0C f g → exec (.pkf4 r f) s = .next (s.ran r g.next))
  ∧ (s.fronts r 2 0x0D f g → exec (.up8 r f) s = .next (s.ran r g.next))
  ∧ (s.fronts r 2 0x0E f g → exec (.upu8 r f) s = .next (s.ran r g.next))
  ∧ (s.fronts r 2 0x0F f g → exec (.up4 r f) s = .next (s.ran r g.next))
  ∧ (s.fronts r 2 0x10 f g → exec (.upu4 r f) s = .next (s.ran r g.next))
  ∧ (s.fronts r 2 0x11 f g → exec (.upf4 r f) s = .next (s.ran r g.next))
  ∧ (s.fronts r 3 0x00 f g → exec (.icmp r f) s = .next (s.ran r g.next))
  ∧ (s.fronts r 3 0x01 f g → exec (.ucmp r f) s = .next (s.ran r g.next))
  ∧ (s.fronts r 3 0x02 f g → exec (.fcmp r f) s = .next (s.ran r g.next))
  ∧ (s.fronts r 3 0x08 f g → exec (.pand r f) s = .next (s.ran r g.next))
  ∧ (s.fronts r 3 0x09 f g → exec (.por r f) s = .next (s.ran r g.next))
  ∧ (s.fronts r 3 0x0A f g → exec (.pxor r f) s = .next (s.ran r g.next))
  ∧ (s.fronts r 3 0x0B f g → exec (.pnot r f) s = .next (s.ran r g.next))
  ∧ (s.fronts r 5 0x00 f g → exec (.ldL r f) s = .next (s.ran r g.next))
  ∧ (s.fronts r 5 0x01 f g → exec (.stL r f) s = .next (s.ran r g.next))
  ∧ (s.fronts r 5 0x02 f g → exec (.ldS r f) s = .next (s.ran r g.next))
  ∧ (s.fronts r 5 0x04 f g → exec (.ldH r f) s = .next (s.ran r g.next))
  ∧ (s.fronts r 5 0x05 f g → exec (.stH r f) s = .next (s.ran r g.next))
  ∧ (s.fronts r 7 0x00 f g → exec (.send r f) s = .next (s.ran r g.next))
  ∧ (s.fronts r 8 0x00 f g → exec (.slotLock r f) s = .next (s.ran r g.next))
  ∧ (s.fronts r 8 0x01 f g → exec (.slotLd r f) s = .next (s.ran r g.next))
  ∧ (s.fronts r 8 0x02 f g → exec (.slotSt r f) s = .next (s.ran r g.next))
  ∧ (s.fronts r 8 0x03 f g → exec (.slotUnlock r f) s = .next (s.ran r g.next))
  ∧ (s.fronts r 9 0x00 f g → exec (.tid r f) s = .next (s.ran r g.next))
  ∧ (s.fronts r 9 0x02 f g → exec (.v2u r f) s = .next (s.ran r g.next))
  ∧ (s.fronts r 9 0x03 f g → exec (.u2v r f) s = .next (s.ran r g.next))
  ∧ (s.fronts r 9 0x04 f g → exec (.shfl r f) s = .next (s.ran r g.next))
  ∧ (s.fronts r 5 0x03 f g → exec (.fillL r f) s = .next (s.ran r g.next))
  ∧ (s.fronts r 7 0x01 f g → exec (.recv r f) s = .next (s.ran r g.next))
  ∧ (s.fronts r 9 0x01 f g → exec (.amask r f) s = .next (s.ran r g.next))
  ∧ (s.fronts r 9 0x05 f g → exec (.vote r f) s = .next (s.ran r g.next))

/-- Reads of the window (R9, R20, R445, R466, R472, R481, R486): a plain read answers the register's value and leaves every register; a read-clearing
one clears the bits it returned as 1, and clears nothing where its response is not delivered; an access that is not aligned, not 4 bytes
long, or beyond the window reads as all ones and reports. Where the rules leave a point open it is the model's reading (assumption log 37 and 68). -/
def Obligations.ReadsComplete : Prop := ∀ (s : State),
  (∀ off : BitVec 20, off.toNat % 4 = 0 → (regAt off.toNat).rc = 0 → ownRead off.toNat = false → windowData off.toNat = false → off.toNat ∉ s.parBad
    → s.opensRead off.toNat = true → exec (.registerRead off) s = .next { s with gate := { s.gate with readData := some (s.readValue off.toNat) } })
  ∧ (∀ off : BitVec 20, off.toNat % 4 = 0 → (regAt off.toNat).rc ≠ 0 → off.toNat ∉ s.parBad → (∀ d, pageOf (offPage off.toNat) = some (.dst, d) → (s.dist d).inReset = false)
    → s.opensRead off.toNat = true → ∃ t, exec (.rcRead off true) s = .next t ∧ t.gate.readData = some (s.readValue off.toNat)
      ∧ t.reg off.toNat = s.reg off.toNat &&& ~~~((regAt off.toNat).rc &&& s.readValue off.toNat)
      ∧ (∀ j, j ≠ off.toNat → t.reg j = s.reg j) ∧ { t with gate := s.gate, regs := s.regs } = s)
  ∧ (∀ off : BitVec 20, off.toNat % 4 = 0 → (regAt off.toNat).rc ≠ 0 → off.toNat ∉ s.parBad → s.opensRead off.toNat = true → exec (.rcRead off false) s = .next s)
  ∧ (∀ (n : Fin 8), s.opensRead (0x04100 + 4 * n.val) = true → s.pageBad 4 = false → SMap.get 0 s.tallyErr (s.rd Fld.tlyIndexIndex * 4 + n.val / 2) = 0
    → exec (.tallyWindowRead n) s = .next { s with gate := { s.gate with
        readData := some (bytesWord (SMap.get (zeroBytes 32) s.tally (s.rd Fld.tlyIndexIndex)) (4 * n.val)) } })
  ∧ (s.opensRead 0x0305C = true → s.pageBad 3 = false → s.flag Fld.chBalSelKind = false → exec .balanceCapture s = .next { s with gate := { s.gate with
        capBal := s.account false (s.rd Fld.chBalSelIndex), readData := some (BitVec.ofInt 32 (s.account false (s.rd Fld.chBalSelIndex)).bal) } })
  ∧ (s.opensRead 0x0305C = true → s.pageBad 3 = false → s.flag Fld.chBalSelKind = true → exec .balanceCapture s = .next { s with gate := { s.gate with
        capBal := s.account true (s.rd Fld.chBalSelIndex % 4), readData := some (BitVec.ofInt 32 (s.account true (s.rd Fld.chBalSelIndex % 4)).bal) } })
  ∧ (∀ (off : BitVec 32) (len : Nat), len ≠ 4 ∨ off.toNat % 4 ≠ 0 ∨ 0x100000 ≤ off.toNat → s.readHeld (offPage off.toNat) = false →
    ∃ t, exec (.regAccessMalformed off len false) s = .next t ∧ t.gate.readData = some 0xFFFFFFFF ∧ t.rd Fld.errStatusHlProtocol = 1
      ∧ ∀ j, offPage j ≠ 14 → t.reg j = s.reg j)

/-- Writes of the window (R445, R462, R463, R467, R468, R506): a plain write gives a register's RW bits the written value, its other bits and every
other register on the block page stay, and a root written loses its entries of the translation cache (R375); `PG_CTL` takes its masked bit; `PG_LOCK` takes its first write whole and discards the next; an
arm register takes the arms of its page; a write to a locked register is discarded and reported. Where the rules leave a point open it is the model's reading (assumption log 37, 38 and 68). -/
def Obligations.WritesComplete : Prop := ∀ (s : State),
  (∀ (off : BitVec 20) (v : Word) (k : PageKind) (n : Nat), off.toNat % 4 = 0 → ownCommand off.toNat v = false → notStored off.toNat v = false → s.opens off.toNat = true
    → pageOf (offPage off.toNat) = some (k, n) → k.district = false → (regAt off.toNat).rw ≠ 0
    → offPage off.toNat ≠ 1 → off.toNat ≠ 0x03040 → off.toNat ≠ 0x03048 → off.toNat ≠ 0x0304C
    → s.armed ⟨offPage off.toNat * 0x1000 + 0x010, 31, 31⟩ = false
    → ∃ t, exec (.registerWrite off v) s = .next t ∧ t.reg off.toNat = (s.reg off.toNat &&& ~~~(regAt off.toNat).rw) ||| (v &&& (regAt off.toNat).rw)
      ∧ (∀ j, j ≠ off.toNat → t.reg j = s.reg j) ∧ { t with regs := s.regs, parBad := s.parBad } = s.dropRoot off.toNat)
  ∧ (∀ (off : BitVec 20) (v : Word), off.toNat % 4 = 0 → ownCommand off.toNat v = false → s.opens off.toNat = true
    → exec (.registerWrite off v) s = .next (s.plainWrite off.toNat v))
  ∧ (∀ (pg : BitVec 8) (v : Word) (k : PageKind) (n : Nat), s.opens (pg.toNat * 0x1000 + 0x004) = true → pageOf pg.toNat = some (k, n) → k.district = false
    → s.armed ⟨pg.toNat * 0x1000 + 0x010, 31, 31⟩ = false
    → ∃ t, exec (.pgCtlWrite pg v) s = .next t ∧ t.rd (Fld.parCheck pg.toNat) = (if v.getLsbD 17 then b2n (v.getLsbD 1) else s.rd (Fld.parCheck pg.toNat))
      ∧ (∀ j, j ≠ pg.toNat * 0x1000 + 0x004 → t.reg j = s.reg j) ∧ { t with regs := s.regs, parBad := s.parBad } = s)
  ∧ (∀ (d : Dist), s.opens (pageReg .dst d.val 0x004) = true → s.flag (Fld.crcCheck (0x40 + d.val)) = false
    → exec (.crcLoad d) s = .next (s.setReg (pageReg .dst d.val 0x014) (s.crcNow d.val)))
  ∧ (∀ (pg : BitVec 8) (v : Word) (k : PageKind) (n : Nat), s.opens (pg.toNat * 0x1000 + 0x01C) = true → pageOf pg.toNat = some (k, n) → pg.toNat ∉ s.locked
    → ∃ t, exec (.pgLockWrite pg v) s = .next t ∧ t.reg (pg.toNat * 0x1000 + 0x01C) = v ∧ pg.toNat ∈ t.locked ∧ (∀ p, p ∈ t.locked ↔ p = pg.toNat ∨ p ∈ s.locked))
  ∧ (∀ (pg : BitVec 8) (v : Word) (k : PageKind) (n : Nat), s.opens (pg.toNat * 0x1000 + 0x01C) = true → pageOf pg.toNat = some (k, n) → pg.toNat ∈ s.locked
    → ∃ t, exec (.pgLockWrite pg v) s = .next t ∧ t.rd Fld.errStatusLockWrite = 1 ∧ t.locked = s.locked ∧ ∀ j, offPage j ≠ 14 → t.reg j = s.reg j)
  ∧ (∀ (pg : BitVec 8) (v : Word) (k : PageKind) (n : Nat), s.opens (pg.toNat * 0x1000 + 0x010) = true → pageOf pg.toNat = some (k, n)
    → ∃ t, exec (.injectArm pg v) s = .next t ∧ t.reg (pg.toNat * 0x1000 + 0x010) = v &&& k.armBits
      ∧ (∀ j, j ≠ pg.toNat * 0x1000 + 0x010 → t.reg j = s.reg j) ∧ { t with regs := s.regs, parBad := s.parBad } = s)
  ∧ (∀ (off : BitVec 20) (v : Word), off.toNat % 4 = 0 → ownCommand off.toNat v = false → s.serveWrite off.toNat = .yes
    → s.armed Fld.errInjectHlProtocol = false → s.armed Fld.errInjectLockWrite = false → s.lockedReg off.toNat = true
    → ∃ t, exec (.registerWrite off v) s = .next t ∧ t.rd Fld.errStatusLockWrite = 1
      ∧ t.rd Fld.errLockAddrOffset = (if s.rd Fld.errStatusLockWrite = 0 then off.toNat / 4 else s.rd Fld.errLockAddrOffset)
      ∧ ∀ j, offPage j ≠ 14 → t.reg j = s.reg j)

/-- Counters and captures (R474 to R478): a counter's written half takes the value; `PG_SNAP` captures every counter of its unit and advances the
page's `SEQ`; the wave of `CTR_SNAP` captures every page in turn and advances `CTR_SNAP.SEQ`. Where the rules leave a point open it is the model's reading (assumption log 68). -/
def Obligations.CapturesComplete : Prop := ∀ (s : State),
  (∀ (v : Word) (k : Nat), s.opens 0x0F048 = true → s.pageBad 15 = false → s.ctrKey = some k → ∃ t, exec (.counterWrite false v) s = .next t
    ∧ SMap.get 0 t.live k = (SMap.get 0 s.live k &&& 0xFFFFFFFF00000000) ||| v.setWidth 64
    ∧ (∀ j, j ≠ k → SMap.get 0 t.live j = SMap.get 0 s.live j) ∧ { t with live := s.live } = s)
  ∧ (∀ (v : Word) (k : Nat), s.opens 0x0F04C = true → s.pageBad 15 = false → s.ctrKey = some k → ∃ t, exec (.counterWrite true v) s = .next t
    ∧ SMap.get 0 t.live k = (v.setWidth 64 <<< 32) ||| (SMap.get 0 s.live k &&& 0xFFFFFFFF)
    ∧ (∀ j, j ≠ k → SMap.get 0 t.live j = SMap.get 0 s.live j) ∧ { t with live := s.live } = s)
  ∧ (∀ (pg : BitVec 8), s.opens (pg.toNat * 0x1000 + 0x020) = true → (pageOf pg.toNat).isSome = true → ∃ t, exec (.pgSnap pg) s = .next t
    ∧ (∀ i, pageUnit pg.toNat ≠ unitNone → i < unitCounters (pageUnit pg.toNat) → SMap.get 0 t.hold (pageUnit pg.toNat * 256 + i) = SMap.get 0 s.live (pageUnit pg.toNat * 256 + i))
    ∧ t.rd ⟨pg.toNat * 0x1000 + 0x020, 31, 16⟩ = (s.rd ⟨pg.toNat * 0x1000 + 0x020, 31, 16⟩ + 1) % 65536
    ∧ (∀ j, j ≠ pg.toNat * 0x1000 + 0x020 → t.reg j = s.reg j) ∧ { t with regs := s.regs, hold := s.hold } = s)
  ∧ (s.opens 0x0F040 = true → s.halted .ctr = false → ∃ t, exec .ctrSnap s = .next t
    ∧ t.rd Fld.ctrSnapSeq = (s.rd Fld.ctrSnapSeq + 1) % 65536
    ∧ (∀ u i, (u < 0x86 ∨ (0x88 ≤ u ∧ u ≤ 0x8C)) → i < unitCounters u → SMap.get 0 t.hold (u * 256 + i) = SMap.get 0 s.live (u * 256 + i))
    ∧ t.live = s.live)

/-- The windows onto the tables (R156, R162, R489 to R491): a data write gives the selected entry's word its value and makes its parity good; every
write through `MAP` advances the route epoch; `MAP_HASH_IN` takes its identity and `MAP_HASH_OUT` is read with its hash. Where the rules leave a point open it is the model's reading (assumption log 68). -/
def Obligations.TableWindowsComplete : Prop := ∀ (s : State),
  (∀ (n : Fin 4) (v : Word), s.opens (0x06100 + 4 * n.val) = true → s.pageBad 6 = false → (s.dist (s.rd Fld.mapIndexIndex / 512)).inReset = false
    → s.armed Fld.mapInjectTbl = false → ∃ t, exec (.mapDataWrite n v) s = .next t ∧ t.mapWord (s.rd Fld.mapIndexIndex) n.val = v
      ∧ (∀ e m, e ≠ s.rd Fld.mapIndexIndex ∨ m ≠ n.val → m < 4 → t.mapWord e m = s.mapWord e m)
      ∧ t.rd Fld.chRouteEpochEpoch = (s.rd Fld.chRouteEpochEpoch + 1) % 65536
      ∧ s.rd Fld.mapIndexIndex * 4 + n.val ∉ t.mapBad)
  ∧ (∀ (n : Fin 32) (v : Word), s.opens (0x05100 + 4 * n.val) = true → s.pageBad 5 = false → s.armed Fld.tenInjectTbl = false
    → ∃ t, exec (.tenDataWrite n v) s = .next t ∧ t.tenWord (s.rd Fld.tenIndexIndex) n.val = v
      ∧ (∀ e m, e ≠ s.rd Fld.tenIndexIndex ∨ m ≠ n.val → m < 32 → t.tenWord e m = s.tenWord e m)
      ∧ s.rd Fld.tenIndexIndex * 32 + n.val ∉ t.tenBad ∧ { t with ten := s.ten, tenBad := s.tenBad } = s)
  ∧ (∀ v : Word, s.opens 0x06044 = true → s.armed ⟨0x06010, 31, 31⟩ = false → ∃ t, exec (.mapHash v) s = .next t
      ∧ t.rd Fld.mapHashInTid = v.toNat % 2 ^ 24
      ∧ t.gate.readData = some (bitsAt 30 24 ((s.lotOwner (tidLot (v.toNat % 2 ^ 24))).getD 0) ||| bitsAt 23 14 (tidLot (v.toNat % 2 ^ 24)) ||| bitsAt 12 0 (tidSet (v.toNat % 2 ^ 24))))

/-- The registers of a queue (R39, R41, R44, R46, R49, R72, R74, R387): a good tail, depth or estimate is stored and nothing else of the registers
changes; a bad tail or depth is not, stops the queue and says why; `RUN` is set, with the sequence number read from the seal word of a queue
that was stopped, and cleared; a cancel and a resume act on every batch they name. Where the rules leave a point open it is the model's reading (assumption log 46). -/
def Obligations.QueueRegistersComplete : Prop := ∀ (q : Que) (s : State),
  (∀ v : Word, s.opens (pageReg .que q.val 0x04C) = true → s.armed ⟨pageReg .que q.val 0x010, 31, 31⟩ = false
    → field v 15 0 < s.rd (Fld.queDepthDepth q.val)
    → ¬ (s.rd (Fld.queHeadPhase q.val) = field v 16 16 ∧ field v 15 0 < s.rd (Fld.queHeadIndex q.val))
    → ringCount (s.rd (Fld.queDepthDepth q.val)) (s.rd (Fld.queHeadIndex q.val)) (s.rd (Fld.queHeadPhase q.val)) (field v 15 0) (field v 16 16) ≤ s.rd (Fld.queDepthDepth q.val)
    → s.unfetched q.val ≤ ringCount (s.rd (Fld.queDepthDepth q.val)) (s.rd (Fld.queHeadIndex q.val)) (s.rd (Fld.queHeadPhase q.val)) (field v 15 0) (field v 16 16)
    → ∃ t, exec (.queTailWrite q v) s = .next t ∧ t.rd (Fld.queTailIndex q.val) = field v 15 0 ∧ t.rd (Fld.queTailPhase q.val) = field v 16 16
      ∧ ∀ j, j ≠ pageReg .que q.val 0x04C → t.reg j = s.reg j)
  ∧ (∀ v : Word, s.opens (pageReg .que q.val 0x04C) = true
    → s.rd (Fld.queDepthDepth q.val) ≤ field v 15 0 ∨ (s.rd (Fld.queHeadPhase q.val) = field v 16 16 ∧ field v 15 0 < s.rd (Fld.queHeadIndex q.val))
      ∨ s.rd (Fld.queDepthDepth q.val) < ringCount (s.rd (Fld.queDepthDepth q.val)) (s.rd (Fld.queHeadIndex q.val)) (s.rd (Fld.queHeadPhase q.val)) (field v 15 0) (field v 16 16)
    → ∃ t, exec (.queTailWrite q v) s = .next t ∧ t.rd (Fld.queStateErr q.val) = 1 ∧ t.rd (Fld.queStateRun q.val) = 0
      ∧ t.reg (pageReg .que q.val 0x04C) = s.reg (pageReg .que q.val 0x04C) ∧ t.batches = s.batches)
  ∧ (∀ v : Word, s.opens (pageReg .que q.val 0x048) = true → s.armed ⟨pageReg .que q.val 0x010, 31, 31⟩ = false → 2 ≤ field v 16 0 → field v 16 0 ≤ 65536
    → ∃ t, exec (.queDepthWrite q v) s = .next t ∧ t.rd (Fld.queDepthDepth q.val) = field v 16 0 ∧ ∀ j, j ≠ pageReg .que q.val 0x048 → t.reg j = s.reg j)
  ∧ (∀ v : Word, s.opens (pageReg .que q.val 0x048) = true → field v 16 0 = 1 ∨ 65536 < field v 16 0
    → ∃ t, exec (.queDepthWrite q v) s = .next t ∧ t.rd (Fld.queStateErr q.val) = 3 ∧ t.rd (Fld.queStateRun q.val) = 0
      ∧ t.reg (pageReg .que q.val 0x048) = s.reg (pageReg .que q.val 0x048))
  ∧ (s.opens (pageReg .que q.val 0x064) = true → s.halted .que q.val = false → 2 ≤ s.queState q.val → s.paired = false
    → ∃ t, exec (.queRunSet q) s = .next t ∧ t.rd (Fld.queStateRun q.val) = 1 ∧ q.val ∉ t.queErrS ∧ t.rd (Fld.queSeqSeq q.val) = s.rd (Fld.queSeqSeq q.val))
  ∧ (∀ (u : State) (bs : List Byte), s.opens (pageReg .que q.val 0x064) = true → s.halted .que q.val = false → s.queState q.val < 2
    → s.readVa (.que q) (recSeal (s.queRec { que := q, seq := 0, held := false })) 8 = (u, .ok bs) → u.paired = false
    → ∃ t, exec (.queRunSet q) s = .next t ∧ t.rd (Fld.queStateRun q.val) = 1 ∧ t.rd (Fld.queSeqSeq q.val) = bytesLe bs 0 4 % 2 ^ 32)
  ∧ (s.opens (pageReg .que q.val 0x064) = true → ∃ t, exec (.queRunClear q) s = .next t ∧ t.rd (Fld.queStateRun q.val) = 0 ∧ t.batches = s.batches)
  ∧ (∀ v : Word, s.opens (pageReg .que q.val 0x070) = true → s.armed ⟨pageReg .que q.val 0x010, 31, 31⟩ = false
    → ∃ t, exec (.queEstWrite q v) s = .next t ∧ t.reg (pageReg .que q.val 0x070)
        = (s.reg (pageReg .que q.val 0x070) &&& ~~~(regAt (pageReg .que q.val 0x070)).rw) ||| (v &&& (regAt (pageReg .que q.val 0x070)).rw)
      ∧ ∀ j, j ≠ pageReg .que q.val 0x070 → t.reg j = s.reg j)
  ∧ (s.opens (pageReg .que q.val 0x064) = true → s.unsealed q.val ≠ [] → exec (.queCancel q) s
    = .next (let u := (s.unsealed q.val).foldl (fun v x => (v.cancelBatch x).updBatch x.bid (fun y => { y with canceled := true })) s
             { u with cancels := addNew u.cancels q.val }))
  ∧ (s.opens (pageReg .que q.val 0x060) = true → exec (.queResume q) s
    = .next ((s.batches.filter (fun x => decide (x.bid.que = q) && decide (x.st = .parked))).foldl (fun u x => u.resumeBatch x) s))

/-- The Gate's work on a queue (R42, R66, R67, R373, R375), where no queue waits for tally room: with tally room a whole descriptor is fetched and kept; a fetched one is stamped; a stamped
one is accepted as the queue's next batch; a page walk fills the translation cache. Where the rules leave a point open it is the model's reading (assumption log 46, 50, 56 and 85). -/
def Obligations.QueueEnginesComplete : Prop := ∀ (q : Que) (s : State), s.parBad = [] → s.gate.room = [] →
  (∀ (t : State) (bs : List Byte) (i : Nat), s.mayFetch q.val = true → q.val ∉ s.seqWait → SMap.find s.fetched q.val = none → s.unfetched q.val ≠ 0
    → s.ringRead q 0 = (t, .ok bs) → s.tallyAlloc (s.roomHeld + needEntries (bytesLe bs 0 1)) = some i
    → bytesLe bs 0 1 % 16 ≠ 2
    → exec (.descriptorFetch q) s = .next (State.count { t.roomTaken q.val with fetched := SMap.put t.fetched q.val { raw := bs, ring := s.rd (Fld.queHeadIndex q.val), entries := 1, half := false, stamped := false, fault := none, tly := none, mirrored := false } } unitGate 0 1))
  ∧ (∀ (f : Fetched) (t : State), SMap.find s.fetched q.val = some f → f.half = false → f.stamped = false → s.phase = .up → s.flag Fld.lnkStampBaseEn = true
    → s.gate.shoot = false → (∀ x ∈ s.batches, x.again = false) → t.stamps.length ≤ stampCap
    → (descOf f.raw (s.queClass q.val) (s.queTenant q.val)).check1 = none → (descOf f.raw (s.queClass q.val) (s.queTenant q.val)).check3 = none
    → s.stampBatch (s.nextBid q) (descOf f.raw (s.queClass q.val) (s.queTenant q.val)) = (t, none)
    → exec (.stamping q) s = .next { t with fetched := SMap.put t.fetched q.val { f with stamped := true } })
  ∧ (∀ (f : Fetched) (i : Nat), SMap.find s.fetched q.val = some f → f.stamped = true → s.flag Fld.twnStatusLent = false → s.phase = .up → f.tly = none
    → s.tallyAlloc (needEntries (bytesLe f.raw 0 1)) = some i → s.mirrored = false
    → exec (.acceptance q) s = .next ((s.roomTaken q.val).acceptNow q f i) ∧ (s.newBatch q f i).bid = { que := q, seq := BitVec.ofNat 32 (s.rd (Fld.queSeqSeq q.val)), held := false }
      ∧ (s.newBatch q f i).st = .accepted)
  ∧ (∀ (r : Root) (va : BitVec 52) (t : State) (x : Nat), s.xlatePage r va.toNat false = (t, .ok x) → exec (.pageWalkComplete r va) s = .next t)

/-- The Counting House (R21, R380, R383, R393): a wanted round runs through the checks, the refusals, the four classes, deferral and the deficits; a
run is dealt where ledger, slots and heap have room; a grant is added to or becomes the balance; a meter counts its charge at the supply's voltage in units of 1/256
bead, carries the remainder, and charges the batch the report names (R379, R401). Where the rules leave a point open it is the model's reading (assumption log 49 and 80). -/
def Obligations.CountingHouseComplete : Prop := ∀ (s : State),
  (s.parBad = [] → s.house.wanted = true → s.running = true → exec .admissionRound s = .next
    (let s1 := (State.count { s with house := { s.house with wanted := false } } unitCh 1 1).checkAll.refuseDebt
     ((List.range 4).foldl (fun t c => t.classLoop c s1.batches.length) s1).defer.resetDeficits))
  ∧ (∀ (x0 x : Batch) (d : Nat) (ds : List Nat), s.running = true → s.nextBatch = some x0 → (s.zeroReady x0.bid).batch x0.bid = some x → x.st = .admitted
    → x.desc.accum = false ∨ x.zeroed = true → (s.zeroReady x0.bid).house.ledger.length < 16384
    → (s.zeroReady x0.bid).heldRoom x.cls (min 64 (x.desc.walkers - x.nextIdx)) = true → x.desc.isProbe = false → (s.zeroReady x0.bid).dealOrder = d :: ds
    → exec .dealRun s = .next ((s.zeroReady x0.bid).dealRunTo x d))
  ∧ (∀ (index : BitVec 12), s.opens 0x03054 = true → s.parBad = [] → s.armed ⟨0x03010, 31, 31⟩ = false
    → ∃ t, exec (.grantAdd false index) s = .next t ∧ (t.account false index.toNat).bal = sat48 ((s.account false index.toNat).bal + ((s.rd Fld.chGrantAmtAmt * 1024 : Nat) : Int))
      ∧ (t.account false index.toNat).cmt = (s.account false index.toNat).cmt ∧ (∀ j, j ≠ index.toNat → t.account false j = s.account false j)
      ∧ (∀ c, t.account true c = s.account true c))
  ∧ (∀ (index : BitVec 12), s.opens 0x03054 = true → s.parBad = [] → s.armed ⟨0x03010, 31, 31⟩ = false
    → ∃ t, exec (.grantAdd true index) s = .next t ∧ (t.account true (index.toNat % 4)).bal = sat48 ((s.account true (index.toNat % 4)).bal + ((s.rd Fld.chGrantAmtAmt * 1024 : Nat) : Int))
      ∧ (∀ j, t.account false j = s.account false j))
  ∧ (∀ (index : BitVec 12), s.opens 0x03054 = true → s.parBad = [] → s.armed ⟨0x03010, 31, 31⟩ = false
    → ∃ t, exec (.grantSet false index) s = .next t ∧ (t.account false index.toNat).bal = sat48 ((s.rd Fld.chGrantAmtAmt * 1024 : Nat) : Int)
      ∧ (t.account false index.toNat).cmt = (s.account false index.toNat).cmt ∧ (∀ j, j ≠ index.toNat → t.account false j = s.account false j))
  ∧ (∀ (index : BitVec 12), s.opens 0x03054 = true → s.parBad = [] → s.armed ⟨0x03010, 31, 31⟩ = false
    → ∃ t, exec (.grantSet true index) s = .next t ∧ (t.account true (index.toNat % 4)).bal = sat48 ((s.rd Fld.chGrantAmtAmt * 1024 : Nat) : Int)
      ∧ (∀ j, t.account false j = s.account false j))
  ∧ (∀ (m : Meter) (n : Nat) (b : Option Bid), ∃ t, exec (.meterReport m n b) s = .next t
    ∧ SMap.get 0 t.live (meterUnit m * 256) = SMap.get 0 s.live (meterUnit m * 256)
        + BitVec.ofNat 64 ((n * (550 + 5 * s.meterCode) + SMap.get 0 s.house.rems (meterUnit m)) / 1000)
    ∧ SMap.get 0 t.house.rems (meterUnit m) = (n * (550 + 5 * s.meterCode) + SMap.get 0 s.house.rems (meterUnit m)) % 1000)
  ∧ (∀ (m : Meter) (n k : Nat) (b : Bid) (x : Batch) (u : State), s.house.undo = none → s.batch b = some x
    → n * (550 + 5 * s.meterCode) + SMap.get 0 s.house.rems (meterUnit m) = 1000 * k → k ≤ 1048576
    → u = State.count { s with house := { s.house with rems := SMap.set 0 s.house.rems (meterUnit m) 0 } } (meterUnit m) 0 k
    → exec (.meterReport m n (some b)) s = .next (if ((u.charge x k).debtArm x).house.undo.isSome then (u.charge x k).debtArm x else ((u.charge x k).debtArm x).dimReport))

/-- Walkers (R61, R64, R132, R145, R177, R180, R185, R194): the record of the oldest entering walker is read and a ray of it is a miss or begins at the root; a
walker message of the present epoch brings its walker into a slot of the queue, one that belongs elsewhere is sent on, and a full queue spills; a walker of the side street is read back into
a slot; a cell takes the next ready walker through its node, to the children it enters, or through a triangle. Where the rules leave a point open it is the model's reading (assumption log 42 and 43). -/
def Obligations.WalkerCommandsComplete : Prop := ∀ (d : Dist) (s : State), s.walking d.val = true →
  (∀ (w : Walker) (x : Batch) (bs : List Byte), s.nextEntering d.val = some w → s.batch w.bid = some x → x.stop = false → x.desc.isGen = false → x.desc.isRefit = false → w.probe = none
    → x.desc.accum = false → s.stampRead w.bid (x.desc.inAddr + w.idx * x.desc.inBytes) x.desc.inBytes = some bs
    → exec (.walkerEntering d) s = .next (
        let t := (s.stampHost w.bid (x.desc.inAddr + w.idx * x.desc.inBytes) x.desc.inBytes).gateMessage w.dist
        let r := rayOf x.desc.recF bs
        let w1 : Walker := { w with ray := r, part := [0, 0, 0, 0] }
        if r.invalid || r.inactive then (t.setWalker { w1 with st := .done, work := [], cand := none, stage := .toWrite, ord := t.clock }).tick
        else t.place { w1 with ctxs := if r.long then [] else [topCarryShort r],
                               work := [.node (x.desc.root / 64 * 64) none 0 { opq := false, noAnyhit := false, noCull := false }] }))
  ∧ (∀ (m : Msg) (b : Bid) (i g tid : Nat) (ep : BitVec 16) (w : Walker) (t : State), s.active = true → s.isOpen d.val = true → s.nextMsg d.val (s.judged d.val) = some m
    → m.body = .walker b i g tid ep → t = (s.dropMsg m).wakeDist d.val → t.walker b i g = some w → w.st = .inTransit
    → (ep = t.epoch → (t.slots d.val).length < 4096 → exec (.walkerArrival d) s
        = .next (let u := (t.count d.val 0x14 1).writeSlot (t.atHome { w with dist := d.val })
                 u.1.settle u.2))
    ∧ (ep = t.epoch → 4096 ≤ (t.slots d.val).length → w.express = false → exec (.walkerArrival d) s
        = .next ((t.count d.val 0x14 1).spill (t.atHome { w with dist := d.val })))
    ∧ (∀ e, ep ≠ t.epoch → t.stays b = false → t.topMay b tid = false → w.bid = b → t.destOf d.val tid b = some e → e ≠ d.val
        → exec (.walkerArrival d) s = .next (t.sendWalker (t.atHome { w with dist := d.val }) e tid)))
  ∧ (∀ (w : Walker) (k : Nat) (t : State), s.reloadable d.val = [w] → w.place = some k → w.dist = d.val → (s.slots d.val).length < 2048
    → s.recordGet (streamSide d.val) (s.streetAt d.val k) 128 = (t, false) → t.isOpen d.val = true ∨ w.work = []
    → exec (.walkerReload d) s
        = .next (let u := (t.count d.val 0x0F 1).writeSlot w
                 (if w.work = [] then u.1.entering u.2 else u.1.place u.2).refreshDrained d.val))
  ∧ (∀ (w w1 : Walker) (x : Batch) (a : Nat) (cls : Option (BitVec 2)) (ctx : Nat) (fl : PathFlags) (rest : List WItem) (pick len : Nat) (hdr b0 bs tab : List Byte)
      (s1 s2 s3 s4 : State), s.nextReady d.val cellItem = some w → w.pat = 0 → s.armed (Fld.dstInjectStep w.dist) = false
    → s.batch w.bid = some x → x.stop = false → x.status = none → w.work = .node a cls ctx fl :: rest
    → s.walkRead w .node (a / 65536 * 65536) 64 = (s1, .ok hdr) → treeletLen hdr = some len → s1.walkRead w .node a 64 = (s2, .ok b0)
    → s2.nodeRest w a len b0 = (s3, .ok bs) → formCarry w bs (rayNodeBad bs len (a % 65536 / 64) cls) = some w1
    → s3.nodeTable x w1 (a / 65536 * 65536) bs (rayNodeBad bs len (a % 65536 / 64) cls) = (s4, .ok tab)
    → (rayNodeBad bs len (a % 65536 / 64) cls = false → exec (.nodeStep d pick) s
        = .next (let c := cascade x w1 (w1.carry ctx) bs tab len
                 ((s4.count w.dist 1 c.2.1).fmtViols w.bid (badChildren bs len + c.2.2)).place
                   { w1 with work := rotate (c.1.map (childItem bs len (a / 65536 * 65536) ctx fl)) pick ++ rest }))
    ∧ (rayNodeBad bs len (a % 65536 / 64) cls = true → exec (.nodeStep d pick) s
        = .next (((s4.count w.dist 1 1).fmtViol w1.bid).place { w1 with work := rest })))
  ∧ (∀ (w : Walker) (x : Batch) (bs : List Byte) (a j ctx : Nat) (fl : PathFlags) (rest : List WItem) (pick : Nat) (tie : Bool) (v : V3 × V3 × V3) (u : State),
      s.nextReady d.val triItem = some w → w.pat = 0 → s.armed (Fld.dstInjectStep w.dist) = false → s.batch w.bid = some x → x.stop = false → x.status = none
    → w.work = .tri a bs j ctx fl :: rest → triVerts bs j = some v → vertsBad v = false
    → u = (if (triTest (w.carry ctx) v).2 then (s.count w.dist 2 1).count w.dist 3 1 else s.count w.dist 2 1)
    → ((triTest (w.carry ctx) v).1 = none → exec (.triangleTest d pick tie) s = .next (u.place { w with work := rest }))
    ∧ (∀ h : TriHit, (triTest (w.carry ctx) v).1 = some h → (f32 h.t).isFin = true → (f32 w.ray.tmin).le (f32 h.t) = true → (f32 h.t).le (tLimit x w) = true
        → culled w (h.front != (((w.inst ctx).map (·.flip)).getD false)) (fl.noCull || bit (triFlags bs j) 1) = false
        → exec (.triangleTest d pick tie) s = .next (u.offer x { w with work := rest }
            { t := h.t, prim := bytesWord bs 0x30 + BitVec.ofNat 32 j, inst := ((w.inst ctx).map (·.id)).getD 0xFFFFFF, iuser := ((w.inst ctx).map (·.user)).getD 0,
              kind := 1, b1 := h.b1, b2 := h.b2, front := h.front != (((w.inst ctx).map (·.flip)).getD false), recA := a, luser := bytesWord bs 0x38, ctx := ctx, fl := fl }
            (fl.opq || bit (triFlags bs j) 0) fl.noAnyhit tie))
    ∧ (∀ h : TriHit, (triTest (w.carry ctx) v).1 = some h → (f32 h.t).isFin = false ∨ (f32 w.ray.tmin).le (f32 h.t) = false ∨ (f32 h.t).le (tLimit x w) = false
        → exec (.triangleTest d pick tie) s = .next (u.place { w with work := rest })))

/-- Squares and plots (R167, R172, R195): the load decision of an open district; the end of a load, where the district still serves the treelet and the
first waiting batch may read it; a draining copy's slot becomes free. Where the rules leave a point open it is the model's reading (assumption log 48 and 51). -/
def Obligations.PlotCommandsComplete : Prop := ∀ (d : Dist) (s : State),
  (s.walking d.val = true → s.isOpen d.val = true → exec (.loadDecision d) s = .next (s.loadDecision d.val))
  ∧ (∀ (ch : Fin 2) (k : Nat) (p : PlotSlot), s.walking d.val = true → s.isOpen d.val = true
    → (s.dist d.val).plot.find? (fun p => decide (p.2.st = .loading) && (decide (p.2.ch = some ch.val) || (decide (ch.val = 0) && decide (p.2.ch = none)))) = some (k, p)
    → exec (.plotLoadComplete d ch) s = .next (s.finishLoad d.val ch.val k p))
  ∧ (∀ (slot : Fin 16) (p : PlotSlot), SMap.find (s.dist d.val).plot slot.val = some p → p.st = .draining
    → exec (.copyDrainEnd d slot) s = .next ((s.freeSlot d.val slot.val).topLoads d.val) ∧ SMap.find ((s.freeSlot d.val slot.val).dist d.val).plot slot.val = none
      ∧ (s.house.top = [] → exec (.copyDrainEnd d slot) s = .next (s.freeSlot d.val slot.val)))

/-- The avenues and the map (R14, R16, R163, R164): a message crosses one link with its CRC good; a replay with its CRC good delivers the message, and
after a third bad one the link closes; a lookup is answered by the district's own share or asked of the share's holder; a reply that
carries the present epoch is kept, and an older one makes the walkers ask again. Where the rules leave a point open it is the model's reading (assumption log 52, 55 and 82). -/
def Obligations.AvenueCommandsComplete : Prop := ∀ (s : State), s.active = true →
  (∀ (n : Nat) (m k : Msg) (b : Nat) (x : Dir) (crcOk : Bool), s.msgs[n]? = some m → s.isOpen m.dst = true ∨ m.body.walker? = none → s.reaches m.here m.dst = true → m.bad = false
    → s.movable n = some (k, x) → neighbour m.here x = some b → exec (.avenueMessageReceive n crcOk) s = .next (s.hop n m x b crcOk))
  ∧ (∀ (n : Nat) (m : Msg) (b : Nat), s.msgs[n]? = some m → m.via = some b → s.linkOpen m.here b = true
    → exec (.avenueReplay n true) s = .next (s.crossed n m b)
      ∧ exec (.avenueReplay n false) s = .next (if m.replays < 2 then s.askReplay n m b (m.replays + 1) else s.closeLink m.here b))
  ∧ (∀ (d : Dist) (tid : Nat), s.shareUp d.val = true
    → (s.wantedTids d.val).find? (fun x => decide (s.memoAns d.val x = none) && decide (x ∉ (s.dist d.val).asked)) = some tid
    → exec (.mapLookup d) s = .next (if mapHolder tid = d.val then (s.mapParity tid).answered d.val tid (s.mapEntry tid)
        else ((s.updDist d.val (fun x => { x with asked := x.asked ++ [tid] })).count d.val 0x10 1).sendMsg .request d.val (mapHolder tid) (.lookup tid)))
  ∧ (∀ (d : Dist) (m : Msg) (tid : Nat) (ep : BitVec 16) (ans : Option (List Word)), s.gets d 2 m → m.body = .lookupReply tid ep ans
    → exec (.mapLookupReply d) s = .next (if ep = (s.dropMsg m).epoch then (s.dropMsg m).answered d.val tid ans
        else (s.dropMsg m).updDist d.val (fun x => { x with asked := x.asked.filter (fun y => decide (y ≠ tid)) })))

/-- Results (R190, R303, R311, R319, R322): a walker's own write, or its acknowledgement where the batch is gone; a packed block; a closed run flushed;
a contribution to an unlocked slot added; a district's done notices given for one run. Where the rules leave a point open it is the model's reading (assumption log 9 and 58). -/
def Obligations.ResultCommandsComplete : Prop := ∀ (s : State), s.active = true →
  (∀ (d : Dist), exec (.resultWrite d) s = .next (s.firstMoved (fun w => match s.batch w.bid with
      | none => s.ackWalker w 0
      | some x => s.writeOne x w) (s.doneAt d.val s.ownWrite)))
  ∧ (∀ (d : Dist) (w : Walker) (rest : List Walker) (x : Batch), s.doneAt d.val s.packReady = w :: rest → s.batch w.bid = some x
    → exec (.packWrite d) s = .next (s.packOne x w))
  ∧ (∀ (b : Bid) (x : Batch) (l : LedgerRun) (t : State), s.batch b = some x → s.house.ledger.find? (fun l => decide (l.bid = b) && decide (l.run = x.nextRun)) = some l
    → x.desc.packs = true → x.status = none → x.stop = false → l.done = l.dealt → s.mayWrite b = true
    → (s.recordGet streamPack (s.packAt l.place) 1024).2 = false → (s.recordGet streamPack (s.packAt l.place) 1024).1.flushWrites x l = some t
    → exec (.runFlush b) s = .next (t.updBatch b (fun y => { y with nextRun := y.nextRun + 1, cursor := y.cursor + maskCount l.hit })))
  ∧ (∀ (pick : Nat) (c : Contrib) (x : Batch) (t : State), s.contribs[pick]? = some c → s.batch c.bid = some x → s.mayWrite c.bid = true
    → (∀ l ∈ s.locks, ¬ (l.bid = c.bid ∧ l.slot = c.slot))
    → State.addSlot { s with contribs := s.contribs.eraseIdx pick } x c.slot c.words (.result c.bid c.idx 0) = some t
    → exec (.contribution pick) s = .next t)
  ∧ (∀ (r : DoneReport) (w : Walker) (rest : List Walker), s.doneAt r.dist.val (fun w => decide (w.stage = .acked)) = w :: rest
    → exec (.doneNotice r) s = .next (let t := r.charges.foldl (fun u c => u.meter (.district r.dist) c.1 c.2) s
        ((((w :: rest.filter (fun y => decide (y.bid = w.bid) && decide (y.run = w.run))).foldl (fun u y => u.noticeOne y) t).ledgerUpd w.bid w.run id).noticeTwin w.bid).refreshDrained r.dist.val))

/-- Completion (R71, R330, R331, R425): once a batch is finished and the batches before it are sealed, its completion record is written; then its queue's
seal advances; then its wake message and its interrupt are sent and the batch is forgotten. Where the rules leave a point open it is the model's reading (assumption log 9 and 57). -/
def Obligations.CompletionCommandsComplete : Prop := ∀ (b : Bid) (x : Batch) (s : State), s.active = true → s.parBad = [] → s.batch b = some x →
  (∀ (t : State), x.completable = true → s.finished x = true → x.handed = false → s.earlier x = [] → s.mayWrite b = true → b.que.val ∉ s.tallyStop
    → s.tallyOk x = (t, true) → exec (.completionWrite b) s = .next ((t.invalWrote x).completeNow x))
  ∧ (x.st = .completing → (∀ h ∈ s.hostWr, h.fr ≠ .completion b) → s.earlier x = [] → s.mayWrite b = true → exec (.sealCas b) s = .next (s.sealNow x))
  ∧ (x.st = .isSealed → s.mayWrite b = true → x.wake = false → x.irq = true → b.held = false → x.bid = b
    → (s.reg (pageReg .que b.que.val 0x078)).toNat % 2 ^ 20 = 0 → (s.reg (pageReg .que b.que.val 0x074)).toNat / 4 = 0
    → exec (.wakeMessage b) s = .next { s with
        batches := s.batches.filter (fun y => decide (y.bid ≠ b))
        house := { s.house with gone := s.house.gone.filter (fun g => decide (g.1 ≠ b)) ++ [(b, x.tenant, x.cls, x.frac)] } })
  ∧ (∀ (y : Batch) (u : State), x.st = .isSealed → s.mayWrite b = true
    → u = (if x.irq then (if x.wake then s.wakeWrite x else s).queueIrq x else if x.wake then s.wakeWrite x else s) → u.batch b = some y
    → exec (.wakeMessage b) s = .next (u.goneBatch y))

/-- The Gate towards the host (R71, R333, R334, R445, R447): an event interrupt asked for is sent once, and not at all to address zero; a fault record
is written where the ring has room, and discarded and counted with no ring; the head moves on; an acknowledgement takes its write out of those
outstanding; host memory shows the bytes it is said to hold. Where the rules leave a point open it is the model's reading (assumption log 9, 58 and 76). -/
def Obligations.HostCommandsComplete : Prop := ∀ (s : State),
  (s.parBad = [] → s.gate.evtWant = true → (s.reg 0x01074).toNat % 2 ^ 20 * 2 ^ 32 + (s.reg 0x01070).toNat / 4 * 4 ≠ 0
    → ∃ t, exec .eventInterrupt s = .next t ∧ t = (State.sendIrq { s with gate := { s.gate with evtWant := false } } 0x01070 0x01074 0x01078).1
      ∧ t.gate.irqs = s.gate.irqs ++ [((s.reg 0x01074).toNat % 2 ^ 20 * 2 ^ 32 + (s.reg 0x01070).toNat / 4 * 4, s.reg 0x01078)])
  ∧ (s.parBad = [] → s.gate.evtWant = true → (s.reg 0x01074).toNat % 2 ^ 20 * 2 ^ 32 + (s.reg 0x01070).toNat / 4 * 4 = 0
    → exec .eventInterrupt s = .next { s with gate := { s.gate with evtWant := false } })
  ∧ (∀ (f : FaultRec) (rest : List FaultRec), s.parBad = [] → s.faults = f :: rest → (∀ h ∈ s.hostWr, h.fr ≠ .fault) → s.rd Fld.lnkFringCtlDepth = 0
    → ∃ t, exec .faultRecordWrite s = .next t ∧ (∃ more, t.faults = rest ++ more) ∧ t.rd Fld.lnkFringCtlLost = min 255 (s.rd Fld.lnkFringCtlLost + 1))
  ∧ (∀ (f : FaultRec) (rest : List FaultRec) (t : State), s.parBad = [] → s.faults = f :: rest → (∀ h ∈ s.hostWr, h.fr ≠ .fault) → s.rd Fld.lnkFringCtlDepth ≠ 0
    → s.fringFull = false
    → s.writeVa .gate (s.rd Fld.lnkFringHiAddrHi * 2 ^ 32 + s.rd Fld.lnkFringLoAddrLo * 64 + s.rd Fld.lnkFringTailIndex * 64) f.bytes .fault = (t, .ok ())
    → exec .faultRecordWrite s = .next t)
  ∧ (∀ v : Word, s.opens 0x01050 = true → (s.hostSet 0x01050 v).fringFull = false → exec (.fringHeadWrite v) s = .next ((s.hostSet 0x01050 v).wr Fld.lnkFringCtlFull 0))
  ∧ (∀ (n : Nat) (h : HostWr), s.hostWr[n]? = some h → exec (.hostWriteAck n) s = .next ((State.acked { s with hostWr := s.hostWr.eraseIdx n } h.fr).shootTick))
  ∧ (∀ (pa : BitVec 52) (data : List Byte), ∃ t, exec (.hostReadData pa data) s = .next t
    ∧ (∀ i < data.length, Memory.byte t.host (pa.toNat + i) = data.getD i 0)
    ∧ (∀ a, a < pa.toNat ∨ pa.toNat + data.length ≤ a → Memory.byte t.host a = Memory.byte s.host a) ∧ { t with host := s.host } = s)

/-- Probes, repairs and maintenance (R122, R207, R212, R213, R366): a tile takes the first waiting probe's job; candidates and end notices reach the
heap's home; a threshold that is lower replaces the one carried; a refit batch whose records are all applied is repaired; an admitted
maintenance batch runs its operation. Where the rules leave a point open it is the model's reading (assumption log 59 and 62). -/
def Obligations.ProbeAndMaintenanceComplete : Prop := ∀ (s : State),
  (∀ (d : Dist) (pick k : Nat) (w : Walker), s.walking d.val = true → s.nextProbe d.val = some w → (s.dist d.val).tile = some k → s.tileFirst d.val (tileKey w.cls w.ord) = true
    → s.armed (Fld.dstInjectTile d.val) = false → w.pat = 0 → exec (.probeJob d pick) s = .next (s.job d.val pick w))
  ∧ (∀ (d : Dist) (m : Msg) (b : Bid) (i g num : Nat) (ents : List (Word × Word × Nat)), s.heapWorks d.val = true → s.gets d 3 m → m.body = .candidates b i g num ents
    → exec (.candidateMessage d) s = .next ((s.dropMsg m).candidatesIn d.val m.src b i g ents))
  ∧ (∀ (d : Dist) (m : Msg) (b : Bid) (i g : Nat) (tau : Word), s.heapWorks d.val = true → s.gets d 4 m → m.body = .tau b i g tau
    → exec (.tauReply d) s = .next ((s.dropMsg m).updWalker (fun w => w.is b i g && decide (w.dist = d.val) && decide (w.st ≠ .inTransit)) (fun w =>
        { w with probe := w.probe.map (fun p => { p with tau := if (f32 tau).lt (f32 p.tau) then tau else p.tau }) })))
  ∧ (∀ (d : Dist) (m : Msg) (b : Bid) (i g sent visits : Nat), s.heapWorks d.val = true → s.gets d 5 m → m.body = .endNotice b i g sent visits
    → exec (.endNotice d) s = .next ((s.dropMsg m).endAtHome d.val b i g sent visits))
  ∧ (∀ (b : Bid) (x : Batch) (d : Nat), s.active = true → s.batch b = some x → x.refit = true → x.stop = false → x.status = none → x.st = .admitted
    → x.doneCount = x.desc.walkers → d ∈ allDists → s.isOpen d = true → exec (.refitRepair b) s = .next (s.repairBatch x))
  ∧ (∀ (b : Bid) (x : Batch) (bs : List Byte), s.active = true → s.batch b = some x → x.work = true → x.stop = false → x.status = none → x.st = .admitted
    → s.stampRead b x.desc.inAddr 16 = some bs → exec (.maintOperation b) s = .next ((s.hostRead 16).maintBatch x bs))

/-- Caches and scene memory (R346 to R349, R356, R359 to R363, R367, R368): fills, evictions, prefetches, scrub reads and refreshes of a port; aperture
transfers within the installed bytes; the maintenance operations, which make `BUSY` read 1 until they complete; and the cache controls, under
which an enable bit rises only after an invalidate-all. Where the rules leave a point open it is the model's reading (assumption log 34, 60 and 61). -/
def Obligations.CacheCommandsComplete : Prop := ∀ (s : State),
  (∀ (p : Port) (st : Fin 1024) (addr : BitVec 40), s.phase = .up → (s.port p.val).inResetP = false → (s.portAt (addr.toNat / 64 * 64)).map (·.1) = some p.val
    → ((s.port p.val).misses.find? (fun m => decide (m.stream = st.val) && decide (m.addr = addr.toNat / 64 * 64)) = none
        → exec (.stackFill p st addr) s = .next (s.sectorRead st.val (addr.toNat / 64 * 64)).1.apGo)
    ∧ (∀ m, (s.port p.val).misses.find? (fun m => decide (m.stream = st.val) && decide (m.addr = addr.toNat / 64 * 64)) = some m
        → exec (.stackFill p st addr) s = .next (s.fill p.val m).apGo))
  ∧ (∀ (p : Port), (s.port p.val).inResetP = false → exec (.evictionWrite p) s = .next (s.evictOldest p.val))
  ∧ (∀ (p : Port) (st : Fin 1024), s.parBad = [] → s.active = true → s.present p.val = true → s.scOn p.val = true → (s.port p.val).inResetP = false
    → exec (.prefetch p st) s = .next (s.prefetchStream p.val st.val))
  ∧ (∀ (p : Port), s.parBad = [] → s.active = true → s.present p.val = true → (s.port p.val).inResetP = false → s.dimming = false
    → (s.port p.val).scrubs < s.rd (Fld.stkScrubRate p.val) → exec (.scrubRead p) s = .next (s.scrub p.val))
  ∧ (∀ (p : Port), s.present p.val = true → ∃ t, exec (.stackRefresh p) s = .next t ∧ (t.port p.val).scrubs = 0 ∧ (t.port p.val).refresh = (s.port p.val).refresh + 1
    ∧ (∀ q, q ≠ p.val → t.port q = s.port q) ∧ { t with stk := s.stk } = s)
  ∧ (∀ (a : ApertureAt) (len : Nat) (t : State) (r : ApRead), s.phase = .up → s.rd Fld.blkRungCurrent < 3 → a.addr.toNat + len ≤ s.installed → s.gate.apWait = []
    → s.apStep { tag := a.tag, addr := a.addr.toNat, len := len, next := a.addr.toNat, got := [], poison := false } (len / 64 + 2) = (t, r)
    → (r.addr + r.len ≤ r.next → exec (.apertureRead a len) s = .next (t.apReturn r))
    ∧ (r.next < r.addr + r.len → exec (.apertureRead a len) s = .next { t with gate := { t.gate with apWait := t.gate.apWait ++ [r] } }))
  ∧ (∀ (a : ApertureAt) (data : List Byte), s.phase = .up → s.rd Fld.blkRungCurrent < 3 → a.addr.toNat + data.length ≤ s.installed → s.gate.apWait = []
    → exec (.apertureWrite a data) s = .next (s.sceneWrite (streamHost a.tag) a.addr.toNat data))
  ∧ (∀ (target : BitVec 4) (i : Instr) (op : MaintOp) (code : Nat),
      ((i, op, code) = (.mopInval target, .inval, 1) ∨ (i, op, code) = (.mopClean target, .clean, 2) ∨ (i, op, code) = (.mopCleanInval target, .cleanInval, 3)
        ∨ (i, op, code) = (.mopZero target, .zero, 4))
    → s.opens 0x00070 = true → s.halted .blk = false → s.flag Fld.blkMopCmdBusy = false
    → (s.hostSet 0x00070 (BitVec.ofNat 32 (target.toNat * 256))).mopRange.lo < (s.hostSet 0x00070 (BitVec.ofNat 32 (target.toNat * 256))).mopRange.hi
    → ∃ t, exec i s = .next t ∧ t.rd Fld.blkMopCmdBusy = 1
      ∧ t.gate.mop = some (code, target.toNat, (s.hostSet 0x00070 (BitVec.ofNat 32 (target.toNat * 256))).mopRange.lo, (s.hostSet 0x00070 (BitVec.ofNat 32 (target.toNat * 256))).mopRange.hi)
      ∧ t.scene = ((s.hostSet 0x00070 (BitVec.ofNat 32 (target.toNat * 256))).maint op target.toNat (s.hostSet 0x00070 (BitVec.ofNat 32 (target.toNat * 256))).mopRange).scene
      ∧ t.stk = ((s.hostSet 0x00070 (BitVec.ofNat 32 (target.toNat * 256))).maint op target.toNat (s.hostSet 0x00070 (BitVec.ofNat 32 (target.toNat * 256))).mopRange).stk)
  ∧ (s.flag Fld.blkMopCmdBusy = true → s.resetHolds = false → ∃ t, exec .mopComplete s = .next t ∧ t.rd Fld.blkMopCmdBusy = 0 ∧ t.gate.mop = none
    ∧ t.rd (Fld.status 0 1) = 1)
  ∧ (s.opens 0x00060 = true → ∃ t, exec .dcInv s = .next t ∧ t.gate.dcInv = true ∧ ∀ d, (t.dist d).core.desk = [])
  ∧ (s.opens 0x00060 = true → ∃ t, exec .ncInv s = .next t ∧ t.gate.ncInv = true ∧ ∀ d, (t.dist d).ncache = [])
  ∧ (∀ (p : Port), s.opens 0x00060 = true → ∃ t, exec (.scInv p) s = .next t ∧ (t.port p.val).lines = [] ∧ (t.port p.val).invDone = true ∧ (t.port p.val).evict = (s.port p.val).evict
    ∧ ∀ q, q ≠ p.val → t.port q = s.port q)
  ∧ (∀ (c : CacheSel), s.opens 0x00060 = true → s.armed Fld.errInjectEnableRefused = false → s.armed ⟨0x00010, 31, 31⟩ = false → s.flag ⟨0x00060, cacheBit c, cacheBit c⟩ = false
    → s.invalidated c = true → ∃ t, exec (.cacheEnable c) s = .next t ∧ t.rd ⟨0x00060, cacheBit c, cacheBit c⟩ = 1 ∧ ∀ j, j ≠ 0x00060 → t.reg j = s.reg j)
  ∧ (∀ (c : CacheSel), s.opens 0x00060 = true → s.armed Fld.errInjectEnableRefused = false → s.flag ⟨0x00060, cacheBit c, cacheBit c⟩ = false
    → s.invalidated c = false → ∃ t, exec (.cacheEnable c) s = .next t ∧ t.rd ⟨0x00060, cacheBit c, cacheBit c⟩ = 0 ∧ t.rd Fld.blkCacheCtlEnableRefused = 1
      ∧ t.rd ⟨0x0E040, 3, 3⟩ = 1)
  ∧ (∀ (c : CacheSel), s.opens 0x00060 = true → s.flag ⟨0x00060, cacheBit c, cacheBit c⟩ = true
    → ∃ t, exec (.cacheDisable c) s = .next t ∧ t.rd ⟨0x00060, cacheBit c, cacheBit c⟩ = 0 ∧ t.invalidated c = false)

/-- Districts (R177, R181, R188, R189, R191, R192): the host closes and opens a district, reopens one that has passed its reset, and places its side street;
an orderly closure moves the walkers out; a fault closure loses what the district held; the census counts markers and replays. Where the rules leave a point open it is the model's reading (assumption log 53 and 54). -/
def Obligations.DistrictCommandsComplete : Prop := ∀ (d : Dist) (s : State),
  (s.opens (pageReg .dst d.val 0x040) = true → exec (.dstClose d) s = .next ((s.hostSet (pageReg .dst d.val 0x040) 1).setReason d.val rsHost true)
    ∧ (((s.hostSet (pageReg .dst d.val 0x040) 1).setReason d.val rsHost true).dist d.val).reasons.getLsbD rsHost = true)
  ∧ (s.opens (pageReg .dst d.val 0x040) = true → exec (.dstOpen d) s = .next ((s.hostSet (pageReg .dst d.val 0x040) 0).setReason d.val rsHost false)
    ∧ (((s.hostSet (pageReg .dst d.val 0x040) 0).setReason d.val rsHost false).dist d.val).reasons.getLsbD rsHost = false)
  ∧ (s.opens (pageReg .dst d.val 0x040) = true → (s.dist d.val).renewed = true → (s.dist d.val).testFail = false
    → exec (.dstReopen d) s = .next (s.setReason d.val rsFault false) ∧ ((s.setReason d.val rsFault false).dist d.val).reasons.getLsbD rsFault = false)
  ∧ (∀ v : Word, s.opens (pageReg .dst d.val 0x048) = true → (s.hostSet (pageReg .dst d.val 0x048) v).reg (pageReg .dst d.val 0x048) = s.reg (pageReg .dst d.val 0x048)
    → exec (.dstSideBaseWrite d v) s = .next ((s.hostSet (pageReg .dst d.val 0x048) v).setReason d.val rsNoSide (!v.getLsbD 0)))
  ∧ (∀ v : Word, s.opens (pageReg .dst d.val 0x048) = true → (s.hostSet (pageReg .dst d.val 0x048) v).reg (pageReg .dst d.val 0x048) ≠ s.reg (pageReg .dst d.val 0x048)
    → exec (.dstSideBaseWrite d v) s = .next (((s.hostSet (pageReg .dst d.val 0x048) v).loseStreet d.val).setReason d.val rsNoSide (!v.getLsbD 0)))
  ∧ (s.walking d.val = true → s.isOpen d.val = false → exec (.orderlyClosure d) s = .next (s.orderly d.val))
  ∧ ((s.dist d.val).reasons.getLsbD 3 = true → (s.dist d.val).faultDone = false → exec (.faultClosure d) s = .next (s.faultLoss d.val))
  ∧ (∀ c : Census, s.house.census = some c → d.val ∈ c.waiting → s.markersIn d.val c.since = true
    → exec (.censusMarker d) s = .next { s with house := { s.house with census := some { c with waiting := c.waiting.filter (fun e => decide (e ≠ d.val)) } } })
  ∧ (∀ c : Census, s.house.census = some c → (∀ e ∈ c.waiting, s.isOpen e = false) → s.running = true
    → ((s.batches.map (·.bid)).foldl (fun u b => u.replayBatch b) s.loseStranded).stillLost = false
    → exec .censusReplay s = .next (State.resetFaulted { ((s.batches.map (·.bid)).foldl (fun u b => u.replayBatch b) s.loseStranded) with
        house := { ((s.batches.map (·.bid)).foldl (fun u b => u.replayBatch b) s.loseStranded).house with census := none } }))

/-- Power (R399, R402 to R405, R505): the voltage handshake raises, acknowledges and drops its lines; a reading becomes the district's temperature; a
silent sensor and a watch ring that expires report, and close, fail or reset what they watch; a ring whose limit is zero is disabled (R27, R29). Where the rules leave a point open it is the model's reading (assumption log 63, 64 and 83). -/
def Obligations.PowerCommandsComplete : Prop := ∀ (s : State),
  (s.parBad = [] → s.power.vreq = false → s.power.vack = false → s.armed Fld.pwrInjectVack = false → ∃ t, exec .voltageRequest s = .next t
    ∧ t.power = { s.power with vreq := true } ∧ t.rd Fld.pwrVstatusRequest = s.voltCode (s.rd Fld.pwrVstatusDim) % 128 ∧ t.rd Fld.pwrVstatusPending = 1)
  ∧ (s.power.vreq = true → s.power.vack = false → exec .voltageAck s = .next (State.dimAck
      (State.wr (State.wr { s with power := { s.power with vreq := false, vack := true } } Fld.pwrVstatusAcked (s.rd Fld.pwrVstatusRequest)) Fld.pwrVstatusPending 0)))
  ∧ (s.power.vack = true → s.power.vreq = false → exec .voltageAckFall s = .next { s with power := { s.power with vack := false, stuck := false } })
  ∧ (s.power.vreq = true ∨ s.power.vack = true → s.power.stuck = false → 16 ≤ s.rd Fld.pwrWatchVack → ∃ t, exec .vackRingExpiry s = .next t ∧ t.power = { s.power with stuck := true }
    ∧ t.rd (Fld.status 7 0) = 1 ∧ t.rd ⟨0x0E040, 17, 17⟩ = 1)
  ∧ (∀ (d : Dist) (r : BitVec 10), s.parBad = [] → s.rd Fld.blkRungCurrent ≠ 4 → exec (.sensorReading d r) s = .next (s.reading d.val r.toNat))
  ∧ (∀ (d : Dist), s.rd Fld.blkRungCurrent ≠ 4 → 16 ≤ s.rd Fld.pwrWatchSensor → ∃ t, exec (.sensorRingExpiry d) s = .next t ∧ t.rd (Fld.status 7 3) = 1 ∧ t.rd ⟨0x0E040, 17, 17⟩ = 1
    ∧ (t.dist d.val).sensFault = true ∧ t.walking d.val = false)
  ∧ (∀ (d : Dist), s.walking d.val = true → s.rd (Fld.dstRungCurrent d.val) = 0 → 16 ≤ s.rd (Fld.dstWatchStep d.val) → exec (.stepRingExpiry d none) s = .next (s.stepRing d.val)
    ∧ ((s.dist d.val).reasons.getLsbD 3 = false → ((s.stepRing d.val).dist d.val).reasons.getLsbD 3 = true ∧ (s.stepRing d.val).rd (Fld.status (0x40 + d.val) 2) = 1))
  ∧ (∀ (d : Dist) (x : Dir) (b : Nat), s.active = true → (s.dist d.val).inReset = false → (s.dist d.val).routerDead = false → 16 ≤ s.rd (Fld.dstWatchStep d.val)
    → neighbour d.val x = some b → exec (.stepRingExpiry d (some x)) s = .next ((s.stepRing d.val).unlink d.val b) ∧ ((s.stepRing d.val).unlink d.val b).linkOpen d.val b = false)
  ∧ (∀ (d : Dist), s.coreOn d.val = true → (s.dist d.val).core.groups ≠ [] → 16 ≤ s.rd (Fld.dstWatchCore d.val) → exec (.coreRingExpiry d) s = .next (s.coreExpiry d.val))
  ∧ (∀ (d : Dist) (t : Fin 2), s.coreOn d.val = true → (s.dist d.val).core.tiles.getLsbD t.val = false → s.tileWork d.val = true → 16 ≤ s.rd (Fld.dstWatchCore d.val) → exec (.tileRingExpiry d t) s = .next (s.failTile d.val t.val))
  ∧ (∀ (p : Port), s.present p.val = true → (s.port p.val).inResetP = false → s.phase = .up → s.rd Fld.blkRungCurrent < 3 → 16 ≤ s.rd (Fld.stkWatchReq p.val) → ∃ t, exec (.stackReqRingExpiry p) s = .next t
    ∧ (t.port p.val).inResetP = true ∧ t.rd (Fld.status (8 + p.val) 5) = 1 ∧ t.rd ⟨0x0E040, 17, 17⟩ = 1)
  ∧ (s.active = true → 16 ≤ s.rd Fld.lnkWatchHost → ∃ t, exec .hostRingExpiry s = .next t ∧ t.phase = .warmWanted ∧ t.rd Fld.blkStatusCause = 10 ∧ t.rd ⟨0x0E040, 17, 17⟩ = 1)
  ∧ (s.rd Fld.pwrWatchVack < 16 → exec .vackRingExpiry s = .next s) ∧ (s.rd Fld.lnkWatchHost < 16 → exec .hostRingExpiry s = .next s)
  ∧ (∀ d : Dist, (s.rd Fld.pwrWatchSensor < 16 → exec (.sensorRingExpiry d) s = .next s) ∧ (s.rd (Fld.dstWatchStep d.val) < 16 → ∀ x, exec (.stepRingExpiry d x) s = .next s)
    ∧ (s.rd (Fld.dstWatchCore d.val) < 16 → exec (.coreRingExpiry d) s = .next s ∧ ∀ k, exec (.tileRingExpiry d k) s = .next s))
  ∧ (∀ p : Port, s.rd (Fld.stkWatchReq p.val) < 16 → exec (.stackReqRingExpiry p) s = .next s)

/-- Rungs and link states (R408 to R413, R443, R448): a target is stored and a shallower one wakes; the block enters its target once it is quiet, and wakes
for what asked it to; a district enters its rung once drained or idle and wakes for a message or a run; the host link enters L1 in Nap
while idle, and either link comes back to L0. Where the rules leave a point open it is the model's reading (assumption log 65). -/
def Obligations.RungCommandsComplete : Prop := ∀ (s : State),
  (∀ v : Word, s.opens 0x00050 = true → field v 2 0 ≤ 4 → (s.hostSet 0x00050 v).rungHeld = false → exec (.blkRungWrite v) s
    = .next (let u := s.hostSet 0x00050 v
             if field v 2 0 < u.rd Fld.blkRungCurrent then u.wakeTo (field v 2 0)
             else if field v 2 0 = u.rd Fld.blkRungCurrent then u.wr Fld.blkRungWaiting 0
             else u.wr Fld.blkRungWaiting (b2n (decide (3 ≤ field v 2 0) && !u.dozeReady))))
  ∧ (s.parBad = [] → s.phase = .up → s.rd Fld.blkRungCurrent < s.rd Fld.blkRungTarget → s.rd Fld.blkRungTarget < 3 ∨ s.dozeReady = true → s.quiesced = true
    → exec .blockRungEntry s = .next (s.enterRung (s.rd Fld.blkRungTarget)))
  ∧ (∀ w : Wake, s.parBad = [] → s.rd Fld.blkRungCurrent ≠ 0 → s.wakeAsked w = true
    → exec (.blockWake w) s = .next ((State.wr { s with gate := { s.gate with held := none } } Fld.blkRungTarget 0).wakeTo 0))
  ∧ (∃ t, exec .pokMainRise s = .next t ∧ (¬ (s.rd Fld.blkRungCurrent = 4 ∧ s.power.rungOut = 3 ∧ s.rungHeld = false) → t = { s with power := { s.power with pokMain := true } })
    ∧ (s.rd Fld.blkRungCurrent = 4 ∧ s.power.rungOut = 3 ∧ s.rungHeld = false → t = (State.wakeTo { s with power := { s.power with pokMain := true } } (s.rd Fld.blkRungTarget))))
  ∧ (s.rd Fld.blkRungCurrent = 2 → s.rd Fld.lnkLinkLstate = 2 → s.hostWr = [] → ∃ t, exec .hostLinkL1Entry s = .next t ∧ t.rd Fld.lnkLinkLstate = 3 ∧ t.rd (Fld.status 1 3) = 1)
  ∧ (s.rd Fld.lnkLinkLstate = 3 ∨ s.rd Fld.lnkLinkLstate = 4 → ∃ t, exec (.linkStateExit false) s = .next t ∧ t.rd Fld.lnkLinkLstate = 2 ∧ t.rd (Fld.status 1 3) = 1)
  ∧ (s.twin.lstate = 3 ∨ s.twin.lstate = 4 → exec (.linkStateExit true) s = .next { s with twin := { s.twin with lstate := 2 } })
  ∧ (∀ (d : Dist) (v : Word), s.opens (pageReg .dst d.val 0x068) = true → exec (.dstRungWrite d v) s
    = .next (let u := s.hostSet (pageReg .dst d.val 0x068) v
             let c := u.rd (Fld.dstRungCurrent d.val)
             State.setReason (if field v 1 0 < c then (u.leaveRung d.val c).wr (Fld.dstRungCurrent d.val) (if field v 1 0 = 2 then 2 else 0) else u)
               d.val rsRung (decide (2 ≤ field v 1 0))))
  ∧ (∀ (d : Dist), s.phase = .up → (s.dist d.val).inReset = false → s.rd (Fld.dstRungTarget d.val) = 2 → s.rd (Fld.dstRungCurrent d.val) < 2 → (s.dist d.val).drained = true
    → s.heapUsed d.val = 0 → (s.dist d.val).core.groups = [] → exec (.districtRungEntry d) s = .next (s.wr (Fld.dstRungCurrent d.val) 2))
  ∧ (∀ (d : Dist), s.phase = .up → (s.dist d.val).inReset = false → s.rd (Fld.dstRungTarget d.val) = 1 → s.rd (Fld.dstRungCurrent d.val) = 0 → s.distIdle d.val = true
    → exec (.districtRungEntry d) s = .next (s.wr (Fld.dstRungCurrent d.val) 1))
  ∧ (∀ (d : Dist) (m : Msg), m ∈ s.msgs → m.dst = d.val → m.here = d.val → s.rd (Fld.dstRungCurrent d.val) = 1
    → ∃ t, exec (.districtQuietWake d) s = .next t ∧ t.rd (Fld.dstRungCurrent d.val) = 0 ∧ ∀ j, j ≠ (Fld.dstRungCurrent d.val).off → t.reg j = s.reg j)

/-- Groups (R218, R223, R258, R259, R263 to R268): the next invocation launches, a waiting split takes effect in an empty core, an Express launch
pre-empts, a trapped group parks and is replayed or killed, a parked one is restored; a message reaches its inbox and its status its
sender. `SHOOTDOWN_GO` (R377) makes `BUSY` 1 and begins. Where the rules leave a point open it is the model's reading (assumption log 22, 31 and 56). -/
def Obligations.GroupCommandsComplete : Prop := ∀ (d : Dist) (s : State),
  (∀ (i : Invocation) (x : Batch) (m : Image) (t : State), s.coreGoes d.val = true → s.headOf d.val = some (.launch i) → s.batch i.bid = some x
    → (s.tenParity x.tenant).imageOf d.val x i = (t, .ok m) → exec (.groupLaunch d) s = .next (t.tryLaunch d.val x m i))
  ∧ (∀ sp : Nat, s.coreGoes d.val = true → s.headSplit d.val = some sp → sp ≠ (s.dist d.val).core.split → (s.dist d.val).core.groups = []
    → exec (.splitChange d) s = .next (s.updCore d.val (fun y => { y with split := sp, desk := [] })))
  ∧ (∀ (i : Invocation) (x : Batch) (m : Image), s.coreGoes d.val = true → s.flag (Fld.dstCoreCtlPreempt d.val) = true → s.flag (Fld.dstParkBaseEn d.val) = true
    → s.expressWaiting d.val = some i → s.batch i.bid = some x → (s.imageOf d.val x i).2 = .ok m → exec (.preemption d) s = .next (s.preemptFor d.val m))
  ∧ (∀ (k : Fin 32) (g : Group), s.coreOn d.val = true → s.group d.val k.val = some g → g.busy = false → g.parked.isSome = true → g.settled = false → g.replay = false
    → exec (.groupPark { dist := d, slot := k }) s = .next (s.settlePark d.val k.val g))
  ∧ (∀ (k : Fin 32) (g : Group) (n : Nat), s.coreOn d.val = true → s.group d.val k.val = some g → g.busy = false → g.parked = none → g.preWant = true → s.parkSlot d.val 0 = some n
    → exec (.groupPark { dist := d, slot := k }) s = .next (s.toSlot d.val k.val n { g with parked := some .pre, settled := true, preWant := false, ir := none }))
  ∧ (∀ (n k a : Nat) (g : Group) (t : State), s.coreGoes d.val = true → s.headOf d.val = some (.restore n g) → g.split = (s.dist d.val).core.split → s.roomFor d.val g.nreg g.localK = some (k, a)
    → s.recordGet (streamSide d.val) (s.parkAddr d.val n) g.parkBytes = (t, false)
    → exec (.groupRestore d) s = .next ((t.updCore d.val (fun c => { c with parks := SMap.del c.parks n })).putGroup d.val k { g with parked := none, replay := false, settled := false, lsBase := a }))
  ∧ (∀ (h : BitVec 7) (g : Group), s.opens (pageReg .dst d.val 0x060) = true → s.handleGroup d.val h.toNat = some g → g.parked = some .trap → g.replay = false
    → exec (.trapReplay d h) s = .next ((s.updHandle d.val h.toNat { g with replay := true }).trapsOver g.bid))
  ∧ (∀ (h : BitVec 7) (g : Group), s.opens (pageReg .dst d.val 0x060) = true → s.handleGroup d.val h.toNat = some g
    → exec (.trapKill d h) s = .next (((s.abandon g.bid).updBatch g.bid (fun y => { y with
        stop := true, parkAt := none, st := if y.st = .parked then (if y.admitOrd = 0 then .accepted else .admitted) else y.st })).fixStatus g.bid 0x41 0))
  ∧ (∀ (m : Msg) (b : Bid) (tag : BitVec 16) (ws : List Word) (grp th rg : Nat), s.active = true → s.gets d 6 m → m.body = .send b tag ws grp th rg
    → exec (.sendDelivery d) s = .next (((s.dropMsg m).wakeDist d.val).inboxPut d.val m.src { bid := b, tag := tag, src := m.src, words := ws } grp th rg))
  ∧ (∀ (m : Msg) (grp th rg : Nat) (ok : Bool), s.active = true → s.gets d 7 m → m.body = .sendStatus grp th rg ok
    → exec (.sendStatus d) s = .next ((s.dropMsg m).statusIn d.val grp th rg ok))
  ∧ (s.opens 0x0106C = true → s.halted .lnk = false → s.flag Fld.lnkShootCtlBusy = false → exec .shootdownGo s = .next ((s.wr Fld.lnkShootCtlBusy 1).shootTick))

/-- Resets (R451 to R457): a reset asked for by register makes `BUSY` 1 and begins; a district's, a port's and a link's reset end with what they find; a
cold reset leaves everything as `State.reset` has it but for the straps, host memory and its cause; a warm reset is triggered and carried out;
start-up goes on from where it stands. Where the rules leave a point open it is the model's reading (assumption log 69 to 73 and 75). -/
def Obligations.ResetCommandsComplete : Prop := ∀ (s : State),
  (∀ (d : Dist) (pass : Bool), s.opens 0x00054 = true → s.halted .blk = false → s.flag Fld.blkRstCmdBusy = false → exec (.districtReset d true pass) s
    = .next (State.distResetAsked (State.wr { s.hostSet 0x00054 (BitVec.ofNat 32 d.val) with gate := { s.gate with rst := some (1, d.val) } } Fld.blkRstCmdBusy 1) d.val))
  ∧ (∀ (d : Dist) (pass : Bool), (s.dist d.val).inReset = true → exec (.districtReset d false pass) s = .next (s.distResetEnd d.val pass)
    ∧ ((s.distResetEnd d.val pass).dist d.val).inReset = false ∧ ((s.distResetEnd d.val pass).dist d.val).testFail = !pass)
  ∧ (∀ (p : Port) (e : StackEnv), s.opens 0x00054 = true → s.halted .blk = false → s.flag Fld.blkRstCmdBusy = false → ∃ t, exec (.portReset p true e) s = .next t
    ∧ t.gate.rst = some (2, p.val) ∧ t.rd Fld.blkRstCmdBusy = 1 ∧ (t.port p.val).inResetP = true)
  ∧ (∀ (p : Port) (e : StackEnv), (s.port p.val).inResetP = true → exec (.portReset p false e) s = .next (s.portResetEnd p.val e))
  ∧ (∀ (l : LinkEnv), s.opens 0x00054 = true → s.halted .blk = false → s.flag Fld.blkRstCmdBusy = false → ∃ t, exec (.hostLinkReset true l) s = .next t
    ∧ t.gate.rst = some (3, 0) ∧ t.rd Fld.blkRstCmdBusy = 1 ∧ t.rd Fld.lnkLinkLstate = 1)
  ∧ (∀ (l : LinkEnv), s.phase = .up → exec (.hostLinkReset false l) s = .next (s.hostLinkEnd l))
  ∧ (s.phase = .up → exec (.twinLinkReset false) s = .next (s.linkReset false))
  ∧ (s.opens 0x00054 = true → s.halted .blk = false → s.flag Fld.blkRstCmdBusy = false → exec (.twinLinkReset true) s
    = .next (((State.wr { s.hostSet 0x00054 (s.reg 0x00054) with gate := { s.gate with rst := some (4, 0) } } Fld.blkRstCmdBusy 1).linkReset false).rstDone 4 0))
  ∧ (∀ (c : ColdCause) (st : Straps), ¬ (c = .pokMain ∧ s.rd Fld.blkRungCurrent = 4) → ¬ (c = .testMode ∧ s.pins.testMode = false) → ∃ t, exec (.coldReset c st) s = .next t
    ∧ t.rd Fld.blkStatusCause = coldCode c ∧ t.pins.straps = st ∧ t.host = s.host ∧ t.phase = State.reset.phase ∧ t.batches = [] ∧ t.scene = State.reset.scene
    ∧ t.locked = [] ∧ t.live = [] ∧ (∀ j, j ≠ 0x0004C → t.reg j = State.reset.reg j))
  ∧ (s.opens 0x00048 = true → ∃ t, exec .blkWarm s = .next t ∧ t.phase = .warmWanted ∧ t.rd Fld.blkStatusCause = 8 ∧ { t with phase := s.phase, regs := s.regs } = s)
  ∧ (∃ t, exec .fabricReset s = .next t ∧ t.phase = .warmWanted ∧ t.rd Fld.blkStatusCause = 9 ∧ { t with phase := s.phase, regs := s.regs } = s)
  ∧ (s.phase = .warmWanted → exec .warmReset s = .next
    (State.wr (State.warmUnits (State.dropCopies (((List.range 6).filter (s.twinSend .reset).present).foldl State.cleanPort (s.twinSend .reset)))) Fld.blkStatusStep 2))
  ∧ (∀ (c : Bool) (e : StartEnv), s.phase = .starting c → s.flag Fld.blkStatusStripFail = false → s.voltWaits = false → (s.startUnits c e).flag Fld.blkStatusStripFail = false
    → exec (.startup e) s = .next ((s.startUnits c e).startRest c e))

/-- Pins and test ports (R441, R449, R450): the reference clock arrives; test mode rises; an instruction register takes the selected instruction, and its
data register what that instruction selects. Where the rules leave a point open it is the model's reading (assumption log 8 and 74). -/
def Obligations.PinCommandsComplete : Prop := ∀ (s : State),
  (exec .hlRefclkArrival s = .next { s with pins := { s.pins with hlClk := true } })
  ∧ (exec .testModeRise s = .next { s with pins := { s.pins with testMode := true } })
  ∧ (∀ (code : BitVec 4) (fails : List Nat), exec (.testPortInstruction .jtag code fails) s = .next { s with pins := { s.pins with
      ir := testCode .jtag s.pins.testMode code, dr := s.testData .jtag (testCode .jtag s.pins.testMode code) fails } })
  ∧ (∀ (code : BitVec 4) (fails : List Nat), exec (.testPortInstruction .wrapper code fails) s = .next { s with pins := { s.pins with
      wir := testCode .wrapper s.pins.testMode code, dr := s.testData .wrapper (testCode .wrapper s.pins.testMode code) fails } })

/-- Messages of the twin (R416, R417, R419, R420, R423, R432, R433): each, received whole and in order on a live link, is counted, restarts the silence ring
and has its own effect. Where the rules leave a point open it is the model's reading (assumption log 66 and 67). -/
def Obligations.TwinMessagesComplete : Prop := ∀ (h : TwinHdr) (s : State), s.hears h = true →
  (∀ id, exec (.twinIdent h id) s = .next (s.heard.identified id))
  ∧ (exec (.twinBeacon h) s = .next s.heard)
  ∧ (∀ r : QueRec, exec (.twinQrec h r) s = .next (State.twinSend { s.heard with twin := { s.heard.twin with qrecs := SMap.put s.twin.qrecs r.que.val r } } (.qrecAck r.que)))
  ∧ (∀ idx bytes, s.twnMode ≠ 0 → exec (.twinEntry h idx bytes) s = .next (s.heard.mirrorEntry idx bytes))
  ∧ (∀ idx st, exec (.twinState h idx st) s = .next (State.cancelCopy { s.heard with twin := { s.heard.twin with
      mirrors := updFirst (fun m => decide (m.idx = idx)) (fun m => { m with bytes := stateBytes m.bytes st }) s.twin.mirrors } } idx st))
  ∧ (∀ idx, exec (.twinRetire h idx) s = .next { s.heard with twin := { s.heard.twin with mirrors := s.twin.mirrors.filter (fun m => decide (m.idx ≠ idx)) } })
  ∧ (∀ idx m, s.twin.mirrors.find? (fun m => decide (m.idx = idx)) = some m → s.paired = true → exec (.twinHandoff h idx) s = .next ((s.heard.adopt m true).twinSend (.handoffAck idx)))
  ∧ (∀ q seq x, s.batches.find? (fun x => decide (x.bid = { que := q, seq := seq, held := false }) && x.handed) = some x → exec (.twinSealed h q seq) s = .next (s.heard.retire x false))
  ∧ (∀ r, exec (.twinRung h r) s = .next { s.heard with twin := { s.heard.twin with peerRung := r, quiet := decide (2 ≤ r.toNat) } })
  ∧ (exec (.twinReset h) s = .next { s.heard with twin := { s.heard.twin with quiet := true } })
  ∧ (s.paired = true → exec (.twinResync h) s = .next s.heard.sendLive)
  ∧ (∀ side word, exec (.twinReturn h side word) s = .next (s.heard.returned side word))
  ∧ (∀ idx, exec (.twinAck h (.entry idx)) s = .next (s.heard.entryAcked idx))
  ∧ (∀ q, exec (.twinAck h (.qrec q)) s = .next s.heard)

/-- The pair's own commands (R415, R418, R420, R428, R429, R432, R433): the mode is written; a beacon is sent while the link lives; a fence due is carried out;
a takeover claims the twin's side; a side held goes back; a batch whose writes are acknowledged is handed over. Where the rules leave a point open it is the model's reading (assumption log 66 and 67). -/
def Obligations.TwinCommandsComplete : Prop := ∀ (s : State),
  (∀ v : Word, s.opens 0x02040 = true → (v.getLsbD 8 = false → exec (.twnModeWrite v) s = .next (s.modeWrite v))
    ∧ (v.getLsbD 8 = true → exec (.twnModeWrite v) s = .next (s.modeWrite v).takeNow))
  ∧ (s.parBad = [] → s.phase = .up → s.twin.linkUp = true → s.rd Fld.blkRungCurrent ≤ 1 → s.armed Fld.twnInjectLink = false → 16 ≤ s.rd Fld.twnWatch1Beacon → ∃ t, exec .beaconRingExpiry s = .next t
    ∧ t.twin.sent = s.twin.sent ++ [.beacon] ∧ t.twin.sendNum = s.twin.sendNum + 1 ∧ t.regs = s.regs)
  ∧ (s.parBad = [] → s.phase = .up → s.twnMode ≠ 0 → s.twin.wantFence = true → exec .fence s = .next s.fenceNow)
  ∧ (s.parBad = [] → s.phase = .up → s.twnMode ≠ 0 → s.twin.wantFence = false → s.paired = true → s.twin.quiet = false → s.twin.silent = false → 16 ≤ s.rd Fld.twnWatch0Fence → exec .fence s = .next s.silence.fenceNow)
  ∧ (s.parBad = [] → s.phase = .up → s.twnMode ≠ 0 → s.flag Fld.twnStatusFenced = false → s.flag Fld.twnStatusLent = false → s.twin.wantFence = false → s.flag Fld.twnStatusHolding = false
    → s.takeRing = true ∨ s.opens 0x02040 = true → exec .takeover s = .next s.takeover)
  ∧ (s.flag Fld.twnStatusHolding = true → (∀ x ∈ s.batches, x.bid.held = false) → s.twin.linkUp = true → s.twin.silent = false → s.twin.peer.isSome = true → s.twnMode ≠ 0
    → s.twin.wantFence = false → exec .sideReturn s = .next s.sideReturn)
  ∧ (∀ (b : Bid) (x : Batch), b ∈ s.twin.handWait → s.batch b = some x → s.paired = true → s.writesAcked b = true → exec (.handoff b) s
    = .next ((State.updBatch { s with twin := { s.twin with handWait := s.twin.handWait.filter (fun y => decide (y ≠ b)) } } b (fun y => { y with handed := true })).twinSend
        (.handoff (BitVec.ofNat 14 x.tly))))

/-- A step runs the command at the front of the queue on the state with the queue's rest. Where the rules leave a point open it is the model's reading (assumption log 15). -/
def Obligations.StepRunsTheFront : Prop := ∀ (c : Instr) (rest : List Instr) (s : State), s.pending = c :: rest
  → step s = exec c { s with pending := rest }

/-- What reset leaves, where the rules give the value (R1, R39, R193, R382): the version, a closed and drained district with no side street, a queue
of depth 0 that is disabled; empty accounts, `READY` 0, no error bit set, memory that lists nothing and is in canonical form, and no command waiting (assumption log 7). -/
def Obligations.ResetLeaves : Prop :=
  (∀ (d : Dist), State.reset.readValue (pageReg .dst d.val 0x044) = 0x310)
  ∧ (∀ q : Que, State.reset.reg (pageReg .que q.val 0x048) = 0 ∧ State.reset.queState q.val = 0)
  ∧ State.reset.readValue 0x00040 = 0x7E010103 ∧ State.reset.rd Fld.blkStatusReady = 0 ∧ State.reset.reg 0x0E040 = 0
  ∧ (∀ (k : Bool) (n : Nat), State.reset.account k n = { bal := 0, cmt := 0 })
  ∧ State.reset.host = [] ∧ State.reset.scene = [] ∧ State.reset.pending = [] ∧ State.reset.memoryOk = true

/-- Words of core instructions, one of each class, written out from R235 and R237: what they decode to. -/
def Obligations.CoreWordsDecode : Prop := ∀ g : GRef,
  let f (typ : BitVec 3) (m : Bool × Bool × Bool) (dst sa sb sc : BitVec 8) (imm : BitVec 16) : Fields :=
    { typ := typ, ua := m.1, ib := m.2.1, ud := m.2.2, dst := dst, sa := sa, sb := sb, sc := sc, imm := imm }
  decodeCore g 0x10C22829002A4000 = some (.ffma g (f 0 (false, true, false) 0x28 0x29 0 0x2A 0x4000))
  ∧ decodeCore g 0x0002010200000005 = some (.iadd g (f 0 (false, true, false) 1 2 0 0 5))
  ∧ decodeCore g 0x20080A0B00000000 = some (.f2i g (f 1 (false, false, false) 0x0A 0x0B 0 0 0))
  ∧ decodeCore g 0x3080000102030000 = some (.fcmp g (f 0 (false, false, false) 0 1 2 3 0))
  ∧ decodeCore g 0x464000000000BEEF = some (.trap g (f 0 (false, false, false) 0 0 0 0 0xBEEF))
  ∧ decodeCore g 0x5110040600000010 = some (.ldH g (f 2 (false, false, false) 4 6 0 0 0x10))
  ∧ decodeCore g 0x6004003F00000040 = some (.mma g (f 0 (true, false, false) 0 0x3F 0 0 0x40))
  ∧ decodeCore g 0x7000090A0B000004 = some (.send g (f 0 (false, false, false) 9 0x0A 0x0B 0 4))
  ∧ decodeCore g 0x80900008000000FF = some (.slotSt g (f 2 (false, false, false) 0 8 0 0 0xFF))
  ∧ decodeCore g 0x9041040600000000 = some (.amask g (f 0 (false, false, true) 4 6 0 0 0))
  ∧ decodeCore g 0xA000000000000000 = none ∧ decodeCore g 0x0540000000000000 = none

/-- R156: a treelet's lot and map set are bits of its hash, from 0 to 1,023 and from 0 to 8,191. -/
def Obligations.TreeletHash : Prop := ∀ tid : Nat,
  tidLot tid = (tid * 0x9E3779B9 % 2 ^ 32) / 2 ^ 22 ∧ tidSet tid = (tid * 0x9E3779B9 % 2 ^ 32) / 2 ^ 19 ∧ tidLot tid < 1024 ∧ tidSet tid < 8192

/-- R343: the port of a scene address, and that an access of up to 256 bytes which crosses no multiple of 256 goes to one port. -/
def Obligations.ServingPort : Prop := ∀ (s : State) (a : Nat), 0 < s.ports.length →
  (∃ p, s.ports[a / 256 % s.ports.length]? = some p ∧ s.portAt a = some (p, a / 256 / s.ports.length * 256 + a % 256))
  ∧ ∀ n i : Nat, n ≤ 256 → a % 256 + n ≤ 256 → i < n → (s.portAt (a + i)).map (·.1) = (s.portAt a).map (·.1)

/-- R57: the effective tenant and class of a batch as it is accepted. `QUE_CLASS_TENANT` and the v2 descriptor name them; a v1 descriptor names no class. -/
def Obligations.EffectiveTenantAndClass : Prop := ∀ (s : State) (q : Que) (f : Fetched) (i : Nat),
  (bytesLe f.raw 0 1 % 16 = 1 → (s.newBatch q f i).tenant = s.rd (Fld.queClassTenantTenant q.val) ∧ (s.newBatch q f i).cls = s.rd (Fld.queClassTenantClass q.val))
  ∧ (bytesLe f.raw 0 1 % 16 = 2 → (s.newBatch q f i).tenant = bytesLe f.raw 8 2 % 4096
      ∧ (s.newBatch q f i).cls = max (s.rd (Fld.queClassTenantClass q.val)) (bits (bytesLe f.raw 4 4) 25 24))

/-- R104: a ray enters a child of a fine node only if its mask meets the child's `CMASK`; every child of a coarse node has the mask 0xFFFF. -/
def Obligations.ChildMasks : Prop := ∀ (w : Walker) (bs : List Byte) (len c : Nat),
  (nodeFine bs = true → c ∈ openChildren w bs len → w.ray.mask.toNat &&& bytesLe bs (0x50 + 2 * c) 2 ≠ 0)
  ∧ (nodeFine bs = false → childMask bs c = 0xFFFF)

/-- R400: the code the block requests in each rung, that it follows the registers as they are at the request, and that dimming does not lower it below `VMIN`, or below `TARGET`
where `VMIN` lies above it. Codes are at most 70 (R399); the halted unit keeps the code it has (R473). Where the rules leave a point open it is the model's reading (assumption log 63). -/
def Obligations.VoltageRequested : Prop := ∀ (s : State) (dim : Nat), s.halted .pwr = false → s.rd Fld.pwrVsetTarget ≤ 70 → s.rd Fld.pwrVsetVmin ≤ 70 →
  (s.rd Fld.blkRungCurrent ≤ 1 → s.voltCode dim
    = min (s.rd Fld.pwrVsetTarget) (max (s.rd Fld.pwrVsetVmin) (s.rd Fld.pwrVsetTarget - dim * s.rd Fld.pwrVsetStep)))
  ∧ (2 ≤ s.rd Fld.blkRungCurrent → s.voltCode dim = 0)
  ∧ (s.rd Fld.blkRungCurrent ≤ 1 → min (s.rd Fld.pwrVsetTarget) (s.rd Fld.pwrVsetVmin) ≤ s.voltCode dim)

/-- R442 and R450: every bit of `BLK_CONFIG`, as a read of offset 0x044 of `BLK` gives it, and every bit of the identification code, by the straps. -/
def Obligations.StrapRegisters : Prop := ∀ s : State,
  s.readValue 0x00044 = s.configWord ∧ field s.configWord 31 5 = 0 ∧ field s.configWord 4 4 = b2n s.pins.straps.twin ∧ field s.configWord 3 3 = b2n s.pins.straps.hlGen
    ∧ field s.configWord 2 2 = 0 ∧ field s.configWord 1 0 = s.pins.straps.ncw.toNat
  ∧ s.idCode.extractLsb' 28 4 = 3 ∧ s.idCode.extractLsb' 12 16 = 0x7E01 ∧ s.idCode.extractLsb' 1 11 = s.pins.straps.mfr ∧ s.idCode.getLsbD 0 = true

/-- What a lane instruction does and leaves (R220, R230, R236, R239): the group is at its next instruction; each active thread's destination holds its words, 255 discards;
with `UD` the lowest active thread's words are in the uniform registers, and with no thread active nothing is written; every other register, predicate, mask,
stack, counter and byte of local store stays, and so does all else of the block but the count of instructions. Where the rules leave a point open it is the model's reading (assumption log 16). -/
def Obligations.LaneResults : Prop := ∀ (r : GRef) (f : Fields) (s : State) (g : Group) (m : Form) (val : Nat → List Word),
  s.rd (Fld.dstInjectRf r.dist.val) = 0 → (∀ j, f.dst.toNat + (val j).length ≤ 256) → (val g.lowest).length ≤ 64 →
  (∃ h, (s.laneNext r g m f val).group r.dist.val r.slot.val = some h ∧ h.pc = g.pc + 8 ∧ h.ir = none ∧ h.parked = none
    ∧ (∀ j x, f.ud = false → j ∈ g.threads → x < (val j).length → f.dst.toNat + x < 255 → h.vreg j (f.dst.toNat + x) = (val j).getD x 0)
    ∧ (∀ j x, x < 256 → f.ud = true ∨ j ∉ g.threads ∨ x < f.dst.toNat ∨ f.dst.toNat + (val j).length ≤ x ∨ x = 255 → h.vreg j x = g.vreg j x)
    ∧ (∀ x, f.ud = true → g.active ≠ 0 → x < (val g.lowest).length → h.ureg (f.dst.toNat + x) = (val g.lowest).getD x 0)
    ∧ (∀ x, f.ud = false ∨ g.active = 0 ∨ (∀ y < (val g.lowest).length, (f.dst.toNat + y) % 64 ≠ x % 64) → h.ureg x = g.ureg x)
    ∧ { h with vregs := g.vregs, uregs := g.uregs, rfErr := g.rfErr, pc := g.pc, ir := g.ir, parked := g.parked, replay := g.replay, settled := g.settled } = g)
  ∧ (∀ e k, e ≠ r.dist.val ∨ k ≠ r.slot.val → (s.laneNext r g m f val).group e k = s.group e k)
  ∧ (∀ e, { (s.laneNext r g m f val).dist e with core := { ((s.laneNext r g m f val).dist e).core with groups := (s.dist e).core.groups } } = s.dist e)
  ∧ (∀ k, SMap.get 0 (s.laneNext r g m f val).live k = if k = r.dist.val * 256 + 4 then SMap.get 0 s.live k + 1 else SMap.get 0 s.live k)
  ∧ s.coreFrame (s.laneNext r g m f val) ∧ (s.laneNext r g m f val).regs = s.regs

/-- What an instruction that changes its group alone leaves (branches, the mask stack, predicates, uniform results, barriers and waits): every other
group, district and piece of the block but the count of instructions. -/
def Obligations.GroupInstructionsFrame : Prop := ∀ (r : GRef) (s : State) (g : Group),
  (s.ran r g).group r.dist.val r.slot.val = some { g with ir := none, parked := none, replay := false, settled := false }
  ∧ (∀ e k, e ≠ r.dist.val ∨ k ≠ r.slot.val → (s.ran r g).group e k = s.group e k)
  ∧ (∀ e, { (s.ran r g).dist e with core := { ((s.ran r g).dist e).core with groups := (s.dist e).core.groups } } = s.dist e)
  ∧ (∀ k, SMap.get 0 (s.ran r g).live k = if k = r.dist.val * 256 + 4 then SMap.get 0 s.live k + 1 else SMap.get 0 s.live k)
  ∧ s.coreFrame (s.ran r g) ∧ (s.ran r g).regs = s.regs

/-- Predicates (R220, R236, R237): a field names one by its low 3 bits, `p7` reads as the launch mask and discards writes, and a write changes the bits of active threads
alone. -/
def Obligations.PredicateRegisters : Prop := ∀ (g : Group) (p q : Nat) (v : Mask),
  g.pred 7 = g.launch ∧ g.pred p = g.pred (p % 8) ∧ (p % 8 = 7 → g.setPred p v = g)
  ∧ (p % 8 ≠ 7 → (g.setPred p v).pred p = (g.pred p &&& ~~~g.active) ||| (v &&& g.active)) ∧ (q % 8 ≠ p % 8 → (g.setPred p v).pred q = g.pred q)

/-- R241: the traps of the mask stack, and that they leave it: where the group goes on existing, its stack is what it was. -/
def Obligations.MaskStackTraps : Prop := ∀ (r : GRef) (f : Fields) (s : State) (g : Group),
  (s.fronts r 4 0x08 f g → 16 ≤ g.mstack.length → exec (.push r f) s = .next (s.raiseHere r.dist.val r.slot.val g 3 0 []))
  ∧ (s.fronts r 4 0x09 f g → g.mstack = [] → exec (.elseM r f) s = .next (s.raiseHere r.dist.val r.slot.val g 4 0 []))
  ∧ (s.fronts r 4 0x0B f g → g.mstack = [] → exec (.reconv r f) s = .next (s.raiseHere r.dist.val r.slot.val g 4 0 []))
  ∧ (s.fronts r 4 0x0C f g → g.mstack = [] → exec (.pop r f) s = .next (s.raiseHere r.dist.val r.slot.val g 4 0 []))
  ∧ (s.fronts r 4 0x0A f g → g.mstack.length ≤ f.imm.toNat % 16 → exec (.brk r f) s = .next (s.raiseHere r.dist.val r.slot.val g 4 0 []))
  ∧ (∀ (c : Nat) (h : Group), (s.raiseHere r.dist.val r.slot.val g c 0 []).group r.dist.val r.slot.val = some h → h.mstack = g.mstack)

/-- What a trap does (R261, R262, R265): it counts in the batch once its record is written (R328); with `PARK_ON_TRAP` the group stays at its instruction, parked, and its batch parks; without it a 64-byte record with the cause, the instruction's address
and TWORD goes to the fault ring with handle 0x7F, the group ends, and the batch will complete `PROGRAM_TRAP`. Where the rules leave a point open it is the model's reading (assumption log 22). -/
def Obligations.TrapsTaken : Prop := ∀ (r : GRef) (s : State) (g : Group) (x : Batch) (c : Nat) (w : BitVec 16) (det : List Byte),
  s.batch g.bid = some x → c ≠ 8 → c < 256 → det.length ≤ 16 → g.pc < 2 ^ 32 →
  (∃ y, (s.raiseHere r.dist.val r.slot.val g c w det).batch g.bid = some y ∧ y.traps = x.traps
    ∧ (g.parkTrap = true → y.st = .parked) ∧ (g.parkTrap = false → y.trapped = true ∧ y.st = x.st))
  ∧ (g.parkTrap = true → (s.raiseHere r.dist.val r.slot.val g c w det).group r.dist.val r.slot.val
      = some { g with parked := some .trap, replay := false, settled := false, nanPend := [], ir := none, trap := some { cause := BitVec.ofNat 8 c, pc := g.pc, tword := w, detail := det } }
    ∧ (s.raiseHere r.dist.val r.slot.val g c w det).faults = s.faults)
  ∧ (g.parkTrap = false → (s.raiseHere r.dist.val r.slot.val g c w det).group r.dist.val r.slot.val = none
    ∧ ∃ rec, (s.raiseHere r.dist.val r.slot.val g c w det).faults = s.faults ++ [rec] ∧ rec.bid = g.bid ∧ rec.bytes.length = 64
      ∧ bytesLe rec.bytes 0 2 = 3 + 256 * c ∧ bytesLe rec.bytes 2 1 = r.dist.val ∧ bytesLe rec.bytes 3 1 = 0x7F ∧ bytesLe rec.bytes 4 4 = g.bid.seq.toNat
      ∧ bytesLe rec.bytes 0x10 4 = g.pc ∧ bytesLe rec.bytes 0x14 4 = w.toNat ∧ bytesLe rec.bytes 0x18 8 = g.active.toNat ∧ bytesLe rec.bytes 0x20 8 = g.launch.toNat
      ∧ (rec.bytes.drop 0x28).take det.length = det)

/-- Where instructions trap rather than complete (R236, R245, R246, R261): fetching at or above `CODE_LEN`, an illegal encoding, a computed target that is no multiple of 8 or lies at or above
`CODE_LEN`, `BAR.ALL` in a split group, a local access outside the allocation or misaligned. Where the rules leave a point open it is the model's reading (assumption log 16 and 17). -/
def Obligations.InstructionTraps : Prop := ∀ (r : GRef) (f : Fields) (s : State) (g : Group), s.coreOn r.dist.val = true → s.group r.dist.val r.slot.val = some g
    → s.heldGroup r.dist.val g = false → s.armed (Fld.dstInjectCore r.dist.val) = false → g.nanPend = [] →
  (g.ir = none → g.codeLen ≤ g.pc → exec (.instructionFetch r) s = .next (s.raiseHere r.dist.val r.slot.val g 2 0 []))
  ∧ (∀ (i : Instr) (c o : Nat), coreCode i = some (r, c, o, f) → s.leads r.dist.val r.slot.val c g = true → g.ir = none ∨ g.ir = some (insWord c o f) → g.codeLen ≤ g.pc
    → exec i s = .next (s.raiseHere r.dist.val r.slot.val g 2 0 []))
  ∧ (∀ (i : Instr) (c o : Nat), coreCode i = some (r, c, o, f) → s.leads r.dist.val r.slot.val c g = true
    → g.ir = none ∨ g.ir = some (insWord c o f) → g.pc < g.codeLen → g.pendingReg c o f = false → g.legal c o f = false
    → exec i s = .next (s.raiseHere r.dist.val r.slot.val g 1 0 []))
  ∧ (s.fronts r 4 0x05 f g → g.badTarget (g.ureg f.sa.toNat).toNat = true → exec (.callr r f) s = .next (s.raiseHere r.dist.val r.slot.val g 2 0 []))
  ∧ (s.fronts r 4 0x06 f g → g.badTarget (g.ureg 63).toNat = true → exec (.ret r f) s = .next (s.raiseHere r.dist.val r.slot.val g 2 0 []))
  ∧ (s.fronts r 4 0x10 f g → g.active ≠ g.launch → exec (.barAll r f) s = .next (s.raiseHere r.dist.val r.slot.val g 5 0 []))
  ∧ (∀ j, s.fronts r 5 0x00 f g → j ∈ g.threads → g.inside (g.localAt f j) (memBytes f.typ.toNat) (memBytes f.typ.toNat) = false
    → exec (.ldL r f) s = .next (s.raiseHere r.dist.val r.slot.val g 6 0 []))
  ∧ (∀ j, s.fronts r 5 0x01 f g → j ∈ g.threads → g.inside (g.localAt f j) (memBytes f.typ.toNat) (memBytes f.typ.toNat) = false
    → exec (.stL r f) s = .next (s.raiseHere r.dist.val r.slot.val g 6 0 []))

/-- NaN traps of lane instructions (R298, R300 to R302): with `NAN_TRAP` the lowest active thread with an event traps with no effect, a consumed NaN before a produced one
and the sources in the order A, B, C; with no event the instruction completes. Where the rules leave a point open it is the model's reading (assumption log 26). -/
def Obligations.LaneNanTraps : Prop := ∀ (r : GRef) (f : Fields) (s : State) (g : Group), s.armed (Fld.dstInjectNan r.dist.val) = false → g.nanTrap = true → g.active ≠ 0 →
  let nan (w : Word) : Bool := laneNan f.typ.toNat w
  let ev1 (v : Nat → Word) (j : Nat) : Option Nat := if nan (g.srcA f j) then some 0x10 else if nan (v j) then some 0x18 else none
  let ev2 (v : Nat → Word) (j : Nat) : Option Nat := if nan (g.srcA f j) then some 0x10 else if nan (g.srcBF f j) then some 0x11 else if nan (v j) then some 0x18 else none
  let ev3 (v : Nat → Word) (j : Nat) : Option Nat := if nan (g.srcA f j) then some 0x10 else if nan (g.srcBF f j) then some 0x11 else if nan (g.srcC f j) then some 0x12
    else if nan (v j) then some 0x18 else none
  let post (m : Form) (v : Nat → Word) (ev : Nat → Option Nat) : State := match g.threads.findSome? (fun j => (ev j).map (fun e => (e, j))) with
    | some (e, j) => s.raiseHere r.dist.val r.slot.val g 8 0 (laneDetail e j)
    | none => s.laneNext r g m f (fun j => [v j])
  (s.fronts r 1 0x00 f g → exec (.fadd r f) s = .next (post (formF 2) (g.fltVal f (fun a b _ => toF32 (a.add b))) (ev2 (g.fltVal f (fun a b _ => toF32 (a.add b))))))
  ∧ (s.fronts r 1 0x01 f g → exec (.fsub r f) s = .next (post (formF 2) (g.fltVal f (fun a b _ => toF32 (a.add b.neg))) (ev2 (g.fltVal f (fun a b _ => toF32 (a.add b.neg))))))
  ∧ (s.fronts r 1 0x02 f g → exec (.fmul r f) s = .next (post (formF 2) (g.fltVal f (fun a b _ => toF32 (a.mul b))) (ev2 (g.fltVal f (fun a b _ => toF32 (a.mul b))))))
  ∧ (s.fronts r 1 0x03 f g → exec (.ffma r f) s = .next (post (formF 3) (g.fltVal f (fun a b c => toF32 ((a.mul b).add c))) (ev3 (g.fltVal f (fun a b c => toF32 ((a.mul b).add c))))))
  ∧ (s.fronts r 1 0x0A f g → exec (.fsqrt r f) s = .next (post (formF 1) (g.fltVal f (fun a _ _ => toF32 a.sqrt)) (ev1 (g.fltVal f (fun a _ _ => toF32 a.sqrt)))))

/-- The launch record (R230): what `u0` to `u15` of a launched group hold. Where the rules leave a point open it is the model's reading (assumption log 27). -/
def Obligations.LaunchRecord : Prop := ∀ (s : State) (d : Nat) (x : Batch) (m : Image) (p : Nat × Nat) (i : Invocation) (is taken : List Invocation) (n : Nat), n < 16 → i.entry < 8 → i.cls < 4 →
  i.prog < 65536 → x.tenant < 4096 → x.desc.paramAddr < 2 ^ 64 → x.desc.slotAddr < 2 ^ 64 → x.desc.outAddr < 2 ^ 64 → d < 128 → is.length ≤ 64 →
  ∃ g, (s.launch d x m p i is taken).group d p.1 = some g ∧ g.ureg n = (s.launchRecord d x i m (BitVec.ofNat 64 (2 ^ is.length - 1))).getD n 0
    ∧ field (g.ureg 0) 2 0 = i.entry ∧ field (g.ureg 0) 3 3 = b2n (decide (i.entry = 5) && x.desc.isProbe) ∧ field (g.ureg 0) 5 4 = i.cls ∧ field (g.ureg 0) 7 6 = x.desc.refine
    ∧ field (g.ureg 0) 9 8 = x.desc.passes ∧ field (g.ureg 0) 10 10 = b2n x.desc.ordered ∧ field (g.ureg 0) 31 11 = 0
    ∧ field (g.ureg 1) 15 0 = i.prog ∧ field (g.ureg 1) 27 16 = x.tenant ∧ field (g.ureg 1) 31 28 = 0
    ∧ (g.ureg 2).toNat + 2 ^ 32 * (g.ureg 3).toNat = x.desc.paramAddr ∧ g.ureg 4 = x.bid.seq ∧ field (g.ureg 5) 5 0 = x.bid.que.val
    ∧ (g.ureg 6).toNat + 2 ^ 32 * (g.ureg 7).toNat = g.launch.toNat ∧ (g.ureg 8).toNat = d ∧ g.ureg 9 = BitVec.ofNat 32 (g.localK * 1024)
    ∧ (g.ureg 10).toNat + 2 ^ 32 * (g.ureg 11).toNat = x.desc.slotAddr ∧ (g.ureg 12).toNat + 2 ^ 32 * (g.ureg 13).toNat = x.desc.outAddr ∧ g.ureg 14 = 0 ∧ g.ureg 15 = 0

/-- No lane, compare, control (but `EXIT`) or special instruction changes host memory, scene memory or the queue, whether it runs, waits or traps. -/
def Obligations.LaneInstructionsKeepMemory : Prop := ∀ (i : Instr) (r : GRef) (c o : Nat) (f : Fields) (s t : State), coreCode i = some (r, c, o, f)
  → c < 5 ∨ c = 9 → (∀ q e, i ≠ .exit q e) → exec i s = .next t → t.host = s.host ∧ t.scene = s.scene ∧ t.pending = s.pending

/-- A charge of `n` units of 1/256 bead (R379, R381, R382): with the part of a bead that the batch carries it makes whole beads, which lower the balance of the batch's
tenant account and of its class account, and both commitments until the charges reach the estimate, each saturating; other accounts stay, and the batch's beads count them. -/
def Obligations.ChargesLowerAccounts : Prop := ∀ (s : State) (x : Batch) (n k : Nat), k = (x.frac + n) / 256 →
  (s.charge x n).account false x.tenant
      = { bal := sat48 ((s.account false x.tenant).bal - k), cmt := sat48 ((s.account false x.tenant).cmt - (min k x.cmtLeft : Nat)) }
  ∧ (s.charge x n).account true x.cls = { bal := sat48 ((s.account true x.cls).bal - k), cmt := sat48 ((s.account true x.cls).cmt - (min k x.cmtLeft : Nat)) }
  ∧ (∀ j, j ≠ x.tenant → (s.charge x n).account false j = s.account false j) ∧ (∀ j, j ≠ x.cls → (s.charge x n).account true j = s.account true j)
  ∧ (s.batch x.bid = some x → ∃ y, (s.charge x n).batch x.bid = some y ∧ y.beads = x.beads + k ∧ y.frac = (x.frac + n) % 256 ∧ y.cmtLeft = x.cmtLeft - k)

/-- The route epoch (R162): a write through the `MAP` window and a change of the open districts each add one to it, modulo 2^16. -/
def Obligations.RouteEpoch : Prop := ∀ (s : State),
  (∀ (n : Fin 4) (v : Word), s.opens (0x06100 + 4 * n.val) = true → s.pageBad 6 = false → (s.dist (s.rd Fld.mapIndexIndex / 512)).inReset = false → s.armed Fld.mapInjectTbl = false
    → ∃ t, exec (.mapDataWrite n v) s = .next t ∧ t.rd Fld.chRouteEpochEpoch = (s.rd Fld.chRouteEpochEpoch + 1) % 65536)
  ∧ (∀ d bit, d < 128 → bit < 5 → s.isOpen d = true → (s.setReason d bit true).isOpen d = false ∧ (s.setReason d bit true).rd Fld.chRouteEpochEpoch = (s.rd Fld.chRouteEpochEpoch + 1) % 65536)
  ∧ (∀ d bit, d < 128 → bit < 6 → (s.dist d).reasons = BitVec.ofNat 6 (2 ^ bit)
    → (s.setReason d bit false).rd Fld.chRouteEpochEpoch = (s.rd Fld.chRouteEpochEpoch + 1) % 65536)

/-- A lot's owner (R157): its base district where that is open; else the open district of largest weight; some district owns it while any is open. -/
def Obligations.LotOwners : Prop := ∀ (s : State) (l : Nat),
  (s.isOpen (l % 128) = true → s.lotOwner l = some (l % 128))
  ∧ (∀ d, s.lotOwner l = some d → s.isOpen d = true ∧ (s.isOpen (l % 128) = false → ∀ e < 128, s.isOpen e = true → lotWeight l e ≤ lotWeight l d))
  ∧ (∀ e < 128, s.isOpen e = true → ∃ d, s.lotOwner l = some d)

/-- Decoding an encoded core instruction gives it back, with every operand at every value (R235, R237). -/
def Obligations.DecodeEncode : Prop := ∀ (i : Instr) (g : GRef) (w : BitVec 64), encodeCore i = some (g, w) → decodeCore g w = some i

/-- A word decodes exactly where its class lists its operation (R237), and to one instruction: encoding that instruction gives the word back, no bit dropped (R235). -/
def Obligations.EncodeDecode : Prop := ∀ (g : GRef) (w : BitVec 64), (decodeCore g w).isSome = knownOp (wordClass w) (wordOp w)
  ∧ ∀ i : Instr, decodeCore g w = some i → encodeCore i = some (g, w)

/-- Every step keeps host memory and scene memory in canonical form: addresses rising, no byte listed that an unlisted address reads as (assumption log 2). -/
def Obligations.StepKeepsMemory : Prop := ∀ s t : State, s.memoryOk = true → step s = .next t → t.memoryOk = true
end

