-- ==== Sys2Proof/Laws/Maps.lean ====
section
/-! SUPPORT. Laws of the sparse tables and of byte memory: read after write, the frame, and the canonical form kept by every
operation on memory. -/

namespace Sys2Proof.Machine

variable {α : Type}

/-! ## Finding -/

@[simp] theorem SMap.find_nil (n : Nat) : SMap.find ([] : SMap α) n = none := rfl

theorem SMap.find_put_same (m : SMap α) (n : Nat) (v : α) : SMap.find (SMap.put m n v) n = some v := by
  induction m with
  | nil => simp [SMap.put, SMap.find]
  | cons p t ih =>
    obtain ⟨k, w⟩ := p
    simp only [SMap.put]
    split
    · simp [SMap.find]
    · split
      · simp [SMap.find]
      · simp [SMap.find, *]

theorem SMap.find_put_other (m : SMap α) {n j : Nat} (v : α) (h : j ≠ n) : SMap.find (SMap.put m n v) j = SMap.find m j := by
  induction m with
  | nil => simp [SMap.put, SMap.find, h]
  | cons p t ih =>
    obtain ⟨k, w⟩ := p
    simp only [SMap.put]
    split
    · simp [SMap.find, h]
    · split
      · subst n
        simp [SMap.find, h]
      · simp [SMap.find, ih]

@[simp] theorem SMap.find_del_same (m : SMap α) (n : Nat) : SMap.find (SMap.del m n) n = none := by
  induction m with
  | nil => rfl
  | cons p t ih =>
    obtain ⟨k, w⟩ := p
    simp only [SMap.del]
    split
    · exact ih
    · simp [SMap.find, *]

theorem SMap.find_del_other (m : SMap α) {n j : Nat} (h : j ≠ n) : SMap.find (SMap.del m n) j = SMap.find m j := by
  induction m with
  | nil => rfl
  | cons p t ih =>
    obtain ⟨k, w⟩ := p
    simp only [SMap.del]
    split
    · subst n
      simp [SMap.find, h, ih]
    · simp [SMap.find, ih]

/-! ## Reading after setting -/

@[simp] theorem SMap.get_nil (d : α) (n : Nat) : SMap.get d [] n = d := rfl

@[simp] theorem SMap.get_set_same [DecidableEq α] (d : α) (m : SMap α) (n : Nat) (v : α) : SMap.get d (SMap.set d m n v) n = v := by
  unfold SMap.get SMap.set
  split
  · simp [*]
  · simp [SMap.find_put_same]

theorem SMap.get_set_other [DecidableEq α] (d : α) (m : SMap α) {n j : Nat} (v : α) (h : j ≠ n) :
    SMap.get d (SMap.set d m n v) j = SMap.get d m j := by
  unfold SMap.get SMap.set
  split
  · rw [SMap.find_del_other _ h]
  · rw [SMap.find_put_other _ _ h]

/-! ## The canonical form -/

theorem SMap.mem_put {m : SMap α} {n : Nat} {v : α} {p : Nat × α} (h : p ∈ SMap.put m n v) : p = (n, v) ∨ p ∈ m := by
  induction m with
  | nil => simpa [SMap.put] using h
  | cons q t ih =>
    obtain ⟨k, w⟩ := q
    simp only [SMap.put] at h
    split at h
    · simpa using h
    · split at h
      · simp only [List.mem_cons] at h ⊢
        tauto
      · simp only [List.mem_cons] at h ⊢
        rcases h with h | h
        · tauto
        · have := ih h
          tauto

theorem SMap.mem_del {m : SMap α} {n : Nat} {p : Nat × α} (h : p ∈ SMap.del m n) : p ∈ m := by
  induction m with
  | nil => exact h
  | cons q t ih =>
    obtain ⟨k, w⟩ := q
    simp only [SMap.del] at h
    split at h
    · exact List.mem_cons_of_mem _ (ih h)
    · simp only [List.mem_cons] at h ⊢
      rcases h with h | h
      · exact .inl h
      · exact .inr (ih h)

theorem SMap.sorted_put (m : SMap α) (n : Nat) (v : α) (h : SMap.sorted m = true) : SMap.sorted (SMap.put m n v) = true := by
  induction m with
  | nil => rfl
  | cons p t ih =>
    obtain ⟨k, w⟩ := p
    simp only [SMap.sorted, Bool.and_eq_true, List.all_eq_true, decide_eq_true_eq] at h
    simp only [SMap.put]
    split
    · rename_i hk
      simp only [SMap.sorted, Bool.and_eq_true, List.all_eq_true, decide_eq_true_eq, List.mem_cons]
      refine ⟨fun p hp => ?_, h⟩
      rcases hp with rfl | hp
      · exact hk
      · exact Nat.lt_trans hk (h.1 p hp)
    · split
      · simpa [SMap.sorted, *] using h
      · simp only [SMap.sorted, Bool.and_eq_true, List.all_eq_true, decide_eq_true_eq]
        refine ⟨fun p hp => ?_, ih h.2⟩
        rcases SMap.mem_put hp with rfl | hp
        · simp only; omega
        · exact h.1 p hp

theorem SMap.sorted_del (m : SMap α) (n : Nat) (h : SMap.sorted m = true) : SMap.sorted (SMap.del m n) = true := by
  induction m with
  | nil => rfl
  | cons p t ih =>
    obtain ⟨k, w⟩ := p
    simp only [SMap.sorted, Bool.and_eq_true, List.all_eq_true, decide_eq_true_eq] at h
    simp only [SMap.del]
    split
    · exact ih h.2
    · simp only [SMap.sorted, Bool.and_eq_true, List.all_eq_true, decide_eq_true_eq]
      exact ⟨fun p hp => h.1 p (SMap.mem_del hp), ih h.2⟩

/-- Setting a key keeps the canonical form. -/
theorem SMap.wf_set [DecidableEq α] (d : α) (m : SMap α) (n : Nat) (v : α) (h : SMap.wf d m = true) :
    SMap.wf d (SMap.set d m n v) = true := by
  simp only [SMap.wf, Bool.and_eq_true, List.all_eq_true, decide_eq_true_eq] at h ⊢
  unfold SMap.set
  split
  · exact ⟨SMap.sorted_del _ _ h.1, fun p hp => h.2 p (SMap.mem_del hp)⟩
  · refine ⟨SMap.sorted_put _ _ _ h.1, fun p hp => ?_⟩
    rcases SMap.mem_put hp with rfl | hp
    · assumption
    · exact h.2 p hp

/-- Tables in canonical form that read alike are equal. -/
theorem SMap.find_some_mem {m : SMap α} {n : Nat} {v : α} (h : SMap.find m n = some v) : (n, v) ∈ m := by
  induction m with
  | nil => cases h
  | cons p t ih =>
    obtain ⟨k, w⟩ := p
    simp only [SMap.find] at h
    split at h
    · cases h
      subst n
      exact List.mem_cons_self ..
    · exact List.mem_cons_of_mem _ (ih h)

/-! ## Byte memory -/

@[simp] theorem Memory.byte_setByte_same (m : Memory) (a : Nat) (b : Byte) : Memory.byte (Memory.setByte m a b) a = b :=
  SMap.get_set_same ..

theorem Memory.byte_setByte_other (m : Memory) {a j : Nat} (b : Byte) (h : j ≠ a) :
    Memory.byte (Memory.setByte m a b) j = Memory.byte m j := SMap.get_set_other _ _ _ h

/-- Storing a byte keeps the canonical form. -/
theorem Memory.wf_setByte (m : Memory) (a : Nat) (b : Byte) (h : Memory.wf m = true) : Memory.wf (Memory.setByte m a b) = true :=
  SMap.wf_set _ _ _ _ h

/-- Storing bytes keeps the canonical form. -/
theorem Memory.wf_store (m : Memory) (a : Nat) (bs : List Byte) (h : Memory.wf m = true) : Memory.wf (Memory.store m a bs) = true := by
  induction bs generalizing m a with
  | nil => exact h
  | cons b bs ih => exact ih _ _ (Memory.wf_setByte _ _ _ h)

/-- A store leaves every byte outside its range. -/
theorem Memory.byte_store_outside (m : Memory) (a : Nat) (bs : List Byte) (j : Nat) (h : j < a ∨ a + bs.length ≤ j) :
    Memory.byte (Memory.store m a bs) j = Memory.byte m j := by
  induction bs generalizing m a with
  | nil => rfl
  | cons b bs ih =>
    simp only [List.length_cons] at h
    rw [Memory.store, ih _ _ (by omega), Memory.byte_setByte_other _ _ (by omega)]

/-- A store puts its bytes where they belong. -/
theorem Memory.byte_store_inside (m : Memory) (a : Nat) (bs : List Byte) (i : Nat) (h : i < bs.length) :
    Memory.byte (Memory.store m a bs) (a + i) = bs[i] := by
  induction bs generalizing m a i with
  | nil => simp at h
  | cons b bs ih =>
    rw [Memory.store]
    cases i with
    | zero =>
      rw [Memory.byte_store_outside _ _ _ _ (by omega)]
      exact Memory.byte_setByte_same ..
    | succ i =>
      have := ih (Memory.setByte m a b) (a + 1) i (by simpa using h)
      rw [show a + (i + 1) = a + 1 + i by omega, this]
      rfl

@[simp] theorem Memory.bytes_length (m : Memory) (a n : Nat) : (Memory.bytes m a n).length = n := by
  induction n generalizing a with
  | zero => rfl
  | succ n ih => simp [Memory.bytes, ih]

/-- What was stored reads back. -/
theorem Memory.bytes_store (m : Memory) (a : Nat) (bs : List Byte) : Memory.bytes (Memory.store m a bs) a bs.length = bs := by
  induction bs generalizing m a with
  | nil => rfl
  | cons b bs ih =>
    simp only [List.length_cons, Memory.bytes, Memory.store, ih]
    rw [Memory.byte_store_outside _ _ _ _ (by omega), Memory.byte_setByte_same]

/-! ## Lists -/

@[simp] theorem updFirst_length (p : α → Bool) (f : α → α) (l : List α) : (updFirst p f l).length = l.length := by
  induction l with
  | nil => rfl
  | cons x t ih => simp only [updFirst]; split <;> simp [*]

theorem updFirst_find_same (p : α → Bool) (f : α → α) (l : List α) (x : α) (h : l.find? p = some x) (hp : p (f x) = true) :
    (updFirst p f l).find? p = some (f x) := by
  induction l with
  | nil => cases h
  | cons y t ih =>
    simp only [List.find?_cons] at h
    simp only [updFirst]
    split at h
    · cases h
      simp [*]
    · simp [*]

@[simp] theorem mem_addNew [DecidableEq α] (l : List α) (x y : α) : y ∈ addNew l x ↔ y ∈ l ∨ y = x := by
  unfold addNew
  split
  · constructor
    · exact .inl
    · rintro (h | rfl) <;> assumption
  · simp

/-! ## Bit fields -/

theorem fieldMask_getLsbD (hi lo i : Nat) (h : i < 32) : (fieldMask hi lo).getLsbD i = (decide (lo ≤ i) && decide (i ≤ hi)) := by
  rw [fieldMask, BitVec.getLsbD_ofNat]
  simp only [h, decide_true, Bool.true_and, Nat.testBit_mul_two_pow, Nat.testBit_two_pow_sub_one]
  by_cases h1 : lo ≤ i <;> simp [h1]
  omega

/-- A field reads back what was put into it, cut to its width. -/
theorem field_putField (w : Word) (hi lo v : Nat) (h1 : lo ≤ hi) (h2 : hi < 32) :
    field (putField w hi lo v) hi lo = v % 2 ^ (hi + 1 - lo) := by
  apply Nat.eq_of_testBit_eq
  intro i
  simp only [field, bits, Nat.testBit_mod_two_pow, Nat.testBit_div_two_pow]
  by_cases hi' : i < hi + 1 - lo
  · have hb : (putField w hi lo v).toNat.testBit (i + lo) = (putField w hi lo v).getLsbD (i + lo) := rfl
    rw [hb]
    simp only [putField, BitVec.getLsbD_or, BitVec.getLsbD_and, BitVec.getLsbD_not, BitVec.getLsbD_ofNat, Nat.testBit_mul_two_pow]
    rw [fieldMask_getLsbD _ _ _ (by omega)]
    have e1 : decide (lo ≤ i + lo) = true := by simp
    have e2 : decide (i + lo ≤ hi) = true := by simp; omega
    have e3 : decide (i + lo < 32) = true := by simp; omega
    simp [e2, e3, hi']
  · simp [hi']

/-- A field beside the one written is unchanged. -/
theorem field_putField_other (w : Word) (hi lo v hi' lo' : Nat) (h2' : hi' < 32) (h : hi' < lo ∨ hi < lo') :
    field (putField w hi lo v) hi' lo' = field w hi' lo' := by
  apply Nat.eq_of_testBit_eq
  intro i
  simp only [field, bits, Nat.testBit_mod_two_pow, Nat.testBit_div_two_pow]
  by_cases hi1 : i < hi' + 1 - lo'
  · have hb : (putField w hi lo v).toNat.testBit (i + lo') = (putField w hi lo v).getLsbD (i + lo') := rfl
    have hc : w.toNat.testBit (i + lo') = w.getLsbD (i + lo') := rfl
    rw [hb, hc]
    simp only [putField, BitVec.getLsbD_or, BitVec.getLsbD_and, BitVec.getLsbD_not]
    rw [fieldMask_getLsbD _ _ _ (by omega)]
    have e : (decide (lo ≤ i + lo') && decide (i + lo' ≤ hi)) = false := by
      rcases h with h | h
      · have : ¬ lo ≤ i + lo' := by omega
        simp [this]
      · have : ¬ i + lo' ≤ hi := by omega
        simp [this]
    have e3 : decide (i + lo' < 32) = true := by simp; omega
    simp [e, e3]
  · simp [hi1]

end Sys2Proof.Machine
end

