-- ==== Sys2Proof/Laws/State.lean ====
section
/-! SUPPORT. One lemma per field of the state for each shared update: what the update leaves alone. -/

namespace Sys2Proof.Machine

variable (s : State)

/-! ## `setReg` -/

@[simp] theorem State.setReg_pending (off : Nat) (v : Word) : (s.setReg off v).pending = s.pending := rfl
@[simp] theorem State.setReg_parBad (off : Nat) (v : Word) : (s.setReg off v).parBad = s.parBad := rfl
@[simp] theorem State.setReg_locked (off : Nat) (v : Word) : (s.setReg off v).locked = s.locked := rfl
@[simp] theorem State.setReg_live (off : Nat) (v : Word) : (s.setReg off v).live = s.live := rfl
@[simp] theorem State.setReg_hold (off : Nat) (v : Word) : (s.setReg off v).hold = s.hold := rfl
@[simp] theorem State.setReg_ten (off : Nat) (v : Word) : (s.setReg off v).ten = s.ten := rfl
@[simp] theorem State.setReg_tenBad (off : Nat) (v : Word) : (s.setReg off v).tenBad = s.tenBad := rfl
@[simp] theorem State.setReg_map (off : Nat) (v : Word) : (s.setReg off v).map = s.map := rfl
@[simp] theorem State.setReg_mapBad (off : Nat) (v : Word) : (s.setReg off v).mapBad = s.mapBad := rfl
@[simp] theorem State.setReg_host (off : Nat) (v : Word) : (s.setReg off v).host = s.host := rfl
@[simp] theorem State.setReg_hostWr (off : Nat) (v : Word) : (s.setReg off v).hostWr = s.hostWr := rfl
@[simp] theorem State.setReg_scene (off : Nat) (v : Word) : (s.setReg off v).scene = s.scene := rfl
@[simp] theorem State.setReg_codeErr (off : Nat) (v : Word) : (s.setReg off v).codeErr = s.codeErr := rfl
@[simp] theorem State.setReg_poison (off : Nat) (v : Word) : (s.setReg off v).poison = s.poison := rfl
@[simp] theorem State.setReg_ports (off : Nat) (v : Word) : (s.setReg off v).ports = s.ports := rfl
@[simp] theorem State.setReg_capC (off : Nat) (v : Word) : (s.setReg off v).capC = s.capC := rfl
@[simp] theorem State.setReg_stk (off : Nat) (v : Word) : (s.setReg off v).stk = s.stk := rfl
@[simp] theorem State.setReg_fetched (off : Nat) (v : Word) : (s.setReg off v).fetched = s.fetched := rfl
@[simp] theorem State.setReg_seqWait (off : Nat) (v : Word) : (s.setReg off v).seqWait = s.seqWait := rfl
@[simp] theorem State.setReg_cancels (off : Nat) (v : Word) : (s.setReg off v).cancels = s.cancels := rfl
@[simp] theorem State.setReg_queErrS (off : Nat) (v : Word) : (s.setReg off v).queErrS = s.queErrS := rfl
@[simp] theorem State.setReg_batches (off : Nat) (v : Word) : (s.setReg off v).batches = s.batches := rfl
@[simp] theorem State.setReg_tally (off : Nat) (v : Word) : (s.setReg off v).tally = s.tally := rfl
@[simp] theorem State.setReg_tallyErr (off : Nat) (v : Word) : (s.setReg off v).tallyErr = s.tallyErr := rfl
@[simp] theorem State.setReg_tallyPos (off : Nat) (v : Word) : (s.setReg off v).tallyPos = s.tallyPos := rfl
@[simp] theorem State.setReg_tallyStop (off : Nat) (v : Word) : (s.setReg off v).tallyStop = s.tallyStop := rfl
@[simp] theorem State.setReg_stamps (off : Nat) (v : Word) : (s.setReg off v).stamps = s.stamps := rfl
@[simp] theorem State.setReg_xc (off : Nat) (v : Word) : (s.setReg off v).xc = s.xc := rfl
@[simp] theorem State.setReg_faults (off : Nat) (v : Word) : (s.setReg off v).faults = s.faults := rfl
@[simp] theorem State.setReg_reports (off : Nat) (v : Word) : (s.setReg off v).reports = s.reports := rfl
@[simp] theorem State.setReg_contribs (off : Nat) (v : Word) : (s.setReg off v).contribs = s.contribs := rfl
@[simp] theorem State.setReg_locks (off : Nat) (v : Word) : (s.setReg off v).locks = s.locks := rfl
@[simp] theorem State.setReg_walkers (off : Nat) (v : Word) : (s.setReg off v).walkers = s.walkers := rfl
@[simp] theorem State.setReg_clock (off : Nat) (v : Word) : (s.setReg off v).clock = s.clock := rfl
@[simp] theorem State.setReg_dists (off : Nat) (v : Word) : (s.setReg off v).dists = s.dists := rfl
@[simp] theorem State.setReg_links (off : Nat) (v : Word) : (s.setReg off v).links = s.links := rfl
@[simp] theorem State.setReg_msgs (off : Nat) (v : Word) : (s.setReg off v).msgs = s.msgs := rfl
@[simp] theorem State.setReg_gate (off : Nat) (v : Word) : (s.setReg off v).gate = s.gate := rfl
@[simp] theorem State.setReg_house (off : Nat) (v : Word) : (s.setReg off v).house = s.house := rfl
@[simp] theorem State.setReg_power (off : Nat) (v : Word) : (s.setReg off v).power = s.power := rfl
@[simp] theorem State.setReg_pins (off : Nat) (v : Word) : (s.setReg off v).pins = s.pins := rfl
@[simp] theorem State.setReg_twin (off : Nat) (v : Word) : (s.setReg off v).twin = s.twin := rfl
@[simp] theorem State.setReg_phase (off : Nat) (v : Word) : (s.setReg off v).phase = s.phase := rfl
@[simp] theorem State.setReg_freeCtr (off : Nat) (v : Word) : (s.setReg off v).freeCtr = s.freeCtr := rfl

/-! ## `wr` -/

@[simp] theorem State.wr_pending (f : Fld) (v : Nat) : (s.wr f v).pending = s.pending := rfl
@[simp] theorem State.wr_parBad (f : Fld) (v : Nat) : (s.wr f v).parBad = s.parBad := rfl
@[simp] theorem State.wr_locked (f : Fld) (v : Nat) : (s.wr f v).locked = s.locked := rfl
@[simp] theorem State.wr_live (f : Fld) (v : Nat) : (s.wr f v).live = s.live := rfl
@[simp] theorem State.wr_hold (f : Fld) (v : Nat) : (s.wr f v).hold = s.hold := rfl
@[simp] theorem State.wr_ten (f : Fld) (v : Nat) : (s.wr f v).ten = s.ten := rfl
@[simp] theorem State.wr_tenBad (f : Fld) (v : Nat) : (s.wr f v).tenBad = s.tenBad := rfl
@[simp] theorem State.wr_map (f : Fld) (v : Nat) : (s.wr f v).map = s.map := rfl
@[simp] theorem State.wr_mapBad (f : Fld) (v : Nat) : (s.wr f v).mapBad = s.mapBad := rfl
@[simp] theorem State.wr_host (f : Fld) (v : Nat) : (s.wr f v).host = s.host := rfl
@[simp] theorem State.wr_hostWr (f : Fld) (v : Nat) : (s.wr f v).hostWr = s.hostWr := rfl
@[simp] theorem State.wr_scene (f : Fld) (v : Nat) : (s.wr f v).scene = s.scene := rfl
@[simp] theorem State.wr_codeErr (f : Fld) (v : Nat) : (s.wr f v).codeErr = s.codeErr := rfl
@[simp] theorem State.wr_poison (f : Fld) (v : Nat) : (s.wr f v).poison = s.poison := rfl
@[simp] theorem State.wr_ports (f : Fld) (v : Nat) : (s.wr f v).ports = s.ports := rfl
@[simp] theorem State.wr_capC (f : Fld) (v : Nat) : (s.wr f v).capC = s.capC := rfl
@[simp] theorem State.wr_stk (f : Fld) (v : Nat) : (s.wr f v).stk = s.stk := rfl
@[simp] theorem State.wr_fetched (f : Fld) (v : Nat) : (s.wr f v).fetched = s.fetched := rfl
@[simp] theorem State.wr_seqWait (f : Fld) (v : Nat) : (s.wr f v).seqWait = s.seqWait := rfl
@[simp] theorem State.wr_cancels (f : Fld) (v : Nat) : (s.wr f v).cancels = s.cancels := rfl
@[simp] theorem State.wr_queErrS (f : Fld) (v : Nat) : (s.wr f v).queErrS = s.queErrS := rfl
@[simp] theorem State.wr_batches (f : Fld) (v : Nat) : (s.wr f v).batches = s.batches := rfl
@[simp] theorem State.wr_tally (f : Fld) (v : Nat) : (s.wr f v).tally = s.tally := rfl
@[simp] theorem State.wr_tallyErr (f : Fld) (v : Nat) : (s.wr f v).tallyErr = s.tallyErr := rfl
@[simp] theorem State.wr_tallyPos (f : Fld) (v : Nat) : (s.wr f v).tallyPos = s.tallyPos := rfl
@[simp] theorem State.wr_tallyStop (f : Fld) (v : Nat) : (s.wr f v).tallyStop = s.tallyStop := rfl
@[simp] theorem State.wr_stamps (f : Fld) (v : Nat) : (s.wr f v).stamps = s.stamps := rfl
@[simp] theorem State.wr_xc (f : Fld) (v : Nat) : (s.wr f v).xc = s.xc := rfl
@[simp] theorem State.wr_faults (f : Fld) (v : Nat) : (s.wr f v).faults = s.faults := rfl
@[simp] theorem State.wr_reports (f : Fld) (v : Nat) : (s.wr f v).reports = s.reports := rfl
@[simp] theorem State.wr_contribs (f : Fld) (v : Nat) : (s.wr f v).contribs = s.contribs := rfl
@[simp] theorem State.wr_locks (f : Fld) (v : Nat) : (s.wr f v).locks = s.locks := rfl
@[simp] theorem State.wr_walkers (f : Fld) (v : Nat) : (s.wr f v).walkers = s.walkers := rfl
@[simp] theorem State.wr_clock (f : Fld) (v : Nat) : (s.wr f v).clock = s.clock := rfl
@[simp] theorem State.wr_dists (f : Fld) (v : Nat) : (s.wr f v).dists = s.dists := rfl
@[simp] theorem State.wr_links (f : Fld) (v : Nat) : (s.wr f v).links = s.links := rfl
@[simp] theorem State.wr_msgs (f : Fld) (v : Nat) : (s.wr f v).msgs = s.msgs := rfl
@[simp] theorem State.wr_gate (f : Fld) (v : Nat) : (s.wr f v).gate = s.gate := rfl
@[simp] theorem State.wr_house (f : Fld) (v : Nat) : (s.wr f v).house = s.house := rfl
@[simp] theorem State.wr_power (f : Fld) (v : Nat) : (s.wr f v).power = s.power := rfl
@[simp] theorem State.wr_pins (f : Fld) (v : Nat) : (s.wr f v).pins = s.pins := rfl
@[simp] theorem State.wr_twin (f : Fld) (v : Nat) : (s.wr f v).twin = s.twin := rfl
@[simp] theorem State.wr_phase (f : Fld) (v : Nat) : (s.wr f v).phase = s.phase := rfl
@[simp] theorem State.wr_freeCtr (f : Fld) (v : Nat) : (s.wr f v).freeCtr = s.freeCtr := rfl

/-! ## `disarm` -/

@[simp] theorem State.disarm_pending (f : Fld) : (s.disarm f).pending = s.pending := rfl
@[simp] theorem State.disarm_parBad (f : Fld) : (s.disarm f).parBad = s.parBad := rfl
@[simp] theorem State.disarm_locked (f : Fld) : (s.disarm f).locked = s.locked := rfl
@[simp] theorem State.disarm_live (f : Fld) : (s.disarm f).live = s.live := rfl
@[simp] theorem State.disarm_hold (f : Fld) : (s.disarm f).hold = s.hold := rfl
@[simp] theorem State.disarm_ten (f : Fld) : (s.disarm f).ten = s.ten := rfl
@[simp] theorem State.disarm_tenBad (f : Fld) : (s.disarm f).tenBad = s.tenBad := rfl
@[simp] theorem State.disarm_map (f : Fld) : (s.disarm f).map = s.map := rfl
@[simp] theorem State.disarm_mapBad (f : Fld) : (s.disarm f).mapBad = s.mapBad := rfl
@[simp] theorem State.disarm_host (f : Fld) : (s.disarm f).host = s.host := rfl
@[simp] theorem State.disarm_hostWr (f : Fld) : (s.disarm f).hostWr = s.hostWr := rfl
@[simp] theorem State.disarm_scene (f : Fld) : (s.disarm f).scene = s.scene := rfl
@[simp] theorem State.disarm_codeErr (f : Fld) : (s.disarm f).codeErr = s.codeErr := rfl
@[simp] theorem State.disarm_poison (f : Fld) : (s.disarm f).poison = s.poison := rfl
@[simp] theorem State.disarm_ports (f : Fld) : (s.disarm f).ports = s.ports := rfl
@[simp] theorem State.disarm_capC (f : Fld) : (s.disarm f).capC = s.capC := rfl
@[simp] theorem State.disarm_stk (f : Fld) : (s.disarm f).stk = s.stk := rfl
@[simp] theorem State.disarm_fetched (f : Fld) : (s.disarm f).fetched = s.fetched := rfl
@[simp] theorem State.disarm_seqWait (f : Fld) : (s.disarm f).seqWait = s.seqWait := rfl
@[simp] theorem State.disarm_cancels (f : Fld) : (s.disarm f).cancels = s.cancels := rfl
@[simp] theorem State.disarm_queErrS (f : Fld) : (s.disarm f).queErrS = s.queErrS := rfl
@[simp] theorem State.disarm_batches (f : Fld) : (s.disarm f).batches = s.batches := rfl
@[simp] theorem State.disarm_tally (f : Fld) : (s.disarm f).tally = s.tally := rfl
@[simp] theorem State.disarm_tallyErr (f : Fld) : (s.disarm f).tallyErr = s.tallyErr := rfl
@[simp] theorem State.disarm_tallyPos (f : Fld) : (s.disarm f).tallyPos = s.tallyPos := rfl
@[simp] theorem State.disarm_tallyStop (f : Fld) : (s.disarm f).tallyStop = s.tallyStop := rfl
@[simp] theorem State.disarm_stamps (f : Fld) : (s.disarm f).stamps = s.stamps := rfl
@[simp] theorem State.disarm_xc (f : Fld) : (s.disarm f).xc = s.xc := rfl
@[simp] theorem State.disarm_faults (f : Fld) : (s.disarm f).faults = s.faults := rfl
@[simp] theorem State.disarm_reports (f : Fld) : (s.disarm f).reports = s.reports := rfl
@[simp] theorem State.disarm_contribs (f : Fld) : (s.disarm f).contribs = s.contribs := rfl
@[simp] theorem State.disarm_locks (f : Fld) : (s.disarm f).locks = s.locks := rfl
@[simp] theorem State.disarm_walkers (f : Fld) : (s.disarm f).walkers = s.walkers := rfl
@[simp] theorem State.disarm_clock (f : Fld) : (s.disarm f).clock = s.clock := rfl
@[simp] theorem State.disarm_dists (f : Fld) : (s.disarm f).dists = s.dists := rfl
@[simp] theorem State.disarm_links (f : Fld) : (s.disarm f).links = s.links := rfl
@[simp] theorem State.disarm_msgs (f : Fld) : (s.disarm f).msgs = s.msgs := rfl
@[simp] theorem State.disarm_gate (f : Fld) : (s.disarm f).gate = s.gate := rfl
@[simp] theorem State.disarm_house (f : Fld) : (s.disarm f).house = s.house := rfl
@[simp] theorem State.disarm_power (f : Fld) : (s.disarm f).power = s.power := rfl
@[simp] theorem State.disarm_pins (f : Fld) : (s.disarm f).pins = s.pins := rfl
@[simp] theorem State.disarm_twin (f : Fld) : (s.disarm f).twin = s.twin := rfl
@[simp] theorem State.disarm_phase (f : Fld) : (s.disarm f).phase = s.phase := rfl
@[simp] theorem State.disarm_freeCtr (f : Fld) : (s.disarm f).freeCtr = s.freeCtr := rfl

/-! ## `count` -/

@[simp] theorem State.count_pending (u i n : Nat) : (s.count u i n).pending = s.pending := rfl
@[simp] theorem State.count_regs (u i n : Nat) : (s.count u i n).regs = s.regs := rfl
@[simp] theorem State.count_parBad (u i n : Nat) : (s.count u i n).parBad = s.parBad := rfl
@[simp] theorem State.count_locked (u i n : Nat) : (s.count u i n).locked = s.locked := rfl
@[simp] theorem State.count_hold (u i n : Nat) : (s.count u i n).hold = s.hold := rfl
@[simp] theorem State.count_ten (u i n : Nat) : (s.count u i n).ten = s.ten := rfl
@[simp] theorem State.count_tenBad (u i n : Nat) : (s.count u i n).tenBad = s.tenBad := rfl
@[simp] theorem State.count_map (u i n : Nat) : (s.count u i n).map = s.map := rfl
@[simp] theorem State.count_mapBad (u i n : Nat) : (s.count u i n).mapBad = s.mapBad := rfl
@[simp] theorem State.count_host (u i n : Nat) : (s.count u i n).host = s.host := rfl
@[simp] theorem State.count_hostWr (u i n : Nat) : (s.count u i n).hostWr = s.hostWr := rfl
@[simp] theorem State.count_scene (u i n : Nat) : (s.count u i n).scene = s.scene := rfl
@[simp] theorem State.count_codeErr (u i n : Nat) : (s.count u i n).codeErr = s.codeErr := rfl
@[simp] theorem State.count_poison (u i n : Nat) : (s.count u i n).poison = s.poison := rfl
@[simp] theorem State.count_ports (u i n : Nat) : (s.count u i n).ports = s.ports := rfl
@[simp] theorem State.count_capC (u i n : Nat) : (s.count u i n).capC = s.capC := rfl
@[simp] theorem State.count_stk (u i n : Nat) : (s.count u i n).stk = s.stk := rfl
@[simp] theorem State.count_fetched (u i n : Nat) : (s.count u i n).fetched = s.fetched := rfl
@[simp] theorem State.count_seqWait (u i n : Nat) : (s.count u i n).seqWait = s.seqWait := rfl
@[simp] theorem State.count_cancels (u i n : Nat) : (s.count u i n).cancels = s.cancels := rfl
@[simp] theorem State.count_queErrS (u i n : Nat) : (s.count u i n).queErrS = s.queErrS := rfl
@[simp] theorem State.count_batches (u i n : Nat) : (s.count u i n).batches = s.batches := rfl
@[simp] theorem State.count_tally (u i n : Nat) : (s.count u i n).tally = s.tally := rfl
@[simp] theorem State.count_tallyErr (u i n : Nat) : (s.count u i n).tallyErr = s.tallyErr := rfl
@[simp] theorem State.count_tallyPos (u i n : Nat) : (s.count u i n).tallyPos = s.tallyPos := rfl
@[simp] theorem State.count_tallyStop (u i n : Nat) : (s.count u i n).tallyStop = s.tallyStop := rfl
@[simp] theorem State.count_stamps (u i n : Nat) : (s.count u i n).stamps = s.stamps := rfl
@[simp] theorem State.count_xc (u i n : Nat) : (s.count u i n).xc = s.xc := rfl
@[simp] theorem State.count_faults (u i n : Nat) : (s.count u i n).faults = s.faults := rfl
@[simp] theorem State.count_reports (u i n : Nat) : (s.count u i n).reports = s.reports := rfl
@[simp] theorem State.count_contribs (u i n : Nat) : (s.count u i n).contribs = s.contribs := rfl
@[simp] theorem State.count_locks (u i n : Nat) : (s.count u i n).locks = s.locks := rfl
@[simp] theorem State.count_walkers (u i n : Nat) : (s.count u i n).walkers = s.walkers := rfl
@[simp] theorem State.count_clock (u i n : Nat) : (s.count u i n).clock = s.clock := rfl
@[simp] theorem State.count_dists (u i n : Nat) : (s.count u i n).dists = s.dists := rfl
@[simp] theorem State.count_links (u i n : Nat) : (s.count u i n).links = s.links := rfl
@[simp] theorem State.count_msgs (u i n : Nat) : (s.count u i n).msgs = s.msgs := rfl
@[simp] theorem State.count_gate (u i n : Nat) : (s.count u i n).gate = s.gate := rfl
@[simp] theorem State.count_house (u i n : Nat) : (s.count u i n).house = s.house := rfl
@[simp] theorem State.count_power (u i n : Nat) : (s.count u i n).power = s.power := rfl
@[simp] theorem State.count_pins (u i n : Nat) : (s.count u i n).pins = s.pins := rfl
@[simp] theorem State.count_twin (u i n : Nat) : (s.count u i n).twin = s.twin := rfl
@[simp] theorem State.count_phase (u i n : Nat) : (s.count u i n).phase = s.phase := rfl
@[simp] theorem State.count_freeCtr (u i n : Nat) : (s.count u i n).freeCtr = s.freeCtr := rfl

/-! ## `countRead` -/

@[simp] theorem State.countRead_pending (n : Nat) : (s.countRead n).pending = s.pending := rfl
@[simp] theorem State.countRead_regs (n : Nat) : (s.countRead n).regs = s.regs := rfl
@[simp] theorem State.countRead_parBad (n : Nat) : (s.countRead n).parBad = s.parBad := rfl
@[simp] theorem State.countRead_locked (n : Nat) : (s.countRead n).locked = s.locked := rfl
@[simp] theorem State.countRead_hold (n : Nat) : (s.countRead n).hold = s.hold := rfl
@[simp] theorem State.countRead_ten (n : Nat) : (s.countRead n).ten = s.ten := rfl
@[simp] theorem State.countRead_tenBad (n : Nat) : (s.countRead n).tenBad = s.tenBad := rfl
@[simp] theorem State.countRead_map (n : Nat) : (s.countRead n).map = s.map := rfl
@[simp] theorem State.countRead_mapBad (n : Nat) : (s.countRead n).mapBad = s.mapBad := rfl
@[simp] theorem State.countRead_host (n : Nat) : (s.countRead n).host = s.host := rfl
@[simp] theorem State.countRead_hostWr (n : Nat) : (s.countRead n).hostWr = s.hostWr := rfl
@[simp] theorem State.countRead_scene (n : Nat) : (s.countRead n).scene = s.scene := rfl
@[simp] theorem State.countRead_codeErr (n : Nat) : (s.countRead n).codeErr = s.codeErr := rfl
@[simp] theorem State.countRead_poison (n : Nat) : (s.countRead n).poison = s.poison := rfl
@[simp] theorem State.countRead_ports (n : Nat) : (s.countRead n).ports = s.ports := rfl
@[simp] theorem State.countRead_capC (n : Nat) : (s.countRead n).capC = s.capC := rfl
@[simp] theorem State.countRead_stk (n : Nat) : (s.countRead n).stk = s.stk := rfl
@[simp] theorem State.countRead_fetched (n : Nat) : (s.countRead n).fetched = s.fetched := rfl
@[simp] theorem State.countRead_seqWait (n : Nat) : (s.countRead n).seqWait = s.seqWait := rfl
@[simp] theorem State.countRead_cancels (n : Nat) : (s.countRead n).cancels = s.cancels := rfl
@[simp] theorem State.countRead_queErrS (n : Nat) : (s.countRead n).queErrS = s.queErrS := rfl
@[simp] theorem State.countRead_batches (n : Nat) : (s.countRead n).batches = s.batches := rfl
@[simp] theorem State.countRead_tally (n : Nat) : (s.countRead n).tally = s.tally := rfl
@[simp] theorem State.countRead_tallyErr (n : Nat) : (s.countRead n).tallyErr = s.tallyErr := rfl
@[simp] theorem State.countRead_tallyPos (n : Nat) : (s.countRead n).tallyPos = s.tallyPos := rfl
@[simp] theorem State.countRead_tallyStop (n : Nat) : (s.countRead n).tallyStop = s.tallyStop := rfl
@[simp] theorem State.countRead_stamps (n : Nat) : (s.countRead n).stamps = s.stamps := rfl
@[simp] theorem State.countRead_xc (n : Nat) : (s.countRead n).xc = s.xc := rfl
@[simp] theorem State.countRead_faults (n : Nat) : (s.countRead n).faults = s.faults := rfl
@[simp] theorem State.countRead_reports (n : Nat) : (s.countRead n).reports = s.reports := rfl
@[simp] theorem State.countRead_contribs (n : Nat) : (s.countRead n).contribs = s.contribs := rfl
@[simp] theorem State.countRead_locks (n : Nat) : (s.countRead n).locks = s.locks := rfl
@[simp] theorem State.countRead_walkers (n : Nat) : (s.countRead n).walkers = s.walkers := rfl
@[simp] theorem State.countRead_clock (n : Nat) : (s.countRead n).clock = s.clock := rfl
@[simp] theorem State.countRead_dists (n : Nat) : (s.countRead n).dists = s.dists := rfl
@[simp] theorem State.countRead_links (n : Nat) : (s.countRead n).links = s.links := rfl
@[simp] theorem State.countRead_msgs (n : Nat) : (s.countRead n).msgs = s.msgs := rfl
@[simp] theorem State.countRead_gate (n : Nat) : (s.countRead n).gate = s.gate := rfl
@[simp] theorem State.countRead_house (n : Nat) : (s.countRead n).house = s.house := rfl
@[simp] theorem State.countRead_power (n : Nat) : (s.countRead n).power = s.power := rfl
@[simp] theorem State.countRead_pins (n : Nat) : (s.countRead n).pins = s.pins := rfl
@[simp] theorem State.countRead_twin (n : Nat) : (s.countRead n).twin = s.twin := rfl
@[simp] theorem State.countRead_phase (n : Nat) : (s.countRead n).phase = s.phase := rfl
@[simp] theorem State.countRead_freeCtr (n : Nat) : (s.countRead n).freeCtr = s.freeCtr := rfl

/-! ## `askEvent` -/

@[simp] theorem State.askEvent_pending : (s.askEvent).pending = s.pending := rfl
@[simp] theorem State.askEvent_regs : (s.askEvent).regs = s.regs := rfl
@[simp] theorem State.askEvent_parBad : (s.askEvent).parBad = s.parBad := rfl
@[simp] theorem State.askEvent_locked : (s.askEvent).locked = s.locked := rfl
@[simp] theorem State.askEvent_live : (s.askEvent).live = s.live := rfl
@[simp] theorem State.askEvent_hold : (s.askEvent).hold = s.hold := rfl
@[simp] theorem State.askEvent_ten : (s.askEvent).ten = s.ten := rfl
@[simp] theorem State.askEvent_tenBad : (s.askEvent).tenBad = s.tenBad := rfl
@[simp] theorem State.askEvent_map : (s.askEvent).map = s.map := rfl
@[simp] theorem State.askEvent_mapBad : (s.askEvent).mapBad = s.mapBad := rfl
@[simp] theorem State.askEvent_host : (s.askEvent).host = s.host := rfl
@[simp] theorem State.askEvent_hostWr : (s.askEvent).hostWr = s.hostWr := rfl
@[simp] theorem State.askEvent_scene : (s.askEvent).scene = s.scene := rfl
@[simp] theorem State.askEvent_codeErr : (s.askEvent).codeErr = s.codeErr := rfl
@[simp] theorem State.askEvent_poison : (s.askEvent).poison = s.poison := rfl
@[simp] theorem State.askEvent_ports : (s.askEvent).ports = s.ports := rfl
@[simp] theorem State.askEvent_capC : (s.askEvent).capC = s.capC := rfl
@[simp] theorem State.askEvent_stk : (s.askEvent).stk = s.stk := rfl
@[simp] theorem State.askEvent_fetched : (s.askEvent).fetched = s.fetched := rfl
@[simp] theorem State.askEvent_seqWait : (s.askEvent).seqWait = s.seqWait := rfl
@[simp] theorem State.askEvent_cancels : (s.askEvent).cancels = s.cancels := rfl
@[simp] theorem State.askEvent_queErrS : (s.askEvent).queErrS = s.queErrS := rfl
@[simp] theorem State.askEvent_batches : (s.askEvent).batches = s.batches := rfl
@[simp] theorem State.askEvent_tally : (s.askEvent).tally = s.tally := rfl
@[simp] theorem State.askEvent_tallyErr : (s.askEvent).tallyErr = s.tallyErr := rfl
@[simp] theorem State.askEvent_tallyPos : (s.askEvent).tallyPos = s.tallyPos := rfl
@[simp] theorem State.askEvent_tallyStop : (s.askEvent).tallyStop = s.tallyStop := rfl
@[simp] theorem State.askEvent_stamps : (s.askEvent).stamps = s.stamps := rfl
@[simp] theorem State.askEvent_xc : (s.askEvent).xc = s.xc := rfl
@[simp] theorem State.askEvent_faults : (s.askEvent).faults = s.faults := rfl
@[simp] theorem State.askEvent_reports : (s.askEvent).reports = s.reports := rfl
@[simp] theorem State.askEvent_contribs : (s.askEvent).contribs = s.contribs := rfl
@[simp] theorem State.askEvent_locks : (s.askEvent).locks = s.locks := rfl
@[simp] theorem State.askEvent_walkers : (s.askEvent).walkers = s.walkers := rfl
@[simp] theorem State.askEvent_clock : (s.askEvent).clock = s.clock := rfl
@[simp] theorem State.askEvent_dists : (s.askEvent).dists = s.dists := rfl
@[simp] theorem State.askEvent_links : (s.askEvent).links = s.links := rfl
@[simp] theorem State.askEvent_msgs : (s.askEvent).msgs = s.msgs := rfl
@[simp] theorem State.askEvent_house : (s.askEvent).house = s.house := rfl
@[simp] theorem State.askEvent_power : (s.askEvent).power = s.power := rfl
@[simp] theorem State.askEvent_pins : (s.askEvent).pins = s.pins := rfl
@[simp] theorem State.askEvent_twin : (s.askEvent).twin = s.twin := rfl
@[simp] theorem State.askEvent_phase : (s.askEvent).phase = s.phase := rfl
@[simp] theorem State.askEvent_freeCtr : (s.askEvent).freeCtr = s.freeCtr := rfl

/-! ## `setDist` -/

@[simp] theorem State.setDist_pending (d : Nat) (x : District) : (s.setDist d x).pending = s.pending := rfl
@[simp] theorem State.setDist_regs (d : Nat) (x : District) : (s.setDist d x).regs = s.regs := rfl
@[simp] theorem State.setDist_parBad (d : Nat) (x : District) : (s.setDist d x).parBad = s.parBad := rfl
@[simp] theorem State.setDist_locked (d : Nat) (x : District) : (s.setDist d x).locked = s.locked := rfl
@[simp] theorem State.setDist_live (d : Nat) (x : District) : (s.setDist d x).live = s.live := rfl
@[simp] theorem State.setDist_hold (d : Nat) (x : District) : (s.setDist d x).hold = s.hold := rfl
@[simp] theorem State.setDist_ten (d : Nat) (x : District) : (s.setDist d x).ten = s.ten := rfl
@[simp] theorem State.setDist_tenBad (d : Nat) (x : District) : (s.setDist d x).tenBad = s.tenBad := rfl
@[simp] theorem State.setDist_map (d : Nat) (x : District) : (s.setDist d x).map = s.map := rfl
@[simp] theorem State.setDist_mapBad (d : Nat) (x : District) : (s.setDist d x).mapBad = s.mapBad := rfl
@[simp] theorem State.setDist_host (d : Nat) (x : District) : (s.setDist d x).host = s.host := rfl
@[simp] theorem State.setDist_hostWr (d : Nat) (x : District) : (s.setDist d x).hostWr = s.hostWr := rfl
@[simp] theorem State.setDist_scene (d : Nat) (x : District) : (s.setDist d x).scene = s.scene := rfl
@[simp] theorem State.setDist_codeErr (d : Nat) (x : District) : (s.setDist d x).codeErr = s.codeErr := rfl
@[simp] theorem State.setDist_poison (d : Nat) (x : District) : (s.setDist d x).poison = s.poison := rfl
@[simp] theorem State.setDist_ports (d : Nat) (x : District) : (s.setDist d x).ports = s.ports := rfl
@[simp] theorem State.setDist_capC (d : Nat) (x : District) : (s.setDist d x).capC = s.capC := rfl
@[simp] theorem State.setDist_stk (d : Nat) (x : District) : (s.setDist d x).stk = s.stk := rfl
@[simp] theorem State.setDist_fetched (d : Nat) (x : District) : (s.setDist d x).fetched = s.fetched := rfl
@[simp] theorem State.setDist_seqWait (d : Nat) (x : District) : (s.setDist d x).seqWait = s.seqWait := rfl
@[simp] theorem State.setDist_cancels (d : Nat) (x : District) : (s.setDist d x).cancels = s.cancels := rfl
@[simp] theorem State.setDist_queErrS (d : Nat) (x : District) : (s.setDist d x).queErrS = s.queErrS := rfl
@[simp] theorem State.setDist_batches (d : Nat) (x : District) : (s.setDist d x).batches = s.batches := rfl
@[simp] theorem State.setDist_tally (d : Nat) (x : District) : (s.setDist d x).tally = s.tally := rfl
@[simp] theorem State.setDist_tallyErr (d : Nat) (x : District) : (s.setDist d x).tallyErr = s.tallyErr := rfl
@[simp] theorem State.setDist_tallyPos (d : Nat) (x : District) : (s.setDist d x).tallyPos = s.tallyPos := rfl
@[simp] theorem State.setDist_tallyStop (d : Nat) (x : District) : (s.setDist d x).tallyStop = s.tallyStop := rfl
@[simp] theorem State.setDist_stamps (d : Nat) (x : District) : (s.setDist d x).stamps = s.stamps := rfl
@[simp] theorem State.setDist_xc (d : Nat) (x : District) : (s.setDist d x).xc = s.xc := rfl
@[simp] theorem State.setDist_faults (d : Nat) (x : District) : (s.setDist d x).faults = s.faults := rfl
@[simp] theorem State.setDist_reports (d : Nat) (x : District) : (s.setDist d x).reports = s.reports := rfl
@[simp] theorem State.setDist_contribs (d : Nat) (x : District) : (s.setDist d x).contribs = s.contribs := rfl
@[simp] theorem State.setDist_locks (d : Nat) (x : District) : (s.setDist d x).locks = s.locks := rfl
@[simp] theorem State.setDist_walkers (d : Nat) (x : District) : (s.setDist d x).walkers = s.walkers := rfl
@[simp] theorem State.setDist_clock (d : Nat) (x : District) : (s.setDist d x).clock = s.clock := rfl
@[simp] theorem State.setDist_links (d : Nat) (x : District) : (s.setDist d x).links = s.links := rfl
@[simp] theorem State.setDist_msgs (d : Nat) (x : District) : (s.setDist d x).msgs = s.msgs := rfl
@[simp] theorem State.setDist_gate (d : Nat) (x : District) : (s.setDist d x).gate = s.gate := rfl
@[simp] theorem State.setDist_house (d : Nat) (x : District) : (s.setDist d x).house = s.house := rfl
@[simp] theorem State.setDist_power (d : Nat) (x : District) : (s.setDist d x).power = s.power := rfl
@[simp] theorem State.setDist_pins (d : Nat) (x : District) : (s.setDist d x).pins = s.pins := rfl
@[simp] theorem State.setDist_twin (d : Nat) (x : District) : (s.setDist d x).twin = s.twin := rfl
@[simp] theorem State.setDist_phase (d : Nat) (x : District) : (s.setDist d x).phase = s.phase := rfl
@[simp] theorem State.setDist_freeCtr (d : Nat) (x : District) : (s.setDist d x).freeCtr = s.freeCtr := rfl

/-! ## `updDist` -/

@[simp] theorem State.updDist_pending (d : Nat) (f : District → District) : (s.updDist d f).pending = s.pending := rfl
@[simp] theorem State.updDist_regs (d : Nat) (f : District → District) : (s.updDist d f).regs = s.regs := rfl
@[simp] theorem State.updDist_parBad (d : Nat) (f : District → District) : (s.updDist d f).parBad = s.parBad := rfl
@[simp] theorem State.updDist_locked (d : Nat) (f : District → District) : (s.updDist d f).locked = s.locked := rfl
@[simp] theorem State.updDist_live (d : Nat) (f : District → District) : (s.updDist d f).live = s.live := rfl
@[simp] theorem State.updDist_hold (d : Nat) (f : District → District) : (s.updDist d f).hold = s.hold := rfl
@[simp] theorem State.updDist_ten (d : Nat) (f : District → District) : (s.updDist d f).ten = s.ten := rfl
@[simp] theorem State.updDist_tenBad (d : Nat) (f : District → District) : (s.updDist d f).tenBad = s.tenBad := rfl
@[simp] theorem State.updDist_map (d : Nat) (f : District → District) : (s.updDist d f).map = s.map := rfl
@[simp] theorem State.updDist_mapBad (d : Nat) (f : District → District) : (s.updDist d f).mapBad = s.mapBad := rfl
@[simp] theorem State.updDist_host (d : Nat) (f : District → District) : (s.updDist d f).host = s.host := rfl
@[simp] theorem State.updDist_hostWr (d : Nat) (f : District → District) : (s.updDist d f).hostWr = s.hostWr := rfl
@[simp] theorem State.updDist_scene (d : Nat) (f : District → District) : (s.updDist d f).scene = s.scene := rfl
@[simp] theorem State.updDist_codeErr (d : Nat) (f : District → District) : (s.updDist d f).codeErr = s.codeErr := rfl
@[simp] theorem State.updDist_poison (d : Nat) (f : District → District) : (s.updDist d f).poison = s.poison := rfl
@[simp] theorem State.updDist_ports (d : Nat) (f : District → District) : (s.updDist d f).ports = s.ports := rfl
@[simp] theorem State.updDist_capC (d : Nat) (f : District → District) : (s.updDist d f).capC = s.capC := rfl
@[simp] theorem State.updDist_stk (d : Nat) (f : District → District) : (s.updDist d f).stk = s.stk := rfl
@[simp] theorem State.updDist_fetched (d : Nat) (f : District → District) : (s.updDist d f).fetched = s.fetched := rfl
@[simp] theorem State.updDist_seqWait (d : Nat) (f : District → District) : (s.updDist d f).seqWait = s.seqWait := rfl
@[simp] theorem State.updDist_cancels (d : Nat) (f : District → District) : (s.updDist d f).cancels = s.cancels := rfl
@[simp] theorem State.updDist_queErrS (d : Nat) (f : District → District) : (s.updDist d f).queErrS = s.queErrS := rfl
@[simp] theorem State.updDist_batches (d : Nat) (f : District → District) : (s.updDist d f).batches = s.batches := rfl
@[simp] theorem State.updDist_tally (d : Nat) (f : District → District) : (s.updDist d f).tally = s.tally := rfl
@[simp] theorem State.updDist_tallyErr (d : Nat) (f : District → District) : (s.updDist d f).tallyErr = s.tallyErr := rfl
@[simp] theorem State.updDist_tallyPos (d : Nat) (f : District → District) : (s.updDist d f).tallyPos = s.tallyPos := rfl
@[simp] theorem State.updDist_tallyStop (d : Nat) (f : District → District) : (s.updDist d f).tallyStop = s.tallyStop := rfl
@[simp] theorem State.updDist_stamps (d : Nat) (f : District → District) : (s.updDist d f).stamps = s.stamps := rfl
@[simp] theorem State.updDist_xc (d : Nat) (f : District → District) : (s.updDist d f).xc = s.xc := rfl
@[simp] theorem State.updDist_faults (d : Nat) (f : District → District) : (s.updDist d f).faults = s.faults := rfl
@[simp] theorem State.updDist_reports (d : Nat) (f : District → District) : (s.updDist d f).reports = s.reports := rfl
@[simp] theorem State.updDist_contribs (d : Nat) (f : District → District) : (s.updDist d f).contribs = s.contribs := rfl
@[simp] theorem State.updDist_locks (d : Nat) (f : District → District) : (s.updDist d f).locks = s.locks := rfl
@[simp] theorem State.updDist_walkers (d : Nat) (f : District → District) : (s.updDist d f).walkers = s.walkers := rfl
@[simp] theorem State.updDist_clock (d : Nat) (f : District → District) : (s.updDist d f).clock = s.clock := rfl
@[simp] theorem State.updDist_links (d : Nat) (f : District → District) : (s.updDist d f).links = s.links := rfl
@[simp] theorem State.updDist_msgs (d : Nat) (f : District → District) : (s.updDist d f).msgs = s.msgs := rfl
@[simp] theorem State.updDist_gate (d : Nat) (f : District → District) : (s.updDist d f).gate = s.gate := rfl
@[simp] theorem State.updDist_house (d : Nat) (f : District → District) : (s.updDist d f).house = s.house := rfl
@[simp] theorem State.updDist_power (d : Nat) (f : District → District) : (s.updDist d f).power = s.power := rfl
@[simp] theorem State.updDist_pins (d : Nat) (f : District → District) : (s.updDist d f).pins = s.pins := rfl
@[simp] theorem State.updDist_twin (d : Nat) (f : District → District) : (s.updDist d f).twin = s.twin := rfl
@[simp] theorem State.updDist_phase (d : Nat) (f : District → District) : (s.updDist d f).phase = s.phase := rfl
@[simp] theorem State.updDist_freeCtr (d : Nat) (f : District → District) : (s.updDist d f).freeCtr = s.freeCtr := rfl

/-! ## `setPort` -/

@[simp] theorem State.setPort_pending (p : Nat) (x : StackPort) : (s.setPort p x).pending = s.pending := rfl
@[simp] theorem State.setPort_regs (p : Nat) (x : StackPort) : (s.setPort p x).regs = s.regs := rfl
@[simp] theorem State.setPort_parBad (p : Nat) (x : StackPort) : (s.setPort p x).parBad = s.parBad := rfl
@[simp] theorem State.setPort_locked (p : Nat) (x : StackPort) : (s.setPort p x).locked = s.locked := rfl
@[simp] theorem State.setPort_live (p : Nat) (x : StackPort) : (s.setPort p x).live = s.live := rfl
@[simp] theorem State.setPort_hold (p : Nat) (x : StackPort) : (s.setPort p x).hold = s.hold := rfl
@[simp] theorem State.setPort_ten (p : Nat) (x : StackPort) : (s.setPort p x).ten = s.ten := rfl
@[simp] theorem State.setPort_tenBad (p : Nat) (x : StackPort) : (s.setPort p x).tenBad = s.tenBad := rfl
@[simp] theorem State.setPort_map (p : Nat) (x : StackPort) : (s.setPort p x).map = s.map := rfl
@[simp] theorem State.setPort_mapBad (p : Nat) (x : StackPort) : (s.setPort p x).mapBad = s.mapBad := rfl
@[simp] theorem State.setPort_host (p : Nat) (x : StackPort) : (s.setPort p x).host = s.host := rfl
@[simp] theorem State.setPort_hostWr (p : Nat) (x : StackPort) : (s.setPort p x).hostWr = s.hostWr := rfl
@[simp] theorem State.setPort_scene (p : Nat) (x : StackPort) : (s.setPort p x).scene = s.scene := rfl
@[simp] theorem State.setPort_codeErr (p : Nat) (x : StackPort) : (s.setPort p x).codeErr = s.codeErr := rfl
@[simp] theorem State.setPort_poison (p : Nat) (x : StackPort) : (s.setPort p x).poison = s.poison := rfl
@[simp] theorem State.setPort_ports (p : Nat) (x : StackPort) : (s.setPort p x).ports = s.ports := rfl
@[simp] theorem State.setPort_capC (p : Nat) (x : StackPort) : (s.setPort p x).capC = s.capC := rfl
@[simp] theorem State.setPort_fetched (p : Nat) (x : StackPort) : (s.setPort p x).fetched = s.fetched := rfl
@[simp] theorem State.setPort_seqWait (p : Nat) (x : StackPort) : (s.setPort p x).seqWait = s.seqWait := rfl
@[simp] theorem State.setPort_cancels (p : Nat) (x : StackPort) : (s.setPort p x).cancels = s.cancels := rfl
@[simp] theorem State.setPort_queErrS (p : Nat) (x : StackPort) : (s.setPort p x).queErrS = s.queErrS := rfl
@[simp] theorem State.setPort_batches (p : Nat) (x : StackPort) : (s.setPort p x).batches = s.batches := rfl
@[simp] theorem State.setPort_tally (p : Nat) (x : StackPort) : (s.setPort p x).tally = s.tally := rfl
@[simp] theorem State.setPort_tallyErr (p : Nat) (x : StackPort) : (s.setPort p x).tallyErr = s.tallyErr := rfl
@[simp] theorem State.setPort_tallyPos (p : Nat) (x : StackPort) : (s.setPort p x).tallyPos = s.tallyPos := rfl
@[simp] theorem State.setPort_tallyStop (p : Nat) (x : StackPort) : (s.setPort p x).tallyStop = s.tallyStop := rfl
@[simp] theorem State.setPort_stamps (p : Nat) (x : StackPort) : (s.setPort p x).stamps = s.stamps := rfl
@[simp] theorem State.setPort_xc (p : Nat) (x : StackPort) : (s.setPort p x).xc = s.xc := rfl
@[simp] theorem State.setPort_faults (p : Nat) (x : StackPort) : (s.setPort p x).faults = s.faults := rfl
@[simp] theorem State.setPort_reports (p : Nat) (x : StackPort) : (s.setPort p x).reports = s.reports := rfl
@[simp] theorem State.setPort_contribs (p : Nat) (x : StackPort) : (s.setPort p x).contribs = s.contribs := rfl
@[simp] theorem State.setPort_locks (p : Nat) (x : StackPort) : (s.setPort p x).locks = s.locks := rfl
@[simp] theorem State.setPort_walkers (p : Nat) (x : StackPort) : (s.setPort p x).walkers = s.walkers := rfl
@[simp] theorem State.setPort_clock (p : Nat) (x : StackPort) : (s.setPort p x).clock = s.clock := rfl
@[simp] theorem State.setPort_dists (p : Nat) (x : StackPort) : (s.setPort p x).dists = s.dists := rfl
@[simp] theorem State.setPort_links (p : Nat) (x : StackPort) : (s.setPort p x).links = s.links := rfl
@[simp] theorem State.setPort_msgs (p : Nat) (x : StackPort) : (s.setPort p x).msgs = s.msgs := rfl
@[simp] theorem State.setPort_gate (p : Nat) (x : StackPort) : (s.setPort p x).gate = s.gate := rfl
@[simp] theorem State.setPort_house (p : Nat) (x : StackPort) : (s.setPort p x).house = s.house := rfl
@[simp] theorem State.setPort_power (p : Nat) (x : StackPort) : (s.setPort p x).power = s.power := rfl
@[simp] theorem State.setPort_pins (p : Nat) (x : StackPort) : (s.setPort p x).pins = s.pins := rfl
@[simp] theorem State.setPort_twin (p : Nat) (x : StackPort) : (s.setPort p x).twin = s.twin := rfl
@[simp] theorem State.setPort_phase (p : Nat) (x : StackPort) : (s.setPort p x).phase = s.phase := rfl
@[simp] theorem State.setPort_freeCtr (p : Nat) (x : StackPort) : (s.setPort p x).freeCtr = s.freeCtr := rfl

/-! ## `updPort` -/

@[simp] theorem State.updPort_pending (p : Nat) (f : StackPort → StackPort) : (s.updPort p f).pending = s.pending := rfl
@[simp] theorem State.updPort_regs (p : Nat) (f : StackPort → StackPort) : (s.updPort p f).regs = s.regs := rfl
@[simp] theorem State.updPort_parBad (p : Nat) (f : StackPort → StackPort) : (s.updPort p f).parBad = s.parBad := rfl
@[simp] theorem State.updPort_locked (p : Nat) (f : StackPort → StackPort) : (s.updPort p f).locked = s.locked := rfl
@[simp] theorem State.updPort_live (p : Nat) (f : StackPort → StackPort) : (s.updPort p f).live = s.live := rfl
@[simp] theorem State.updPort_hold (p : Nat) (f : StackPort → StackPort) : (s.updPort p f).hold = s.hold := rfl
@[simp] theorem State.updPort_ten (p : Nat) (f : StackPort → StackPort) : (s.updPort p f).ten = s.ten := rfl
@[simp] theorem State.updPort_tenBad (p : Nat) (f : StackPort → StackPort) : (s.updPort p f).tenBad = s.tenBad := rfl
@[simp] theorem State.updPort_map (p : Nat) (f : StackPort → StackPort) : (s.updPort p f).map = s.map := rfl
@[simp] theorem State.updPort_mapBad (p : Nat) (f : StackPort → StackPort) : (s.updPort p f).mapBad = s.mapBad := rfl
@[simp] theorem State.updPort_host (p : Nat) (f : StackPort → StackPort) : (s.updPort p f).host = s.host := rfl
@[simp] theorem State.updPort_hostWr (p : Nat) (f : StackPort → StackPort) : (s.updPort p f).hostWr = s.hostWr := rfl
@[simp] theorem State.updPort_scene (p : Nat) (f : StackPort → StackPort) : (s.updPort p f).scene = s.scene := rfl
@[simp] theorem State.updPort_codeErr (p : Nat) (f : StackPort → StackPort) : (s.updPort p f).codeErr = s.codeErr := rfl
@[simp] theorem State.updPort_poison (p : Nat) (f : StackPort → StackPort) : (s.updPort p f).poison = s.poison := rfl
@[simp] theorem State.updPort_ports (p : Nat) (f : StackPort → StackPort) : (s.updPort p f).ports = s.ports := rfl
@[simp] theorem State.updPort_capC (p : Nat) (f : StackPort → StackPort) : (s.updPort p f).capC = s.capC := rfl
@[simp] theorem State.updPort_fetched (p : Nat) (f : StackPort → StackPort) : (s.updPort p f).fetched = s.fetched := rfl
@[simp] theorem State.updPort_seqWait (p : Nat) (f : StackPort → StackPort) : (s.updPort p f).seqWait = s.seqWait := rfl
@[simp] theorem State.updPort_cancels (p : Nat) (f : StackPort → StackPort) : (s.updPort p f).cancels = s.cancels := rfl
@[simp] theorem State.updPort_queErrS (p : Nat) (f : StackPort → StackPort) : (s.updPort p f).queErrS = s.queErrS := rfl
@[simp] theorem State.updPort_batches (p : Nat) (f : StackPort → StackPort) : (s.updPort p f).batches = s.batches := rfl
@[simp] theorem State.updPort_tally (p : Nat) (f : StackPort → StackPort) : (s.updPort p f).tally = s.tally := rfl
@[simp] theorem State.updPort_tallyErr (p : Nat) (f : StackPort → StackPort) : (s.updPort p f).tallyErr = s.tallyErr := rfl
@[simp] theorem State.updPort_tallyPos (p : Nat) (f : StackPort → StackPort) : (s.updPort p f).tallyPos = s.tallyPos := rfl
@[simp] theorem State.updPort_tallyStop (p : Nat) (f : StackPort → StackPort) : (s.updPort p f).tallyStop = s.tallyStop := rfl
@[simp] theorem State.updPort_stamps (p : Nat) (f : StackPort → StackPort) : (s.updPort p f).stamps = s.stamps := rfl
@[simp] theorem State.updPort_xc (p : Nat) (f : StackPort → StackPort) : (s.updPort p f).xc = s.xc := rfl
@[simp] theorem State.updPort_faults (p : Nat) (f : StackPort → StackPort) : (s.updPort p f).faults = s.faults := rfl
@[simp] theorem State.updPort_reports (p : Nat) (f : StackPort → StackPort) : (s.updPort p f).reports = s.reports := rfl
@[simp] theorem State.updPort_contribs (p : Nat) (f : StackPort → StackPort) : (s.updPort p f).contribs = s.contribs := rfl
@[simp] theorem State.updPort_locks (p : Nat) (f : StackPort → StackPort) : (s.updPort p f).locks = s.locks := rfl
@[simp] theorem State.updPort_walkers (p : Nat) (f : StackPort → StackPort) : (s.updPort p f).walkers = s.walkers := rfl
@[simp] theorem State.updPort_clock (p : Nat) (f : StackPort → StackPort) : (s.updPort p f).clock = s.clock := rfl
@[simp] theorem State.updPort_dists (p : Nat) (f : StackPort → StackPort) : (s.updPort p f).dists = s.dists := rfl
@[simp] theorem State.updPort_links (p : Nat) (f : StackPort → StackPort) : (s.updPort p f).links = s.links := rfl
@[simp] theorem State.updPort_msgs (p : Nat) (f : StackPort → StackPort) : (s.updPort p f).msgs = s.msgs := rfl
@[simp] theorem State.updPort_gate (p : Nat) (f : StackPort → StackPort) : (s.updPort p f).gate = s.gate := rfl
@[simp] theorem State.updPort_house (p : Nat) (f : StackPort → StackPort) : (s.updPort p f).house = s.house := rfl
@[simp] theorem State.updPort_power (p : Nat) (f : StackPort → StackPort) : (s.updPort p f).power = s.power := rfl
@[simp] theorem State.updPort_pins (p : Nat) (f : StackPort → StackPort) : (s.updPort p f).pins = s.pins := rfl
@[simp] theorem State.updPort_twin (p : Nat) (f : StackPort → StackPort) : (s.updPort p f).twin = s.twin := rfl
@[simp] theorem State.updPort_phase (p : Nat) (f : StackPort → StackPort) : (s.updPort p f).phase = s.phase := rfl
@[simp] theorem State.updPort_freeCtr (p : Nat) (f : StackPort → StackPort) : (s.updPort p f).freeCtr = s.freeCtr := rfl

/-! ## `updBatch` -/

@[simp] theorem State.updBatch_pending (b : Bid) (f : Batch → Batch) : (s.updBatch b f).pending = s.pending := rfl
@[simp] theorem State.updBatch_regs (b : Bid) (f : Batch → Batch) : (s.updBatch b f).regs = s.regs := rfl
@[simp] theorem State.updBatch_parBad (b : Bid) (f : Batch → Batch) : (s.updBatch b f).parBad = s.parBad := rfl
@[simp] theorem State.updBatch_locked (b : Bid) (f : Batch → Batch) : (s.updBatch b f).locked = s.locked := rfl
@[simp] theorem State.updBatch_live (b : Bid) (f : Batch → Batch) : (s.updBatch b f).live = s.live := rfl
@[simp] theorem State.updBatch_hold (b : Bid) (f : Batch → Batch) : (s.updBatch b f).hold = s.hold := rfl
@[simp] theorem State.updBatch_ten (b : Bid) (f : Batch → Batch) : (s.updBatch b f).ten = s.ten := rfl
@[simp] theorem State.updBatch_tenBad (b : Bid) (f : Batch → Batch) : (s.updBatch b f).tenBad = s.tenBad := rfl
@[simp] theorem State.updBatch_map (b : Bid) (f : Batch → Batch) : (s.updBatch b f).map = s.map := rfl
@[simp] theorem State.updBatch_mapBad (b : Bid) (f : Batch → Batch) : (s.updBatch b f).mapBad = s.mapBad := rfl
@[simp] theorem State.updBatch_host (b : Bid) (f : Batch → Batch) : (s.updBatch b f).host = s.host := rfl
@[simp] theorem State.updBatch_hostWr (b : Bid) (f : Batch → Batch) : (s.updBatch b f).hostWr = s.hostWr := rfl
@[simp] theorem State.updBatch_scene (b : Bid) (f : Batch → Batch) : (s.updBatch b f).scene = s.scene := rfl
@[simp] theorem State.updBatch_codeErr (b : Bid) (f : Batch → Batch) : (s.updBatch b f).codeErr = s.codeErr := rfl
@[simp] theorem State.updBatch_poison (b : Bid) (f : Batch → Batch) : (s.updBatch b f).poison = s.poison := rfl
@[simp] theorem State.updBatch_ports (b : Bid) (f : Batch → Batch) : (s.updBatch b f).ports = s.ports := rfl
@[simp] theorem State.updBatch_capC (b : Bid) (f : Batch → Batch) : (s.updBatch b f).capC = s.capC := rfl
@[simp] theorem State.updBatch_stk (b : Bid) (f : Batch → Batch) : (s.updBatch b f).stk = s.stk := rfl
@[simp] theorem State.updBatch_fetched (b : Bid) (f : Batch → Batch) : (s.updBatch b f).fetched = s.fetched := rfl
@[simp] theorem State.updBatch_seqWait (b : Bid) (f : Batch → Batch) : (s.updBatch b f).seqWait = s.seqWait := rfl
@[simp] theorem State.updBatch_cancels (b : Bid) (f : Batch → Batch) : (s.updBatch b f).cancels = s.cancels := rfl
@[simp] theorem State.updBatch_queErrS (b : Bid) (f : Batch → Batch) : (s.updBatch b f).queErrS = s.queErrS := rfl
@[simp] theorem State.updBatch_tally (b : Bid) (f : Batch → Batch) : (s.updBatch b f).tally = s.tally := rfl
@[simp] theorem State.updBatch_tallyErr (b : Bid) (f : Batch → Batch) : (s.updBatch b f).tallyErr = s.tallyErr := rfl
@[simp] theorem State.updBatch_tallyPos (b : Bid) (f : Batch → Batch) : (s.updBatch b f).tallyPos = s.tallyPos := rfl
@[simp] theorem State.updBatch_tallyStop (b : Bid) (f : Batch → Batch) : (s.updBatch b f).tallyStop = s.tallyStop := rfl
@[simp] theorem State.updBatch_stamps (b : Bid) (f : Batch → Batch) : (s.updBatch b f).stamps = s.stamps := rfl
@[simp] theorem State.updBatch_xc (b : Bid) (f : Batch → Batch) : (s.updBatch b f).xc = s.xc := rfl
@[simp] theorem State.updBatch_faults (b : Bid) (f : Batch → Batch) : (s.updBatch b f).faults = s.faults := rfl
@[simp] theorem State.updBatch_reports (b : Bid) (f : Batch → Batch) : (s.updBatch b f).reports = s.reports := rfl
@[simp] theorem State.updBatch_contribs (b : Bid) (f : Batch → Batch) : (s.updBatch b f).contribs = s.contribs := rfl
@[simp] theorem State.updBatch_locks (b : Bid) (f : Batch → Batch) : (s.updBatch b f).locks = s.locks := rfl
@[simp] theorem State.updBatch_walkers (b : Bid) (f : Batch → Batch) : (s.updBatch b f).walkers = s.walkers := rfl
@[simp] theorem State.updBatch_clock (b : Bid) (f : Batch → Batch) : (s.updBatch b f).clock = s.clock := rfl
@[simp] theorem State.updBatch_dists (b : Bid) (f : Batch → Batch) : (s.updBatch b f).dists = s.dists := rfl
@[simp] theorem State.updBatch_links (b : Bid) (f : Batch → Batch) : (s.updBatch b f).links = s.links := rfl
@[simp] theorem State.updBatch_msgs (b : Bid) (f : Batch → Batch) : (s.updBatch b f).msgs = s.msgs := rfl
@[simp] theorem State.updBatch_gate (b : Bid) (f : Batch → Batch) : (s.updBatch b f).gate = s.gate := rfl
@[simp] theorem State.updBatch_house (b : Bid) (f : Batch → Batch) : (s.updBatch b f).house = s.house := rfl
@[simp] theorem State.updBatch_power (b : Bid) (f : Batch → Batch) : (s.updBatch b f).power = s.power := rfl
@[simp] theorem State.updBatch_pins (b : Bid) (f : Batch → Batch) : (s.updBatch b f).pins = s.pins := rfl
@[simp] theorem State.updBatch_twin (b : Bid) (f : Batch → Batch) : (s.updBatch b f).twin = s.twin := rfl
@[simp] theorem State.updBatch_phase (b : Bid) (f : Batch → Batch) : (s.updBatch b f).phase = s.phase := rfl
@[simp] theorem State.updBatch_freeCtr (b : Bid) (f : Batch → Batch) : (s.updBatch b f).freeCtr = s.freeCtr := rfl

/-! ## `updWalker` -/

@[simp] theorem State.updWalker_pending (p : Walker → Bool) (f : Walker → Walker) : (s.updWalker p f).pending = s.pending := rfl
@[simp] theorem State.updWalker_regs (p : Walker → Bool) (f : Walker → Walker) : (s.updWalker p f).regs = s.regs := rfl
@[simp] theorem State.updWalker_parBad (p : Walker → Bool) (f : Walker → Walker) : (s.updWalker p f).parBad = s.parBad := rfl
@[simp] theorem State.updWalker_locked (p : Walker → Bool) (f : Walker → Walker) : (s.updWalker p f).locked = s.locked := rfl
@[simp] theorem State.updWalker_live (p : Walker → Bool) (f : Walker → Walker) : (s.updWalker p f).live = s.live := rfl
@[simp] theorem State.updWalker_hold (p : Walker → Bool) (f : Walker → Walker) : (s.updWalker p f).hold = s.hold := rfl
@[simp] theorem State.updWalker_ten (p : Walker → Bool) (f : Walker → Walker) : (s.updWalker p f).ten = s.ten := rfl
@[simp] theorem State.updWalker_tenBad (p : Walker → Bool) (f : Walker → Walker) : (s.updWalker p f).tenBad = s.tenBad := rfl
@[simp] theorem State.updWalker_map (p : Walker → Bool) (f : Walker → Walker) : (s.updWalker p f).map = s.map := rfl
@[simp] theorem State.updWalker_mapBad (p : Walker → Bool) (f : Walker → Walker) : (s.updWalker p f).mapBad = s.mapBad := rfl
@[simp] theorem State.updWalker_host (p : Walker → Bool) (f : Walker → Walker) : (s.updWalker p f).host = s.host := rfl
@[simp] theorem State.updWalker_hostWr (p : Walker → Bool) (f : Walker → Walker) : (s.updWalker p f).hostWr = s.hostWr := rfl
@[simp] theorem State.updWalker_scene (p : Walker → Bool) (f : Walker → Walker) : (s.updWalker p f).scene = s.scene := rfl
@[simp] theorem State.updWalker_codeErr (p : Walker → Bool) (f : Walker → Walker) : (s.updWalker p f).codeErr = s.codeErr := rfl
@[simp] theorem State.updWalker_poison (p : Walker → Bool) (f : Walker → Walker) : (s.updWalker p f).poison = s.poison := rfl
@[simp] theorem State.updWalker_ports (p : Walker → Bool) (f : Walker → Walker) : (s.updWalker p f).ports = s.ports := rfl
@[simp] theorem State.updWalker_capC (p : Walker → Bool) (f : Walker → Walker) : (s.updWalker p f).capC = s.capC := rfl
@[simp] theorem State.updWalker_stk (p : Walker → Bool) (f : Walker → Walker) : (s.updWalker p f).stk = s.stk := rfl
@[simp] theorem State.updWalker_fetched (p : Walker → Bool) (f : Walker → Walker) : (s.updWalker p f).fetched = s.fetched := rfl
@[simp] theorem State.updWalker_seqWait (p : Walker → Bool) (f : Walker → Walker) : (s.updWalker p f).seqWait = s.seqWait := rfl
@[simp] theorem State.updWalker_cancels (p : Walker → Bool) (f : Walker → Walker) : (s.updWalker p f).cancels = s.cancels := rfl
@[simp] theorem State.updWalker_queErrS (p : Walker → Bool) (f : Walker → Walker) : (s.updWalker p f).queErrS = s.queErrS := rfl
@[simp] theorem State.updWalker_batches (p : Walker → Bool) (f : Walker → Walker) : (s.updWalker p f).batches = s.batches := rfl
@[simp] theorem State.updWalker_tally (p : Walker → Bool) (f : Walker → Walker) : (s.updWalker p f).tally = s.tally := rfl
@[simp] theorem State.updWalker_tallyErr (p : Walker → Bool) (f : Walker → Walker) : (s.updWalker p f).tallyErr = s.tallyErr := rfl
@[simp] theorem State.updWalker_tallyPos (p : Walker → Bool) (f : Walker → Walker) : (s.updWalker p f).tallyPos = s.tallyPos := rfl
@[simp] theorem State.updWalker_tallyStop (p : Walker → Bool) (f : Walker → Walker) : (s.updWalker p f).tallyStop = s.tallyStop := rfl
@[simp] theorem State.updWalker_stamps (p : Walker → Bool) (f : Walker → Walker) : (s.updWalker p f).stamps = s.stamps := rfl
@[simp] theorem State.updWalker_xc (p : Walker → Bool) (f : Walker → Walker) : (s.updWalker p f).xc = s.xc := rfl
@[simp] theorem State.updWalker_faults (p : Walker → Bool) (f : Walker → Walker) : (s.updWalker p f).faults = s.faults := rfl
@[simp] theorem State.updWalker_reports (p : Walker → Bool) (f : Walker → Walker) : (s.updWalker p f).reports = s.reports := rfl
@[simp] theorem State.updWalker_contribs (p : Walker → Bool) (f : Walker → Walker) : (s.updWalker p f).contribs = s.contribs := rfl
@[simp] theorem State.updWalker_locks (p : Walker → Bool) (f : Walker → Walker) : (s.updWalker p f).locks = s.locks := rfl
@[simp] theorem State.updWalker_clock (p : Walker → Bool) (f : Walker → Walker) : (s.updWalker p f).clock = s.clock := rfl
@[simp] theorem State.updWalker_dists (p : Walker → Bool) (f : Walker → Walker) : (s.updWalker p f).dists = s.dists := rfl
@[simp] theorem State.updWalker_links (p : Walker → Bool) (f : Walker → Walker) : (s.updWalker p f).links = s.links := rfl
@[simp] theorem State.updWalker_msgs (p : Walker → Bool) (f : Walker → Walker) : (s.updWalker p f).msgs = s.msgs := rfl
@[simp] theorem State.updWalker_gate (p : Walker → Bool) (f : Walker → Walker) : (s.updWalker p f).gate = s.gate := rfl
@[simp] theorem State.updWalker_house (p : Walker → Bool) (f : Walker → Walker) : (s.updWalker p f).house = s.house := rfl
@[simp] theorem State.updWalker_power (p : Walker → Bool) (f : Walker → Walker) : (s.updWalker p f).power = s.power := rfl
@[simp] theorem State.updWalker_pins (p : Walker → Bool) (f : Walker → Walker) : (s.updWalker p f).pins = s.pins := rfl
@[simp] theorem State.updWalker_twin (p : Walker → Bool) (f : Walker → Walker) : (s.updWalker p f).twin = s.twin := rfl
@[simp] theorem State.updWalker_phase (p : Walker → Bool) (f : Walker → Walker) : (s.updWalker p f).phase = s.phase := rfl
@[simp] theorem State.updWalker_freeCtr (p : Walker → Bool) (f : Walker → Walker) : (s.updWalker p f).freeCtr = s.freeCtr := rfl

/-! ## `tick` -/

@[simp] theorem State.tick_pending : (s.tick).pending = s.pending := rfl
@[simp] theorem State.tick_regs : (s.tick).regs = s.regs := rfl
@[simp] theorem State.tick_parBad : (s.tick).parBad = s.parBad := rfl
@[simp] theorem State.tick_locked : (s.tick).locked = s.locked := rfl
@[simp] theorem State.tick_live : (s.tick).live = s.live := rfl
@[simp] theorem State.tick_hold : (s.tick).hold = s.hold := rfl
@[simp] theorem State.tick_ten : (s.tick).ten = s.ten := rfl
@[simp] theorem State.tick_tenBad : (s.tick).tenBad = s.tenBad := rfl
@[simp] theorem State.tick_map : (s.tick).map = s.map := rfl
@[simp] theorem State.tick_mapBad : (s.tick).mapBad = s.mapBad := rfl
@[simp] theorem State.tick_host : (s.tick).host = s.host := rfl
@[simp] theorem State.tick_hostWr : (s.tick).hostWr = s.hostWr := rfl
@[simp] theorem State.tick_scene : (s.tick).scene = s.scene := rfl
@[simp] theorem State.tick_codeErr : (s.tick).codeErr = s.codeErr := rfl
@[simp] theorem State.tick_poison : (s.tick).poison = s.poison := rfl
@[simp] theorem State.tick_ports : (s.tick).ports = s.ports := rfl
@[simp] theorem State.tick_capC : (s.tick).capC = s.capC := rfl
@[simp] theorem State.tick_stk : (s.tick).stk = s.stk := rfl
@[simp] theorem State.tick_fetched : (s.tick).fetched = s.fetched := rfl
@[simp] theorem State.tick_seqWait : (s.tick).seqWait = s.seqWait := rfl
@[simp] theorem State.tick_cancels : (s.tick).cancels = s.cancels := rfl
@[simp] theorem State.tick_queErrS : (s.tick).queErrS = s.queErrS := rfl
@[simp] theorem State.tick_batches : (s.tick).batches = s.batches := rfl
@[simp] theorem State.tick_tally : (s.tick).tally = s.tally := rfl
@[simp] theorem State.tick_tallyErr : (s.tick).tallyErr = s.tallyErr := rfl
@[simp] theorem State.tick_tallyPos : (s.tick).tallyPos = s.tallyPos := rfl
@[simp] theorem State.tick_tallyStop : (s.tick).tallyStop = s.tallyStop := rfl
@[simp] theorem State.tick_stamps : (s.tick).stamps = s.stamps := rfl
@[simp] theorem State.tick_xc : (s.tick).xc = s.xc := rfl
@[simp] theorem State.tick_faults : (s.tick).faults = s.faults := rfl
@[simp] theorem State.tick_reports : (s.tick).reports = s.reports := rfl
@[simp] theorem State.tick_contribs : (s.tick).contribs = s.contribs := rfl
@[simp] theorem State.tick_locks : (s.tick).locks = s.locks := rfl
@[simp] theorem State.tick_walkers : (s.tick).walkers = s.walkers := rfl
@[simp] theorem State.tick_dists : (s.tick).dists = s.dists := rfl
@[simp] theorem State.tick_links : (s.tick).links = s.links := rfl
@[simp] theorem State.tick_msgs : (s.tick).msgs = s.msgs := rfl
@[simp] theorem State.tick_gate : (s.tick).gate = s.gate := rfl
@[simp] theorem State.tick_house : (s.tick).house = s.house := rfl
@[simp] theorem State.tick_power : (s.tick).power = s.power := rfl
@[simp] theorem State.tick_pins : (s.tick).pins = s.pins := rfl
@[simp] theorem State.tick_twin : (s.tick).twin = s.twin := rfl
@[simp] theorem State.tick_phase : (s.tick).phase = s.phase := rfl
@[simp] theorem State.tick_freeCtr : (s.tick).freeCtr = s.freeCtr := rfl

/-! ## `wantWarm` -/

@[simp] theorem State.wantWarm_pending (c : Nat) : (s.wantWarm c).pending = s.pending := rfl
@[simp] theorem State.wantWarm_parBad (c : Nat) : (s.wantWarm c).parBad = s.parBad := rfl
@[simp] theorem State.wantWarm_locked (c : Nat) : (s.wantWarm c).locked = s.locked := rfl
@[simp] theorem State.wantWarm_live (c : Nat) : (s.wantWarm c).live = s.live := rfl
@[simp] theorem State.wantWarm_hold (c : Nat) : (s.wantWarm c).hold = s.hold := rfl
@[simp] theorem State.wantWarm_ten (c : Nat) : (s.wantWarm c).ten = s.ten := rfl
@[simp] theorem State.wantWarm_tenBad (c : Nat) : (s.wantWarm c).tenBad = s.tenBad := rfl
@[simp] theorem State.wantWarm_map (c : Nat) : (s.wantWarm c).map = s.map := rfl
@[simp] theorem State.wantWarm_mapBad (c : Nat) : (s.wantWarm c).mapBad = s.mapBad := rfl
@[simp] theorem State.wantWarm_host (c : Nat) : (s.wantWarm c).host = s.host := rfl
@[simp] theorem State.wantWarm_hostWr (c : Nat) : (s.wantWarm c).hostWr = s.hostWr := rfl
@[simp] theorem State.wantWarm_scene (c : Nat) : (s.wantWarm c).scene = s.scene := rfl
@[simp] theorem State.wantWarm_codeErr (c : Nat) : (s.wantWarm c).codeErr = s.codeErr := rfl
@[simp] theorem State.wantWarm_poison (c : Nat) : (s.wantWarm c).poison = s.poison := rfl
@[simp] theorem State.wantWarm_ports (c : Nat) : (s.wantWarm c).ports = s.ports := rfl
@[simp] theorem State.wantWarm_capC (c : Nat) : (s.wantWarm c).capC = s.capC := rfl
@[simp] theorem State.wantWarm_stk (c : Nat) : (s.wantWarm c).stk = s.stk := rfl
@[simp] theorem State.wantWarm_fetched (c : Nat) : (s.wantWarm c).fetched = s.fetched := rfl
@[simp] theorem State.wantWarm_seqWait (c : Nat) : (s.wantWarm c).seqWait = s.seqWait := rfl
@[simp] theorem State.wantWarm_cancels (c : Nat) : (s.wantWarm c).cancels = s.cancels := rfl
@[simp] theorem State.wantWarm_queErrS (c : Nat) : (s.wantWarm c).queErrS = s.queErrS := rfl
@[simp] theorem State.wantWarm_batches (c : Nat) : (s.wantWarm c).batches = s.batches := rfl
@[simp] theorem State.wantWarm_tally (c : Nat) : (s.wantWarm c).tally = s.tally := rfl
@[simp] theorem State.wantWarm_tallyErr (c : Nat) : (s.wantWarm c).tallyErr = s.tallyErr := rfl
@[simp] theorem State.wantWarm_tallyPos (c : Nat) : (s.wantWarm c).tallyPos = s.tallyPos := rfl
@[simp] theorem State.wantWarm_tallyStop (c : Nat) : (s.wantWarm c).tallyStop = s.tallyStop := rfl
@[simp] theorem State.wantWarm_stamps (c : Nat) : (s.wantWarm c).stamps = s.stamps := rfl
@[simp] theorem State.wantWarm_xc (c : Nat) : (s.wantWarm c).xc = s.xc := rfl
@[simp] theorem State.wantWarm_faults (c : Nat) : (s.wantWarm c).faults = s.faults := rfl
@[simp] theorem State.wantWarm_reports (c : Nat) : (s.wantWarm c).reports = s.reports := rfl
@[simp] theorem State.wantWarm_contribs (c : Nat) : (s.wantWarm c).contribs = s.contribs := rfl
@[simp] theorem State.wantWarm_locks (c : Nat) : (s.wantWarm c).locks = s.locks := rfl
@[simp] theorem State.wantWarm_walkers (c : Nat) : (s.wantWarm c).walkers = s.walkers := rfl
@[simp] theorem State.wantWarm_clock (c : Nat) : (s.wantWarm c).clock = s.clock := rfl
@[simp] theorem State.wantWarm_dists (c : Nat) : (s.wantWarm c).dists = s.dists := rfl
@[simp] theorem State.wantWarm_links (c : Nat) : (s.wantWarm c).links = s.links := rfl
@[simp] theorem State.wantWarm_msgs (c : Nat) : (s.wantWarm c).msgs = s.msgs := rfl
@[simp] theorem State.wantWarm_gate (c : Nat) : (s.wantWarm c).gate = s.gate := rfl
@[simp] theorem State.wantWarm_house (c : Nat) : (s.wantWarm c).house = s.house := rfl
@[simp] theorem State.wantWarm_power (c : Nat) : (s.wantWarm c).power = s.power := rfl
@[simp] theorem State.wantWarm_pins (c : Nat) : (s.wantWarm c).pins = s.pins := rfl
@[simp] theorem State.wantWarm_twin (c : Nat) : (s.wantWarm c).twin = s.twin := rfl
@[simp] theorem State.wantWarm_freeCtr (c : Nat) : (s.wantWarm c).freeCtr = s.freeCtr := rfl

/-! ## `setBit` -/

@[simp] theorem State.setBit_pending (f : Fld) (pg : Nat) : (s.setBit f pg).pending = s.pending := by unfold State.setBit; dsimp only; split <;> rfl
@[simp] theorem State.setBit_parBad (f : Fld) (pg : Nat) : (s.setBit f pg).parBad = s.parBad := by unfold State.setBit; dsimp only; split <;> rfl
@[simp] theorem State.setBit_locked (f : Fld) (pg : Nat) : (s.setBit f pg).locked = s.locked := by unfold State.setBit; dsimp only; split <;> rfl
@[simp] theorem State.setBit_live (f : Fld) (pg : Nat) : (s.setBit f pg).live = s.live := by unfold State.setBit; dsimp only; split <;> rfl
@[simp] theorem State.setBit_hold (f : Fld) (pg : Nat) : (s.setBit f pg).hold = s.hold := by unfold State.setBit; dsimp only; split <;> rfl
@[simp] theorem State.setBit_ten (f : Fld) (pg : Nat) : (s.setBit f pg).ten = s.ten := by unfold State.setBit; dsimp only; split <;> rfl
@[simp] theorem State.setBit_tenBad (f : Fld) (pg : Nat) : (s.setBit f pg).tenBad = s.tenBad := by unfold State.setBit; dsimp only; split <;> rfl
@[simp] theorem State.setBit_map (f : Fld) (pg : Nat) : (s.setBit f pg).map = s.map := by unfold State.setBit; dsimp only; split <;> rfl
@[simp] theorem State.setBit_mapBad (f : Fld) (pg : Nat) : (s.setBit f pg).mapBad = s.mapBad := by unfold State.setBit; dsimp only; split <;> rfl
@[simp] theorem State.setBit_host (f : Fld) (pg : Nat) : (s.setBit f pg).host = s.host := by unfold State.setBit; dsimp only; split <;> rfl
@[simp] theorem State.setBit_hostWr (f : Fld) (pg : Nat) : (s.setBit f pg).hostWr = s.hostWr := by unfold State.setBit; dsimp only; split <;> rfl
@[simp] theorem State.setBit_scene (f : Fld) (pg : Nat) : (s.setBit f pg).scene = s.scene := by unfold State.setBit; dsimp only; split <;> rfl
@[simp] theorem State.setBit_codeErr (f : Fld) (pg : Nat) : (s.setBit f pg).codeErr = s.codeErr := by unfold State.setBit; dsimp only; split <;> rfl
@[simp] theorem State.setBit_poison (f : Fld) (pg : Nat) : (s.setBit f pg).poison = s.poison := by unfold State.setBit; dsimp only; split <;> rfl
@[simp] theorem State.setBit_ports (f : Fld) (pg : Nat) : (s.setBit f pg).ports = s.ports := by unfold State.setBit; dsimp only; split <;> rfl
@[simp] theorem State.setBit_capC (f : Fld) (pg : Nat) : (s.setBit f pg).capC = s.capC := by unfold State.setBit; dsimp only; split <;> rfl
@[simp] theorem State.setBit_stk (f : Fld) (pg : Nat) : (s.setBit f pg).stk = s.stk := by unfold State.setBit; dsimp only; split <;> rfl
@[simp] theorem State.setBit_fetched (f : Fld) (pg : Nat) : (s.setBit f pg).fetched = s.fetched := by unfold State.setBit; dsimp only; split <;> rfl
@[simp] theorem State.setBit_seqWait (f : Fld) (pg : Nat) : (s.setBit f pg).seqWait = s.seqWait := by unfold State.setBit; dsimp only; split <;> rfl
@[simp] theorem State.setBit_cancels (f : Fld) (pg : Nat) : (s.setBit f pg).cancels = s.cancels := by unfold State.setBit; dsimp only; split <;> rfl
@[simp] theorem State.setBit_queErrS (f : Fld) (pg : Nat) : (s.setBit f pg).queErrS = s.queErrS := by unfold State.setBit; dsimp only; split <;> rfl
@[simp] theorem State.setBit_batches (f : Fld) (pg : Nat) : (s.setBit f pg).batches = s.batches := by unfold State.setBit; dsimp only; split <;> rfl
@[simp] theorem State.setBit_tally (f : Fld) (pg : Nat) : (s.setBit f pg).tally = s.tally := by unfold State.setBit; dsimp only; split <;> rfl
@[simp] theorem State.setBit_tallyErr (f : Fld) (pg : Nat) : (s.setBit f pg).tallyErr = s.tallyErr := by unfold State.setBit; dsimp only; split <;> rfl
@[simp] theorem State.setBit_tallyPos (f : Fld) (pg : Nat) : (s.setBit f pg).tallyPos = s.tallyPos := by unfold State.setBit; dsimp only; split <;> rfl
@[simp] theorem State.setBit_tallyStop (f : Fld) (pg : Nat) : (s.setBit f pg).tallyStop = s.tallyStop := by unfold State.setBit; dsimp only; split <;> rfl
@[simp] theorem State.setBit_stamps (f : Fld) (pg : Nat) : (s.setBit f pg).stamps = s.stamps := by unfold State.setBit; dsimp only; split <;> rfl
@[simp] theorem State.setBit_xc (f : Fld) (pg : Nat) : (s.setBit f pg).xc = s.xc := by unfold State.setBit; dsimp only; split <;> rfl
@[simp] theorem State.setBit_faults (f : Fld) (pg : Nat) : (s.setBit f pg).faults = s.faults := by unfold State.setBit; dsimp only; split <;> rfl
@[simp] theorem State.setBit_reports (f : Fld) (pg : Nat) : (s.setBit f pg).reports = s.reports := by unfold State.setBit; dsimp only; split <;> rfl
@[simp] theorem State.setBit_contribs (f : Fld) (pg : Nat) : (s.setBit f pg).contribs = s.contribs := by unfold State.setBit; dsimp only; split <;> rfl
@[simp] theorem State.setBit_locks (f : Fld) (pg : Nat) : (s.setBit f pg).locks = s.locks := by unfold State.setBit; dsimp only; split <;> rfl
@[simp] theorem State.setBit_walkers (f : Fld) (pg : Nat) : (s.setBit f pg).walkers = s.walkers := by unfold State.setBit; dsimp only; split <;> rfl
@[simp] theorem State.setBit_clock (f : Fld) (pg : Nat) : (s.setBit f pg).clock = s.clock := by unfold State.setBit; dsimp only; split <;> rfl
@[simp] theorem State.setBit_dists (f : Fld) (pg : Nat) : (s.setBit f pg).dists = s.dists := by unfold State.setBit; dsimp only; split <;> rfl
@[simp] theorem State.setBit_links (f : Fld) (pg : Nat) : (s.setBit f pg).links = s.links := by unfold State.setBit; dsimp only; split <;> rfl
@[simp] theorem State.setBit_msgs (f : Fld) (pg : Nat) : (s.setBit f pg).msgs = s.msgs := by unfold State.setBit; dsimp only; split <;> rfl
@[simp] theorem State.setBit_house (f : Fld) (pg : Nat) : (s.setBit f pg).house = s.house := by unfold State.setBit; dsimp only; split <;> rfl
@[simp] theorem State.setBit_power (f : Fld) (pg : Nat) : (s.setBit f pg).power = s.power := by unfold State.setBit; dsimp only; split <;> rfl
@[simp] theorem State.setBit_pins (f : Fld) (pg : Nat) : (s.setBit f pg).pins = s.pins := by unfold State.setBit; dsimp only; split <;> rfl
@[simp] theorem State.setBit_twin (f : Fld) (pg : Nat) : (s.setBit f pg).twin = s.twin := by unfold State.setBit; dsimp only; split <;> rfl
@[simp] theorem State.setBit_phase (f : Fld) (pg : Nat) : (s.setBit f pg).phase = s.phase := by unfold State.setBit; dsimp only; split <;> rfl
@[simp] theorem State.setBit_freeCtr (f : Fld) (pg : Nat) : (s.setBit f pg).freeCtr = s.freeCtr := by unfold State.setBit; dsimp only; split <;> rfl

/-! ## `status` -/

@[simp] theorem State.status_pending (pg n : Nat) : (s.status pg n).pending = s.pending := State.setBit_pending ..
@[simp] theorem State.status_parBad (pg n : Nat) : (s.status pg n).parBad = s.parBad := State.setBit_parBad ..
@[simp] theorem State.status_locked (pg n : Nat) : (s.status pg n).locked = s.locked := State.setBit_locked ..
@[simp] theorem State.status_live (pg n : Nat) : (s.status pg n).live = s.live := State.setBit_live ..
@[simp] theorem State.status_hold (pg n : Nat) : (s.status pg n).hold = s.hold := State.setBit_hold ..
@[simp] theorem State.status_ten (pg n : Nat) : (s.status pg n).ten = s.ten := State.setBit_ten ..
@[simp] theorem State.status_tenBad (pg n : Nat) : (s.status pg n).tenBad = s.tenBad := State.setBit_tenBad ..
@[simp] theorem State.status_map (pg n : Nat) : (s.status pg n).map = s.map := State.setBit_map ..
@[simp] theorem State.status_mapBad (pg n : Nat) : (s.status pg n).mapBad = s.mapBad := State.setBit_mapBad ..
@[simp] theorem State.status_host (pg n : Nat) : (s.status pg n).host = s.host := State.setBit_host ..
@[simp] theorem State.status_hostWr (pg n : Nat) : (s.status pg n).hostWr = s.hostWr := State.setBit_hostWr ..
@[simp] theorem State.status_scene (pg n : Nat) : (s.status pg n).scene = s.scene := State.setBit_scene ..
@[simp] theorem State.status_codeErr (pg n : Nat) : (s.status pg n).codeErr = s.codeErr := State.setBit_codeErr ..
@[simp] theorem State.status_poison (pg n : Nat) : (s.status pg n).poison = s.poison := State.setBit_poison ..
@[simp] theorem State.status_ports (pg n : Nat) : (s.status pg n).ports = s.ports := State.setBit_ports ..
@[simp] theorem State.status_capC (pg n : Nat) : (s.status pg n).capC = s.capC := State.setBit_capC ..
@[simp] theorem State.status_stk (pg n : Nat) : (s.status pg n).stk = s.stk := State.setBit_stk ..
@[simp] theorem State.status_fetched (pg n : Nat) : (s.status pg n).fetched = s.fetched := State.setBit_fetched ..
@[simp] theorem State.status_seqWait (pg n : Nat) : (s.status pg n).seqWait = s.seqWait := State.setBit_seqWait ..
@[simp] theorem State.status_cancels (pg n : Nat) : (s.status pg n).cancels = s.cancels := State.setBit_cancels ..
@[simp] theorem State.status_queErrS (pg n : Nat) : (s.status pg n).queErrS = s.queErrS := State.setBit_queErrS ..
@[simp] theorem State.status_batches (pg n : Nat) : (s.status pg n).batches = s.batches := State.setBit_batches ..
@[simp] theorem State.status_tally (pg n : Nat) : (s.status pg n).tally = s.tally := State.setBit_tally ..
@[simp] theorem State.status_tallyErr (pg n : Nat) : (s.status pg n).tallyErr = s.tallyErr := State.setBit_tallyErr ..
@[simp] theorem State.status_tallyPos (pg n : Nat) : (s.status pg n).tallyPos = s.tallyPos := State.setBit_tallyPos ..
@[simp] theorem State.status_tallyStop (pg n : Nat) : (s.status pg n).tallyStop = s.tallyStop := State.setBit_tallyStop ..
@[simp] theorem State.status_stamps (pg n : Nat) : (s.status pg n).stamps = s.stamps := State.setBit_stamps ..
@[simp] theorem State.status_xc (pg n : Nat) : (s.status pg n).xc = s.xc := State.setBit_xc ..
@[simp] theorem State.status_faults (pg n : Nat) : (s.status pg n).faults = s.faults := State.setBit_faults ..
@[simp] theorem State.status_reports (pg n : Nat) : (s.status pg n).reports = s.reports := State.setBit_reports ..
@[simp] theorem State.status_contribs (pg n : Nat) : (s.status pg n).contribs = s.contribs := State.setBit_contribs ..
@[simp] theorem State.status_locks (pg n : Nat) : (s.status pg n).locks = s.locks := State.setBit_locks ..
@[simp] theorem State.status_walkers (pg n : Nat) : (s.status pg n).walkers = s.walkers := State.setBit_walkers ..
@[simp] theorem State.status_clock (pg n : Nat) : (s.status pg n).clock = s.clock := State.setBit_clock ..
@[simp] theorem State.status_dists (pg n : Nat) : (s.status pg n).dists = s.dists := State.setBit_dists ..
@[simp] theorem State.status_links (pg n : Nat) : (s.status pg n).links = s.links := State.setBit_links ..
@[simp] theorem State.status_msgs (pg n : Nat) : (s.status pg n).msgs = s.msgs := State.setBit_msgs ..
@[simp] theorem State.status_house (pg n : Nat) : (s.status pg n).house = s.house := State.setBit_house ..
@[simp] theorem State.status_power (pg n : Nat) : (s.status pg n).power = s.power := State.setBit_power ..
@[simp] theorem State.status_pins (pg n : Nat) : (s.status pg n).pins = s.pins := State.setBit_pins ..
@[simp] theorem State.status_twin (pg n : Nat) : (s.status pg n).twin = s.twin := State.setBit_twin ..
@[simp] theorem State.status_phase (pg n : Nat) : (s.status pg n).phase = s.phase := State.setBit_phase ..
@[simp] theorem State.status_freeCtr (pg n : Nat) : (s.status pg n).freeCtr = s.freeCtr := State.setBit_freeCtr ..

/-! ## `errBit` -/

@[simp] theorem State.errBit_pending (n u : Nat) : (s.errBit n u).pending = s.pending := by unfold State.errBit; dsimp only; split <;> simp
@[simp] theorem State.errBit_parBad (n u : Nat) : (s.errBit n u).parBad = s.parBad := by unfold State.errBit; dsimp only; split <;> simp
@[simp] theorem State.errBit_locked (n u : Nat) : (s.errBit n u).locked = s.locked := by unfold State.errBit; dsimp only; split <;> simp
@[simp] theorem State.errBit_live (n u : Nat) : (s.errBit n u).live = s.live := by unfold State.errBit; dsimp only; split <;> simp
@[simp] theorem State.errBit_hold (n u : Nat) : (s.errBit n u).hold = s.hold := by unfold State.errBit; dsimp only; split <;> simp
@[simp] theorem State.errBit_ten (n u : Nat) : (s.errBit n u).ten = s.ten := by unfold State.errBit; dsimp only; split <;> simp
@[simp] theorem State.errBit_tenBad (n u : Nat) : (s.errBit n u).tenBad = s.tenBad := by unfold State.errBit; dsimp only; split <;> simp
@[simp] theorem State.errBit_map (n u : Nat) : (s.errBit n u).map = s.map := by unfold State.errBit; dsimp only; split <;> simp
@[simp] theorem State.errBit_mapBad (n u : Nat) : (s.errBit n u).mapBad = s.mapBad := by unfold State.errBit; dsimp only; split <;> simp
@[simp] theorem State.errBit_host (n u : Nat) : (s.errBit n u).host = s.host := by unfold State.errBit; dsimp only; split <;> simp
@[simp] theorem State.errBit_hostWr (n u : Nat) : (s.errBit n u).hostWr = s.hostWr := by unfold State.errBit; dsimp only; split <;> simp
@[simp] theorem State.errBit_scene (n u : Nat) : (s.errBit n u).scene = s.scene := by unfold State.errBit; dsimp only; split <;> simp
@[simp] theorem State.errBit_codeErr (n u : Nat) : (s.errBit n u).codeErr = s.codeErr := by unfold State.errBit; dsimp only; split <;> simp
@[simp] theorem State.errBit_poison (n u : Nat) : (s.errBit n u).poison = s.poison := by unfold State.errBit; dsimp only; split <;> simp
@[simp] theorem State.errBit_ports (n u : Nat) : (s.errBit n u).ports = s.ports := by unfold State.errBit; dsimp only; split <;> simp
@[simp] theorem State.errBit_capC (n u : Nat) : (s.errBit n u).capC = s.capC := by unfold State.errBit; dsimp only; split <;> simp
@[simp] theorem State.errBit_stk (n u : Nat) : (s.errBit n u).stk = s.stk := by unfold State.errBit; dsimp only; split <;> simp
@[simp] theorem State.errBit_fetched (n u : Nat) : (s.errBit n u).fetched = s.fetched := by unfold State.errBit; dsimp only; split <;> simp
@[simp] theorem State.errBit_seqWait (n u : Nat) : (s.errBit n u).seqWait = s.seqWait := by unfold State.errBit; dsimp only; split <;> simp
@[simp] theorem State.errBit_cancels (n u : Nat) : (s.errBit n u).cancels = s.cancels := by unfold State.errBit; dsimp only; split <;> simp
@[simp] theorem State.errBit_queErrS (n u : Nat) : (s.errBit n u).queErrS = s.queErrS := by unfold State.errBit; dsimp only; split <;> simp
@[simp] theorem State.errBit_batches (n u : Nat) : (s.errBit n u).batches = s.batches := by unfold State.errBit; dsimp only; split <;> simp
@[simp] theorem State.errBit_tally (n u : Nat) : (s.errBit n u).tally = s.tally := by unfold State.errBit; dsimp only; split <;> simp
@[simp] theorem State.errBit_tallyErr (n u : Nat) : (s.errBit n u).tallyErr = s.tallyErr := by unfold State.errBit; dsimp only; split <;> simp
@[simp] theorem State.errBit_tallyPos (n u : Nat) : (s.errBit n u).tallyPos = s.tallyPos := by unfold State.errBit; dsimp only; split <;> simp
@[simp] theorem State.errBit_tallyStop (n u : Nat) : (s.errBit n u).tallyStop = s.tallyStop := by unfold State.errBit; dsimp only; split <;> simp
@[simp] theorem State.errBit_stamps (n u : Nat) : (s.errBit n u).stamps = s.stamps := by unfold State.errBit; dsimp only; split <;> simp
@[simp] theorem State.errBit_xc (n u : Nat) : (s.errBit n u).xc = s.xc := by unfold State.errBit; dsimp only; split <;> simp
@[simp] theorem State.errBit_faults (n u : Nat) : (s.errBit n u).faults = s.faults := by unfold State.errBit; dsimp only; split <;> simp
@[simp] theorem State.errBit_reports (n u : Nat) : (s.errBit n u).reports = s.reports := by unfold State.errBit; dsimp only; split <;> simp
@[simp] theorem State.errBit_contribs (n u : Nat) : (s.errBit n u).contribs = s.contribs := by unfold State.errBit; dsimp only; split <;> simp
@[simp] theorem State.errBit_locks (n u : Nat) : (s.errBit n u).locks = s.locks := by unfold State.errBit; dsimp only; split <;> simp
@[simp] theorem State.errBit_walkers (n u : Nat) : (s.errBit n u).walkers = s.walkers := by unfold State.errBit; dsimp only; split <;> simp
@[simp] theorem State.errBit_clock (n u : Nat) : (s.errBit n u).clock = s.clock := by unfold State.errBit; dsimp only; split <;> simp
@[simp] theorem State.errBit_dists (n u : Nat) : (s.errBit n u).dists = s.dists := by unfold State.errBit; dsimp only; split <;> simp
@[simp] theorem State.errBit_links (n u : Nat) : (s.errBit n u).links = s.links := by unfold State.errBit; dsimp only; split <;> simp
@[simp] theorem State.errBit_msgs (n u : Nat) : (s.errBit n u).msgs = s.msgs := by unfold State.errBit; dsimp only; split <;> simp
@[simp] theorem State.errBit_house (n u : Nat) : (s.errBit n u).house = s.house := by unfold State.errBit; dsimp only; split <;> simp
@[simp] theorem State.errBit_power (n u : Nat) : (s.errBit n u).power = s.power := by unfold State.errBit; dsimp only; split <;> simp
@[simp] theorem State.errBit_pins (n u : Nat) : (s.errBit n u).pins = s.pins := by unfold State.errBit; dsimp only; split <;> simp
@[simp] theorem State.errBit_twin (n u : Nat) : (s.errBit n u).twin = s.twin := by unfold State.errBit; dsimp only; split <;> simp
@[simp] theorem State.errBit_phase (n u : Nat) : (s.errBit n u).phase = s.phase := by unfold State.errBit; dsimp only; split <;> simp
@[simp] theorem State.errBit_freeCtr (n u : Nat) : (s.errBit n u).freeCtr = s.freeCtr := by unfold State.errBit; dsimp only; split <;> simp

/-! ## `report` -/

@[simp] theorem State.report_pending (p : Option (Nat × Nat)) (e : Option Nat) (u : Nat) (c : Option Nat) : (s.report p e u c).pending = s.pending := by unfold State.report; rcases p with - | ⟨pg, n⟩ <;> rcases e with - | m <;> rcases c with - | i <;> simp
@[simp] theorem State.report_parBad (p : Option (Nat × Nat)) (e : Option Nat) (u : Nat) (c : Option Nat) : (s.report p e u c).parBad = s.parBad := by unfold State.report; rcases p with - | ⟨pg, n⟩ <;> rcases e with - | m <;> rcases c with - | i <;> simp
@[simp] theorem State.report_locked (p : Option (Nat × Nat)) (e : Option Nat) (u : Nat) (c : Option Nat) : (s.report p e u c).locked = s.locked := by unfold State.report; rcases p with - | ⟨pg, n⟩ <;> rcases e with - | m <;> rcases c with - | i <;> simp
@[simp] theorem State.report_hold (p : Option (Nat × Nat)) (e : Option Nat) (u : Nat) (c : Option Nat) : (s.report p e u c).hold = s.hold := by unfold State.report; rcases p with - | ⟨pg, n⟩ <;> rcases e with - | m <;> rcases c with - | i <;> simp
@[simp] theorem State.report_ten (p : Option (Nat × Nat)) (e : Option Nat) (u : Nat) (c : Option Nat) : (s.report p e u c).ten = s.ten := by unfold State.report; rcases p with - | ⟨pg, n⟩ <;> rcases e with - | m <;> rcases c with - | i <;> simp
@[simp] theorem State.report_tenBad (p : Option (Nat × Nat)) (e : Option Nat) (u : Nat) (c : Option Nat) : (s.report p e u c).tenBad = s.tenBad := by unfold State.report; rcases p with - | ⟨pg, n⟩ <;> rcases e with - | m <;> rcases c with - | i <;> simp
@[simp] theorem State.report_map (p : Option (Nat × Nat)) (e : Option Nat) (u : Nat) (c : Option Nat) : (s.report p e u c).map = s.map := by unfold State.report; rcases p with - | ⟨pg, n⟩ <;> rcases e with - | m <;> rcases c with - | i <;> simp
@[simp] theorem State.report_mapBad (p : Option (Nat × Nat)) (e : Option Nat) (u : Nat) (c : Option Nat) : (s.report p e u c).mapBad = s.mapBad := by unfold State.report; rcases p with - | ⟨pg, n⟩ <;> rcases e with - | m <;> rcases c with - | i <;> simp
@[simp] theorem State.report_host (p : Option (Nat × Nat)) (e : Option Nat) (u : Nat) (c : Option Nat) : (s.report p e u c).host = s.host := by unfold State.report; rcases p with - | ⟨pg, n⟩ <;> rcases e with - | m <;> rcases c with - | i <;> simp
@[simp] theorem State.report_hostWr (p : Option (Nat × Nat)) (e : Option Nat) (u : Nat) (c : Option Nat) : (s.report p e u c).hostWr = s.hostWr := by unfold State.report; rcases p with - | ⟨pg, n⟩ <;> rcases e with - | m <;> rcases c with - | i <;> simp
@[simp] theorem State.report_scene (p : Option (Nat × Nat)) (e : Option Nat) (u : Nat) (c : Option Nat) : (s.report p e u c).scene = s.scene := by unfold State.report; rcases p with - | ⟨pg, n⟩ <;> rcases e with - | m <;> rcases c with - | i <;> simp
@[simp] theorem State.report_codeErr (p : Option (Nat × Nat)) (e : Option Nat) (u : Nat) (c : Option Nat) : (s.report p e u c).codeErr = s.codeErr := by unfold State.report; rcases p with - | ⟨pg, n⟩ <;> rcases e with - | m <;> rcases c with - | i <;> simp
@[simp] theorem State.report_poison (p : Option (Nat × Nat)) (e : Option Nat) (u : Nat) (c : Option Nat) : (s.report p e u c).poison = s.poison := by unfold State.report; rcases p with - | ⟨pg, n⟩ <;> rcases e with - | m <;> rcases c with - | i <;> simp
@[simp] theorem State.report_ports (p : Option (Nat × Nat)) (e : Option Nat) (u : Nat) (c : Option Nat) : (s.report p e u c).ports = s.ports := by unfold State.report; rcases p with - | ⟨pg, n⟩ <;> rcases e with - | m <;> rcases c with - | i <;> simp
@[simp] theorem State.report_capC (p : Option (Nat × Nat)) (e : Option Nat) (u : Nat) (c : Option Nat) : (s.report p e u c).capC = s.capC := by unfold State.report; rcases p with - | ⟨pg, n⟩ <;> rcases e with - | m <;> rcases c with - | i <;> simp
@[simp] theorem State.report_stk (p : Option (Nat × Nat)) (e : Option Nat) (u : Nat) (c : Option Nat) : (s.report p e u c).stk = s.stk := by unfold State.report; rcases p with - | ⟨pg, n⟩ <;> rcases e with - | m <;> rcases c with - | i <;> simp
@[simp] theorem State.report_fetched (p : Option (Nat × Nat)) (e : Option Nat) (u : Nat) (c : Option Nat) : (s.report p e u c).fetched = s.fetched := by unfold State.report; rcases p with - | ⟨pg, n⟩ <;> rcases e with - | m <;> rcases c with - | i <;> simp
@[simp] theorem State.report_seqWait (p : Option (Nat × Nat)) (e : Option Nat) (u : Nat) (c : Option Nat) : (s.report p e u c).seqWait = s.seqWait := by unfold State.report; rcases p with - | ⟨pg, n⟩ <;> rcases e with - | m <;> rcases c with - | i <;> simp
@[simp] theorem State.report_cancels (p : Option (Nat × Nat)) (e : Option Nat) (u : Nat) (c : Option Nat) : (s.report p e u c).cancels = s.cancels := by unfold State.report; rcases p with - | ⟨pg, n⟩ <;> rcases e with - | m <;> rcases c with - | i <;> simp
@[simp] theorem State.report_queErrS (p : Option (Nat × Nat)) (e : Option Nat) (u : Nat) (c : Option Nat) : (s.report p e u c).queErrS = s.queErrS := by unfold State.report; rcases p with - | ⟨pg, n⟩ <;> rcases e with - | m <;> rcases c with - | i <;> simp
@[simp] theorem State.report_batches (p : Option (Nat × Nat)) (e : Option Nat) (u : Nat) (c : Option Nat) : (s.report p e u c).batches = s.batches := by unfold State.report; rcases p with - | ⟨pg, n⟩ <;> rcases e with - | m <;> rcases c with - | i <;> simp
@[simp] theorem State.report_tally (p : Option (Nat × Nat)) (e : Option Nat) (u : Nat) (c : Option Nat) : (s.report p e u c).tally = s.tally := by unfold State.report; rcases p with - | ⟨pg, n⟩ <;> rcases e with - | m <;> rcases c with - | i <;> simp
@[simp] theorem State.report_tallyErr (p : Option (Nat × Nat)) (e : Option Nat) (u : Nat) (c : Option Nat) : (s.report p e u c).tallyErr = s.tallyErr := by unfold State.report; rcases p with - | ⟨pg, n⟩ <;> rcases e with - | m <;> rcases c with - | i <;> simp
@[simp] theorem State.report_tallyPos (p : Option (Nat × Nat)) (e : Option Nat) (u : Nat) (c : Option Nat) : (s.report p e u c).tallyPos = s.tallyPos := by unfold State.report; rcases p with - | ⟨pg, n⟩ <;> rcases e with - | m <;> rcases c with - | i <;> simp
@[simp] theorem State.report_tallyStop (p : Option (Nat × Nat)) (e : Option Nat) (u : Nat) (c : Option Nat) : (s.report p e u c).tallyStop = s.tallyStop := by unfold State.report; rcases p with - | ⟨pg, n⟩ <;> rcases e with - | m <;> rcases c with - | i <;> simp
@[simp] theorem State.report_stamps (p : Option (Nat × Nat)) (e : Option Nat) (u : Nat) (c : Option Nat) : (s.report p e u c).stamps = s.stamps := by unfold State.report; rcases p with - | ⟨pg, n⟩ <;> rcases e with - | m <;> rcases c with - | i <;> simp
@[simp] theorem State.report_xc (p : Option (Nat × Nat)) (e : Option Nat) (u : Nat) (c : Option Nat) : (s.report p e u c).xc = s.xc := by unfold State.report; rcases p with - | ⟨pg, n⟩ <;> rcases e with - | m <;> rcases c with - | i <;> simp
@[simp] theorem State.report_faults (p : Option (Nat × Nat)) (e : Option Nat) (u : Nat) (c : Option Nat) : (s.report p e u c).faults = s.faults := by unfold State.report; rcases p with - | ⟨pg, n⟩ <;> rcases e with - | m <;> rcases c with - | i <;> simp
@[simp] theorem State.report_reports (p : Option (Nat × Nat)) (e : Option Nat) (u : Nat) (c : Option Nat) : (s.report p e u c).reports = s.reports := by unfold State.report; rcases p with - | ⟨pg, n⟩ <;> rcases e with - | m <;> rcases c with - | i <;> simp
@[simp] theorem State.report_contribs (p : Option (Nat × Nat)) (e : Option Nat) (u : Nat) (c : Option Nat) : (s.report p e u c).contribs = s.contribs := by unfold State.report; rcases p with - | ⟨pg, n⟩ <;> rcases e with - | m <;> rcases c with - | i <;> simp
@[simp] theorem State.report_locks (p : Option (Nat × Nat)) (e : Option Nat) (u : Nat) (c : Option Nat) : (s.report p e u c).locks = s.locks := by unfold State.report; rcases p with - | ⟨pg, n⟩ <;> rcases e with - | m <;> rcases c with - | i <;> simp
@[simp] theorem State.report_walkers (p : Option (Nat × Nat)) (e : Option Nat) (u : Nat) (c : Option Nat) : (s.report p e u c).walkers = s.walkers := by unfold State.report; rcases p with - | ⟨pg, n⟩ <;> rcases e with - | m <;> rcases c with - | i <;> simp
@[simp] theorem State.report_clock (p : Option (Nat × Nat)) (e : Option Nat) (u : Nat) (c : Option Nat) : (s.report p e u c).clock = s.clock := by unfold State.report; rcases p with - | ⟨pg, n⟩ <;> rcases e with - | m <;> rcases c with - | i <;> simp
@[simp] theorem State.report_dists (p : Option (Nat × Nat)) (e : Option Nat) (u : Nat) (c : Option Nat) : (s.report p e u c).dists = s.dists := by unfold State.report; rcases p with - | ⟨pg, n⟩ <;> rcases e with - | m <;> rcases c with - | i <;> simp
@[simp] theorem State.report_links (p : Option (Nat × Nat)) (e : Option Nat) (u : Nat) (c : Option Nat) : (s.report p e u c).links = s.links := by unfold State.report; rcases p with - | ⟨pg, n⟩ <;> rcases e with - | m <;> rcases c with - | i <;> simp
@[simp] theorem State.report_msgs (p : Option (Nat × Nat)) (e : Option Nat) (u : Nat) (c : Option Nat) : (s.report p e u c).msgs = s.msgs := by unfold State.report; rcases p with - | ⟨pg, n⟩ <;> rcases e with - | m <;> rcases c with - | i <;> simp
@[simp] theorem State.report_house (p : Option (Nat × Nat)) (e : Option Nat) (u : Nat) (c : Option Nat) : (s.report p e u c).house = s.house := by unfold State.report; rcases p with - | ⟨pg, n⟩ <;> rcases e with - | m <;> rcases c with - | i <;> simp
@[simp] theorem State.report_power (p : Option (Nat × Nat)) (e : Option Nat) (u : Nat) (c : Option Nat) : (s.report p e u c).power = s.power := by unfold State.report; rcases p with - | ⟨pg, n⟩ <;> rcases e with - | m <;> rcases c with - | i <;> simp
@[simp] theorem State.report_pins (p : Option (Nat × Nat)) (e : Option Nat) (u : Nat) (c : Option Nat) : (s.report p e u c).pins = s.pins := by unfold State.report; rcases p with - | ⟨pg, n⟩ <;> rcases e with - | m <;> rcases c with - | i <;> simp
@[simp] theorem State.report_twin (p : Option (Nat × Nat)) (e : Option Nat) (u : Nat) (c : Option Nat) : (s.report p e u c).twin = s.twin := by unfold State.report; rcases p with - | ⟨pg, n⟩ <;> rcases e with - | m <;> rcases c with - | i <;> simp
@[simp] theorem State.report_phase (p : Option (Nat × Nat)) (e : Option Nat) (u : Nat) (c : Option Nat) : (s.report p e u c).phase = s.phase := by unfold State.report; rcases p with - | ⟨pg, n⟩ <;> rcases e with - | m <;> rcases c with - | i <;> simp
@[simp] theorem State.report_freeCtr (p : Option (Nat × Nat)) (e : Option Nat) (u : Nat) (c : Option Nat) : (s.report p e u c).freeCtr = s.freeCtr := by unfold State.report; rcases p with - | ⟨pg, n⟩ <;> rcases e with - | m <;> rcases c with - | i <;> simp

end Sys2Proof.Machine
end

