-- ==== Sys2Proof/Laws/Ops.lean ====
section
/-! SUPPORT. What the shared operations do, said once: registers and fields, counters, districts, ports and batches, host writes
through the window, twin messages, and core instructions at the front of their group. -/

namespace Sys2Proof.Machine

variable (s : State)

/-! ## Registers -/

@[simp] theorem State.reg_setReg_same (off : Nat) (v : Word) : (s.setReg off v).reg off = v := by
  simp only [State.reg, State.setReg, regsSet]
  split
  · simp [*]
  · simp [SMap.find_put_same]

theorem State.reg_setReg_other (off j : Nat) (v : Word) (h : j ≠ off) : (s.setReg off v).reg j = s.reg j := by
  simp only [State.reg, State.setReg, regsSet]
  split
  · rw [SMap.find_del_other _ h]
  · rw [SMap.find_put_other _ _ h]

/-- A register's value depends on the stored registers alone. -/
theorem State.reg_congr {s t : State} (h : t.regs = s.regs) (off : Nat) : t.reg off = s.reg off := by simp [State.reg, h]

theorem State.rd_congr {s t : State} (h : t.regs = s.regs) (f : Fld) : t.rd f = s.rd f := by simp [State.rd, State.reg_congr h]

/-- A field reads back what was written, cut to its width. -/
theorem State.rd_wr_same (f : Fld) (v : Nat) (h1 : f.lo ≤ f.hi) (h2 : f.hi < 32) : (s.wr f v).rd f = v % 2 ^ (f.hi + 1 - f.lo) := by
  simp [State.rd, State.wr, field_putField _ _ _ _ h1 h2]

/-- A write of a field leaves the fields of other registers. -/
theorem State.rd_wr_other (f g : Fld) (v : Nat) (h : g.off ≠ f.off) : (s.wr f v).rd g = s.rd g := by
  simp [State.rd, State.wr, State.reg_setReg_other _ _ _ _ h]

/-- A write of a field leaves the other fields of its register. -/
theorem State.rd_wr_beside (f g : Fld) (v : Nat) (ho : g.off = f.off) (hg : g.hi < 32) (h : g.hi < f.lo ∨ f.hi < g.lo) :
    (s.wr f v).rd g = s.rd g := by
  simp [State.rd, State.wr, ho, field_putField_other _ _ _ _ _ _ hg h]

@[simp] theorem State.reg_wr_same (f : Fld) (v : Nat) : (s.wr f v).reg f.off = putField (s.reg f.off) f.hi f.lo v := by simp [State.wr]

theorem State.reg_wr_other (f : Fld) (v off : Nat) (h : off ≠ f.off) : (s.wr f v).reg off = s.reg off := by
  simp [State.wr, State.reg_setReg_other _ _ _ _ h]

/-! ## Reports -/

/-- A status bit set changes no register but its own. -/
theorem State.reg_setBit_other (f : Fld) (pg off : Nat) (h : off ≠ f.off) : (s.setBit f pg).reg off = s.reg off := by
  have : (s.setBit f pg).regs = (s.wr f 1).regs := by unfold State.setBit; dsimp only; split <;> rfl
  rw [State.reg_congr this, State.reg_wr_other _ _ _ _ h]

/-- A status bit set reads 1. -/
theorem State.rd_setBit_same (f : Fld) (pg : Nat) (h1 : f.lo = f.hi) (h2 : f.hi < 32) : (s.setBit f pg).rd f = 1 := by
  have : (s.setBit f pg).regs = (s.wr f 1).regs := by unfold State.setBit; dsimp only; split <;> rfl
  rw [State.rd_congr this, State.rd_wr_same _ _ _ (by omega) h2, h1]
  simp

/-! ## Counters -/

/-- A counter advanced modulo 2^64, and no other changed. -/
theorem State.live_count_same (u i n : Nat) : SMap.get 0 (s.count u i n).live (u * 256 + i) = SMap.get 0 s.live (u * 256 + i) + BitVec.ofNat 64 n := by
  simp [State.count]

theorem State.live_count_other (u i n k : Nat) (h : k ≠ u * 256 + i) : SMap.get 0 (s.count u i n).live k = SMap.get 0 s.live k := by
  simp only [State.count]
  exact SMap.get_set_other _ _ _ h

/-! ## Districts, ports, batches -/

@[simp] theorem State.dist_setDist_same (d : Nat) (x : District) : (s.setDist d x).dist d = x := by simp [State.dist, State.setDist]

theorem State.dist_setDist_other (d e : Nat) (x : District) (h : e ≠ d) : (s.setDist d x).dist e = s.dist e := by
  simp only [State.dist, State.setDist]
  exact SMap.get_set_other _ _ _ h

@[simp] theorem State.dist_updDist_same (d : Nat) (f : District → District) : (s.updDist d f).dist d = f (s.dist d) := by simp [State.updDist]

theorem State.dist_updDist_other (d e : Nat) (f : District → District) (h : e ≠ d) : (s.updDist d f).dist e = s.dist e :=
  State.dist_setDist_other _ _ _ _ h

@[simp] theorem State.port_setPort_same (p : Nat) (x : StackPort) : (s.setPort p x).port p = x := by simp [State.port, State.setPort]

theorem State.port_setPort_other (p q : Nat) (x : StackPort) (h : q ≠ p) : (s.setPort p x).port q = s.port q := by
  simp only [State.port, State.setPort]
  exact SMap.get_set_other _ _ _ h

@[simp] theorem State.port_updPort_same (p : Nat) (f : StackPort → StackPort) : (s.updPort p f).port p = f (s.port p) := by simp [State.updPort]

/-- A batch changed reads back changed, where its identity stays. -/
theorem State.batch_updBatch_same (b : Bid) (f : Batch → Batch) (x : Batch) (h : s.batch b = some x) (hf : (f x).bid = b) :
    (s.updBatch b f).batch b = some (f x) := by
  simp only [State.batch, State.updBatch] at *
  exact updFirst_find_same _ _ _ _ h (by simp [hf])

/-! ## Writes and reads of the window -/

/-- An access that is served and not turned away has its own effect (R411, R467, R510). -/
theorem State.guardWrite_opens (off : Nat) (f : State → State) (h : s.opens off = true) : s.guardWrite off f = f s := by
  simp only [State.opens, Bool.and_eq_true, Bool.not_eq_true', decide_eq_true_eq] at h
  obtain ⟨⟨⟨h1, h2⟩, h3⟩, h4⟩ := h
  simp [State.guardWrite, State.doWrite, h1, h2, h3, h4]

theorem State.guardRead_opens (off : Nat) (f : State → State) (h : s.opensRead off = true) : s.guardRead off f = f s := by
  simp only [State.opensRead, Bool.and_eq_true, Bool.not_eq_true'] at h
  simp [State.guardRead, h.1, h.2]

/-! ## Twin messages -/

/-- A message that is next on a live link is taken in and then has its own effect (R419, R420). -/
theorem State.twinRecv_hears (h : TwinHdr) (f : State → State) (hh : s.hears h = true) : s.twinRecv h f = f s.heard := by
  simp only [State.hears, Bool.and_eq_true, Bool.not_eq_true', decide_eq_true_eq] at hh
  obtain ⟨⟨⟨⟨h1, h2⟩, h3⟩, h4⟩, h5⟩ := hh
  have ha : s.heard.armed Fld.twnInjectSilence = false := h4
  have hr : s.heard.rd Fld.blkRungCurrent = 0 := h5
  have e : s.twinRecv h f = (if !s.twin.linkUp then s
      else if !h.crcOk || decide (h.num ≠ s.twin.recvNum) then ((s.count unitTwn 1 1).report none (some 10) unitTwn none).linkReset true
      else
        let s3 := if s.heard.armed Fld.twnInjectSilence && decide (s.heard.twnMode ≠ 0) then (s.heard.disarm Fld.twnInjectSilence).silence else s.heard
        f (if s3.rd Fld.blkRungCurrent = 0 then s3 else s3.askWake 0x02000)) := rfl
  rw [e]
  simp [h1, h2, h3, ha, hr]

/-! ## Core instructions at the front (R225, R226) -/

variable {s}

/-- The registers an instruction reads are free of error: reading them changes nothing. -/
theorem State.readRegs_good (d : Nat) (g : Group) (rs : List Nat) (h : g.badRegs rs = []) : s.readRegs d g rs = (s, some g) := by
  simp [State.readRegs, h]

/-- An instruction at the front of its group with threads to run for, or one that needs none, does what its class says once nothing holds
it up. -/
theorem State.issue_fronts {r : GRef} {cls op : Nat} {f : Fields} {g : Group} (body : State → Group → Act) (h : s.fronts r cls op f g)
    (hn : ¬(laneOnly cls = true ∧ g.active = 0)) (hw : s.opWaits g cls op f = false) :
    s.issue r cls op f body = (body s g).apply r.dist.val r.slot.val g := by
  obtain ⟨h1, h2, h3, h4, h5, h6, h7, h8, h9, h10, h11⟩ := h
  unfold State.issue
  have hpc : ¬ g.codeLen ≤ g.pc := by omega
  rcases h5 with h5 | h5 <;> simp [h1, h2, h3, h4, h5, h6, h7, h9, h10, hpc, hw, State.readRegs_good _ _ _ h11] <;>
    exact fun a b => absurd ⟨a, b⟩ hn

/-- An instruction at the front of its group that has to wait: a `SLOT.LOCK` takes what interlocks it can (R226). -/
theorem State.issue_waits {r : GRef} {cls op : Nat} {f : Fields} {g : Group} (body : State → Group → Act) (h : s.fronts r cls op f g)
    (hn : ¬(laneOnly cls = true ∧ g.active = 0)) (hw : s.opWaits g cls op f = true) :
    s.issue r cls op f body = s.waiting g cls op := by
  obtain ⟨h1, h2, h3, h4, h5, h6, h7, h8, h9, h10, h11⟩ := h
  unfold State.issue
  have hpc : ¬ g.codeLen ≤ g.pc := by omega
  rcases h5 with h5 | h5 <;> simp [h1, h2, h3, h4, h5, h6, h7, h9, h10, hpc, hw] <;> exact fun a b => absurd ⟨a, b⟩ hn

/-- With no active thread an instruction of a class that acts for threads only advances (R239, R257). -/
theorem State.issue_idle {r : GRef} {cls op : Nat} {f : Fields} {g : Group} (body : State → Group → Act) (h : s.fronts r cls op f g)
    (hn : laneOnly cls = true ∧ g.active = 0) :
    s.issue r cls op f body = s.retireIns r.dist.val r.slot.val { g with pc := g.pc + 8 } [] := by
  obtain ⟨h1, h2, h3, h4, h5, h6, h7, h8, h9, h10, h11⟩ := h
  unfold State.issue
  have hpc : ¬ g.codeLen ≤ g.pc := by omega
  rcases h5 with h5 | h5 <;> simp [h1, h2, h3, h4, h5, h6, h7, h9, h10, hpc, hn]

/-- Both memories are in canonical form at reset. -/
theorem State.reset_memory_wf : Memory.wf State.reset.host = true ∧ Memory.wf State.reset.scene = true := ⟨rfl, rfl⟩

end Sys2Proof.Machine
end

