-- ==== Sys2Proof/Laws/PerInstr.lean ====
section
/-! SUPPORT. Per-instruction families: one lemma for each command. -/

namespace Sys2Proof.Laws

open Sys2Proof

/-- The class and the operation a command is coded by fit their fields of the word (R235), and the table of
operations (R237) has the command at that class and operation. -/
def Codes.Statement (i : Instr) : Prop := ∀ (g : GRef) (c o : Nat) (f : Fields), coreCode i = some (g, c, o, f) → c < 16 ∧ o < 256 ∧ classOp c o g f = some i

theorem Codes.queTailWrite (x0 : Que) (x1 : Word) : Codes.Statement (.queTailWrite x0 x1) := fun _ _ _ _ h => nomatch h
theorem Codes.queDepthWrite (x0 : Que) (x1 : Word) : Codes.Statement (.queDepthWrite x0 x1) := fun _ _ _ _ h => nomatch h
theorem Codes.queRunSet (x0 : Que) : Codes.Statement (.queRunSet x0) := fun _ _ _ _ h => nomatch h
theorem Codes.queRunClear (x0 : Que) : Codes.Statement (.queRunClear x0) := fun _ _ _ _ h => nomatch h
theorem Codes.queCancel (x0 : Que) : Codes.Statement (.queCancel x0) := fun _ _ _ _ h => nomatch h
theorem Codes.queResume (x0 : Que) : Codes.Statement (.queResume x0) := fun _ _ _ _ h => nomatch h
theorem Codes.queEstWrite (x0 : Que) (x1 : Word) : Codes.Statement (.queEstWrite x0 x1) := fun _ _ _ _ h => nomatch h
theorem Codes.descriptorFetch (x0 : Que) : Codes.Statement (.descriptorFetch x0) := fun _ _ _ _ h => nomatch h
theorem Codes.stamping (x0 : Que) : Codes.Statement (.stamping x0) := fun _ _ _ _ h => nomatch h
theorem Codes.pageWalkComplete (x0 : Root) (x1 : BitVec 52) : Codes.Statement (.pageWalkComplete x0 x1) := fun _ _ _ _ h => nomatch h
theorem Codes.acceptance (x0 : Que) : Codes.Statement (.acceptance x0) := fun _ _ _ _ h => nomatch h
theorem Codes.admissionRound : Codes.Statement .admissionRound := fun _ _ _ _ h => nomatch h
theorem Codes.dealRun : Codes.Statement .dealRun := fun _ _ _ _ h => nomatch h
theorem Codes.walkerEntering (x0 : Dist) : Codes.Statement (.walkerEntering x0) := fun _ _ _ _ h => nomatch h
theorem Codes.walkerArrival (x0 : Dist) : Codes.Statement (.walkerArrival x0) := fun _ _ _ _ h => nomatch h
theorem Codes.walkerReload (x0 : Dist) : Codes.Statement (.walkerReload x0) := fun _ _ _ _ h => nomatch h
theorem Codes.nodeStep (x0 : Dist) (x1 : Nat) : Codes.Statement (.nodeStep x0 x1) := fun _ _ _ _ h => nomatch h
theorem Codes.triangleTest (x0 : Dist) (x1 : Nat) (x2 : Bool) : Codes.Statement (.triangleTest x0 x1 x2) := fun _ _ _ _ h => nomatch h
theorem Codes.loadDecision (x0 : Dist) : Codes.Statement (.loadDecision x0) := fun _ _ _ _ h => nomatch h
theorem Codes.plotLoadComplete (x0 : Dist) (x1 : Fin 2) : Codes.Statement (.plotLoadComplete x0 x1) := fun _ _ _ _ h => nomatch h
theorem Codes.copyDrainEnd (x0 : Dist) (x1 : Fin 16) : Codes.Statement (.copyDrainEnd x0 x1) := fun _ _ _ _ h => nomatch h
theorem Codes.mapLookup (x0 : Dist) : Codes.Statement (.mapLookup x0) := fun _ _ _ _ h => nomatch h
theorem Codes.mapLookupReply (x0 : Dist) : Codes.Statement (.mapLookupReply x0) := fun _ _ _ _ h => nomatch h
theorem Codes.doneNotice (x0 : DoneReport) : Codes.Statement (.doneNotice x0) := fun _ _ _ _ h => nomatch h
theorem Codes.resultWrite (x0 : Dist) : Codes.Statement (.resultWrite x0) := fun _ _ _ _ h => nomatch h
theorem Codes.packWrite (x0 : Dist) : Codes.Statement (.packWrite x0) := fun _ _ _ _ h => nomatch h
theorem Codes.runFlush (x0 : Bid) : Codes.Statement (.runFlush x0) := fun _ _ _ _ h => nomatch h
theorem Codes.contribution (x0 : Nat) : Codes.Statement (.contribution x0) := fun _ _ _ _ h => nomatch h
theorem Codes.candidateMessage (x0 : Dist) : Codes.Statement (.candidateMessage x0) := fun _ _ _ _ h => nomatch h
theorem Codes.tauReply (x0 : Dist) : Codes.Statement (.tauReply x0) := fun _ _ _ _ h => nomatch h
theorem Codes.endNotice (x0 : Dist) : Codes.Statement (.endNotice x0) := fun _ _ _ _ h => nomatch h
theorem Codes.probeJob (x0 : Dist) (x1 : Nat) : Codes.Statement (.probeJob x0 x1) := fun _ _ _ _ h => nomatch h
theorem Codes.refitRepair (x0 : Bid) : Codes.Statement (.refitRepair x0) := fun _ _ _ _ h => nomatch h
theorem Codes.maintOperation (x0 : Bid) : Codes.Statement (.maintOperation x0) := fun _ _ _ _ h => nomatch h
theorem Codes.completionWrite (x0 : Bid) : Codes.Statement (.completionWrite x0) := fun _ _ _ _ h => nomatch h
theorem Codes.sealCas (x0 : Bid) : Codes.Statement (.sealCas x0) := fun _ _ _ _ h => nomatch h
theorem Codes.wakeMessage (x0 : Bid) : Codes.Statement (.wakeMessage x0) := fun _ _ _ _ h => nomatch h
theorem Codes.eventInterrupt : Codes.Statement .eventInterrupt := fun _ _ _ _ h => nomatch h
theorem Codes.faultRecordWrite : Codes.Statement .faultRecordWrite := fun _ _ _ _ h => nomatch h
theorem Codes.fringHeadWrite (x0 : Word) : Codes.Statement (.fringHeadWrite x0) := fun _ _ _ _ h => nomatch h
theorem Codes.hostWriteAck (x0 : Nat) : Codes.Statement (.hostWriteAck x0) := fun _ _ _ _ h => nomatch h
theorem Codes.hostReadData (x0 : BitVec 52) (x1 : List Byte) : Codes.Statement (.hostReadData x0 x1) := fun _ _ _ _ h => nomatch h
theorem Codes.apertureRead (x0 : ApertureAt) (x1 : Nat) : Codes.Statement (.apertureRead x0 x1) := fun _ _ _ _ h => nomatch h
theorem Codes.apertureWrite (x0 : ApertureAt) (x1 : List Byte) : Codes.Statement (.apertureWrite x0 x1) := fun _ _ _ _ h => nomatch h
theorem Codes.regAccessMalformed (x0 : BitVec 32) (x1 : Nat) (x2 : Bool) : Codes.Statement (.regAccessMalformed x0 x1 x2) := fun _ _ _ _ h => nomatch h
theorem Codes.registerWrite (x0 : BitVec 20) (x1 : Word) : Codes.Statement (.registerWrite x0 x1) := fun _ _ _ _ h => nomatch h
theorem Codes.rcRead (x0 : BitVec 20) (x1 : Bool) : Codes.Statement (.rcRead x0 x1) := fun _ _ _ _ h => nomatch h
theorem Codes.pgCtlWrite (x0 : BitVec 8) (x1 : Word) : Codes.Statement (.pgCtlWrite x0 x1) := fun _ _ _ _ h => nomatch h
theorem Codes.crcLoad (x0 : Dist) : Codes.Statement (.crcLoad x0) := fun _ _ _ _ h => nomatch h
theorem Codes.pgLockWrite (x0 : BitVec 8) (x1 : Word) : Codes.Statement (.pgLockWrite x0 x1) := fun _ _ _ _ h => nomatch h
theorem Codes.pgSnap (x0 : BitVec 8) : Codes.Statement (.pgSnap x0) := fun _ _ _ _ h => nomatch h
theorem Codes.ctrSnap : Codes.Statement .ctrSnap := fun _ _ _ _ h => nomatch h
theorem Codes.counterWrite (x0 : Bool) (x1 : Word) : Codes.Statement (.counterWrite x0 x1) := fun _ _ _ _ h => nomatch h
theorem Codes.injectArm (x0 : BitVec 8) (x1 : Word) : Codes.Statement (.injectArm x0 x1) := fun _ _ _ _ h => nomatch h
theorem Codes.balanceCapture : Codes.Statement .balanceCapture := fun _ _ _ _ h => nomatch h
theorem Codes.grantAdd (x0 : Bool) (x1 : BitVec 12) : Codes.Statement (.grantAdd x0 x1) := fun _ _ _ _ h => nomatch h
theorem Codes.grantSet (x0 : Bool) (x1 : BitVec 12) : Codes.Statement (.grantSet x0 x1) := fun _ _ _ _ h => nomatch h
theorem Codes.mapDataWrite (x0 : Fin 4) (x1 : Word) : Codes.Statement (.mapDataWrite x0 x1) := fun _ _ _ _ h => nomatch h
theorem Codes.mapHash (x0 : Word) : Codes.Statement (.mapHash x0) := fun _ _ _ _ h => nomatch h
theorem Codes.tenDataWrite (x0 : Fin 32) (x1 : Word) : Codes.Statement (.tenDataWrite x0 x1) := fun _ _ _ _ h => nomatch h
theorem Codes.tallyWindowRead (x0 : Fin 8) : Codes.Statement (.tallyWindowRead x0) := fun _ _ _ _ h => nomatch h
theorem Codes.dstClose (x0 : Dist) : Codes.Statement (.dstClose x0) := fun _ _ _ _ h => nomatch h
theorem Codes.dstOpen (x0 : Dist) : Codes.Statement (.dstOpen x0) := fun _ _ _ _ h => nomatch h
theorem Codes.dstReopen (x0 : Dist) : Codes.Statement (.dstReopen x0) := fun _ _ _ _ h => nomatch h
theorem Codes.dstSideBaseWrite (x0 : Dist) (x1 : Word) : Codes.Statement (.dstSideBaseWrite x0 x1) := fun _ _ _ _ h => nomatch h
theorem Codes.orderlyClosure (x0 : Dist) : Codes.Statement (.orderlyClosure x0) := fun _ _ _ _ h => nomatch h
theorem Codes.faultClosure (x0 : Dist) : Codes.Statement (.faultClosure x0) := fun _ _ _ _ h => nomatch h
theorem Codes.censusMarker (x0 : Dist) : Codes.Statement (.censusMarker x0) := fun _ _ _ _ h => nomatch h
theorem Codes.censusReplay : Codes.Statement .censusReplay := fun _ _ _ _ h => nomatch h
theorem Codes.avenueMessageReceive (x0 : Nat) (x1 : Bool) : Codes.Statement (.avenueMessageReceive x0 x1) := fun _ _ _ _ h => nomatch h
theorem Codes.avenueReplay (x0 : Nat) (x1 : Bool) : Codes.Statement (.avenueReplay x0 x1) := fun _ _ _ _ h => nomatch h
theorem Codes.meterReport (x0 : Meter) (x1 : Nat) (x2 : Option Bid) : Codes.Statement (.meterReport x0 x1 x2) := fun _ _ _ _ h => nomatch h
theorem Codes.voltageRequest : Codes.Statement .voltageRequest := fun _ _ _ _ h => nomatch h
theorem Codes.voltageAck : Codes.Statement .voltageAck := fun _ _ _ _ h => nomatch h
theorem Codes.sensorReading (x0 : Dist) (x1 : BitVec 10) : Codes.Statement (.sensorReading x0 x1) := fun _ _ _ _ h => nomatch h
theorem Codes.stepRingExpiry (x0 : Dist) (x1 : Option Dir) : Codes.Statement (.stepRingExpiry x0 x1) := fun _ _ _ _ h => nomatch h
theorem Codes.coreRingExpiry (x0 : Dist) : Codes.Statement (.coreRingExpiry x0) := fun _ _ _ _ h => nomatch h
theorem Codes.tileRingExpiry (x0 : Dist) (x1 : Fin 2) : Codes.Statement (.tileRingExpiry x0 x1) := fun _ _ _ _ h => nomatch h
theorem Codes.stackReqRingExpiry (x0 : Port) : Codes.Statement (.stackReqRingExpiry x0) := fun _ _ _ _ h => nomatch h
theorem Codes.hostRingExpiry : Codes.Statement .hostRingExpiry := fun _ _ _ _ h => nomatch h
theorem Codes.vackRingExpiry : Codes.Statement .vackRingExpiry := fun _ _ _ _ h => nomatch h
theorem Codes.sensorRingExpiry (x0 : Dist) : Codes.Statement (.sensorRingExpiry x0) := fun _ _ _ _ h => nomatch h
theorem Codes.stackFill (x0 : Port) (x1 : Fin 1024) (x2 : BitVec 40) : Codes.Statement (.stackFill x0 x1 x2) := fun _ _ _ _ h => nomatch h
theorem Codes.evictionWrite (x0 : Port) : Codes.Statement (.evictionWrite x0) := fun _ _ _ _ h => nomatch h
theorem Codes.prefetch (x0 : Port) (x1 : Fin 1024) : Codes.Statement (.prefetch x0 x1) := fun _ _ _ _ h => nomatch h
theorem Codes.scrubRead (x0 : Port) : Codes.Statement (.scrubRead x0) := fun _ _ _ _ h => nomatch h
theorem Codes.stackRefresh (x0 : Port) : Codes.Statement (.stackRefresh x0) := fun _ _ _ _ h => nomatch h
theorem Codes.mopInval (x0 : BitVec 4) : Codes.Statement (.mopInval x0) := fun _ _ _ _ h => nomatch h
theorem Codes.mopClean (x0 : BitVec 4) : Codes.Statement (.mopClean x0) := fun _ _ _ _ h => nomatch h
theorem Codes.mopCleanInval (x0 : BitVec 4) : Codes.Statement (.mopCleanInval x0) := fun _ _ _ _ h => nomatch h
theorem Codes.mopZero (x0 : BitVec 4) : Codes.Statement (.mopZero x0) := fun _ _ _ _ h => nomatch h
theorem Codes.mopComplete : Codes.Statement .mopComplete := fun _ _ _ _ h => nomatch h
theorem Codes.scInv (x0 : Port) : Codes.Statement (.scInv x0) := fun _ _ _ _ h => nomatch h
theorem Codes.dcInv : Codes.Statement .dcInv := fun _ _ _ _ h => nomatch h
theorem Codes.ncInv : Codes.Statement .ncInv := fun _ _ _ _ h => nomatch h
theorem Codes.cacheEnable (x0 : CacheSel) : Codes.Statement (.cacheEnable x0) := fun _ _ _ _ h => nomatch h
theorem Codes.cacheDisable (x0 : CacheSel) : Codes.Statement (.cacheDisable x0) := fun _ _ _ _ h => nomatch h
theorem Codes.shootdownGo : Codes.Statement .shootdownGo := fun _ _ _ _ h => nomatch h
theorem Codes.groupLaunch (x0 : Dist) : Codes.Statement (.groupLaunch x0) := fun _ _ _ _ h => nomatch h
theorem Codes.splitChange (x0 : Dist) : Codes.Statement (.splitChange x0) := fun _ _ _ _ h => nomatch h
theorem Codes.preemption (x0 : Dist) : Codes.Statement (.preemption x0) := fun _ _ _ _ h => nomatch h
theorem Codes.groupPark (x0 : GRef) : Codes.Statement (.groupPark x0) := fun _ _ _ _ h => nomatch h
theorem Codes.groupRestore (x0 : Dist) : Codes.Statement (.groupRestore x0) := fun _ _ _ _ h => nomatch h
theorem Codes.trapReplay (x0 : Dist) (x1 : BitVec 7) : Codes.Statement (.trapReplay x0 x1) := fun _ _ _ _ h => nomatch h
theorem Codes.trapKill (x0 : Dist) (x1 : BitVec 7) : Codes.Statement (.trapKill x0 x1) := fun _ _ _ _ h => nomatch h
theorem Codes.mtxComplete (x0 : GRef) (x1 : Nat) : Codes.Statement (.mtxComplete x0 x1) := fun _ _ _ _ h => nomatch h
theorem Codes.fillComplete (x0 : GRef) (x1 : Nat) : Codes.Statement (.fillComplete x0 x1) := fun _ _ _ _ h => nomatch h
theorem Codes.sendDelivery (x0 : Dist) : Codes.Statement (.sendDelivery x0) := fun _ _ _ _ h => nomatch h
theorem Codes.sendStatus (x0 : Dist) : Codes.Statement (.sendStatus x0) := fun _ _ _ _ h => nomatch h
theorem Codes.iadd (x0 : GRef) (x1 : Fields) : Codes.Statement (.iadd x0 x1) := fun _ _ _ _ h => by cases h; exact ⟨by decide, by decide, rfl⟩
theorem Codes.isub (x0 : GRef) (x1 : Fields) : Codes.Statement (.isub x0 x1) := fun _ _ _ _ h => by cases h; exact ⟨by decide, by decide, rfl⟩
theorem Codes.imul (x0 : GRef) (x1 : Fields) : Codes.Statement (.imul x0 x1) := fun _ _ _ _ h => by cases h; exact ⟨by decide, by decide, rfl⟩
theorem Codes.imulhi (x0 : GRef) (x1 : Fields) : Codes.Statement (.imulhi x0 x1) := fun _ _ _ _ h => by cases h; exact ⟨by decide, by decide, rfl⟩
theorem Codes.and (x0 : GRef) (x1 : Fields) : Codes.Statement (.and x0 x1) := fun _ _ _ _ h => by cases h; exact ⟨by decide, by decide, rfl⟩
theorem Codes.or (x0 : GRef) (x1 : Fields) : Codes.Statement (.or x0 x1) := fun _ _ _ _ h => by cases h; exact ⟨by decide, by decide, rfl⟩
theorem Codes.xor (x0 : GRef) (x1 : Fields) : Codes.Statement (.xor x0 x1) := fun _ _ _ _ h => by cases h; exact ⟨by decide, by decide, rfl⟩
theorem Codes.shl (x0 : GRef) (x1 : Fields) : Codes.Statement (.shl x0 x1) := fun _ _ _ _ h => by cases h; exact ⟨by decide, by decide, rfl⟩
theorem Codes.shr (x0 : GRef) (x1 : Fields) : Codes.Statement (.shr x0 x1) := fun _ _ _ _ h => by cases h; exact ⟨by decide, by decide, rfl⟩
theorem Codes.sar (x0 : GRef) (x1 : Fields) : Codes.Statement (.sar x0 x1) := fun _ _ _ _ h => by cases h; exact ⟨by decide, by decide, rfl⟩
theorem Codes.imin (x0 : GRef) (x1 : Fields) : Codes.Statement (.imin x0 x1) := fun _ _ _ _ h => by cases h; exact ⟨by decide, by decide, rfl⟩
theorem Codes.imax (x0 : GRef) (x1 : Fields) : Codes.Statement (.imax x0 x1) := fun _ _ _ _ h => by cases h; exact ⟨by decide, by decide, rfl⟩
theorem Codes.umin (x0 : GRef) (x1 : Fields) : Codes.Statement (.umin x0 x1) := fun _ _ _ _ h => by cases h; exact ⟨by decide, by decide, rfl⟩
theorem Codes.umax (x0 : GRef) (x1 : Fields) : Codes.Statement (.umax x0 x1) := fun _ _ _ _ h => by cases h; exact ⟨by decide, by decide, rfl⟩
theorem Codes.imad (x0 : GRef) (x1 : Fields) : Codes.Statement (.imad x0 x1) := fun _ _ _ _ h => by cases h; exact ⟨by decide, by decide, rfl⟩
theorem Codes.popc (x0 : GRef) (x1 : Fields) : Codes.Statement (.popc x0 x1) := fun _ _ _ _ h => by cases h; exact ⟨by decide, by decide, rfl⟩
theorem Codes.clz (x0 : GRef) (x1 : Fields) : Codes.Statement (.clz x0 x1) := fun _ _ _ _ h => by cases h; exact ⟨by decide, by decide, rfl⟩
theorem Codes.mov (x0 : GRef) (x1 : Fields) : Codes.Statement (.mov x0 x1) := fun _ _ _ _ h => by cases h; exact ⟨by decide, by decide, rfl⟩
theorem Codes.sel (x0 : GRef) (x1 : Fields) : Codes.Statement (.sel x0 x1) := fun _ _ _ _ h => by cases h; exact ⟨by decide, by decide, rfl⟩
theorem Codes.udiv (x0 : GRef) (x1 : Fields) : Codes.Statement (.udiv x0 x1) := fun _ _ _ _ h => by cases h; exact ⟨by decide, by decide, rfl⟩
theorem Codes.urem (x0 : GRef) (x1 : Fields) : Codes.Statement (.urem x0 x1) := fun _ _ _ _ h => by cases h; exact ⟨by decide, by decide, rfl⟩
theorem Codes.fadd (x0 : GRef) (x1 : Fields) : Codes.Statement (.fadd x0 x1) := fun _ _ _ _ h => by cases h; exact ⟨by decide, by decide, rfl⟩
theorem Codes.fsub (x0 : GRef) (x1 : Fields) : Codes.Statement (.fsub x0 x1) := fun _ _ _ _ h => by cases h; exact ⟨by decide, by decide, rfl⟩
theorem Codes.fmul (x0 : GRef) (x1 : Fields) : Codes.Statement (.fmul x0 x1) := fun _ _ _ _ h => by cases h; exact ⟨by decide, by decide, rfl⟩
theorem Codes.ffma (x0 : GRef) (x1 : Fields) : Codes.Statement (.ffma x0 x1) := fun _ _ _ _ h => by cases h; exact ⟨by decide, by decide, rfl⟩
theorem Codes.fmin (x0 : GRef) (x1 : Fields) : Codes.Statement (.fmin x0 x1) := fun _ _ _ _ h => by cases h; exact ⟨by decide, by decide, rfl⟩
theorem Codes.fmax (x0 : GRef) (x1 : Fields) : Codes.Statement (.fmax x0 x1) := fun _ _ _ _ h => by cases h; exact ⟨by decide, by decide, rfl⟩
theorem Codes.fabs (x0 : GRef) (x1 : Fields) : Codes.Statement (.fabs x0 x1) := fun _ _ _ _ h => by cases h; exact ⟨by decide, by decide, rfl⟩
theorem Codes.fneg (x0 : GRef) (x1 : Fields) : Codes.Statement (.fneg x0 x1) := fun _ _ _ _ h => by cases h; exact ⟨by decide, by decide, rfl⟩
theorem Codes.frcp (x0 : GRef) (x1 : Fields) : Codes.Statement (.frcp x0 x1) := fun _ _ _ _ h => by cases h; exact ⟨by decide, by decide, rfl⟩
theorem Codes.frsq (x0 : GRef) (x1 : Fields) : Codes.Statement (.frsq x0 x1) := fun _ _ _ _ h => by cases h; exact ⟨by decide, by decide, rfl⟩
theorem Codes.fsqrt (x0 : GRef) (x1 : Fields) : Codes.Statement (.fsqrt x0 x1) := fun _ _ _ _ h => by cases h; exact ⟨by decide, by decide, rfl⟩
theorem Codes.fdiv (x0 : GRef) (x1 : Fields) : Codes.Statement (.fdiv x0 x1) := fun _ _ _ _ h => by cases h; exact ⟨by decide, by decide, rfl⟩
theorem Codes.ffloor (x0 : GRef) (x1 : Fields) : Codes.Statement (.ffloor x0 x1) := fun _ _ _ _ h => by cases h; exact ⟨by decide, by decide, rfl⟩
theorem Codes.fceil (x0 : GRef) (x1 : Fields) : Codes.Statement (.fceil x0 x1) := fun _ _ _ _ h => by cases h; exact ⟨by decide, by decide, rfl⟩
theorem Codes.fexp2 (x0 : GRef) (x1 : Fields) : Codes.Statement (.fexp2 x0 x1) := fun _ _ _ _ h => by cases h; exact ⟨by decide, by decide, rfl⟩
theorem Codes.flog2 (x0 : GRef) (x1 : Fields) : Codes.Statement (.flog2 x0 x1) := fun _ _ _ _ h => by cases h; exact ⟨by decide, by decide, rfl⟩
theorem Codes.f2i (x0 : GRef) (x1 : Fields) : Codes.Statement (.f2i x0 x1) := fun _ _ _ _ h => by cases h; exact ⟨by decide, by decide, rfl⟩
theorem Codes.i2f (x0 : GRef) (x1 : Fields) : Codes.Statement (.i2f x0 x1) := fun _ _ _ _ h => by cases h; exact ⟨by decide, by decide, rfl⟩
theorem Codes.f2bf (x0 : GRef) (x1 : Fields) : Codes.Statement (.f2bf x0 x1) := fun _ _ _ _ h => by cases h; exact ⟨by decide, by decide, rfl⟩
theorem Codes.f2h (x0 : GRef) (x1 : Fields) : Codes.Statement (.f2h x0 x1) := fun _ _ _ _ h => by cases h; exact ⟨by decide, by decide, rfl⟩
theorem Codes.bf2f (x0 : GRef) (x1 : Fields) : Codes.Statement (.bf2f x0 x1) := fun _ _ _ _ h => by cases h; exact ⟨by decide, by decide, rfl⟩
theorem Codes.h2f (x0 : GRef) (x1 : Fields) : Codes.Statement (.h2f x0 x1) := fun _ _ _ _ h => by cases h; exact ⟨by decide, by decide, rfl⟩
theorem Codes.f2d (x0 : GRef) (x1 : Fields) : Codes.Statement (.f2d x0 x1) := fun _ _ _ _ h => by cases h; exact ⟨by decide, by decide, rfl⟩
theorem Codes.d2f (x0 : GRef) (x1 : Fields) : Codes.Statement (.d2f x0 x1) := fun _ _ _ _ h => by cases h; exact ⟨by decide, by decide, rfl⟩
theorem Codes.pk8 (x0 : GRef) (x1 : Fields) : Codes.Statement (.pk8 x0 x1) := fun _ _ _ _ h => by cases h; exact ⟨by decide, by decide, rfl⟩
theorem Codes.pku8 (x0 : GRef) (x1 : Fields) : Codes.Statement (.pku8 x0 x1) := fun _ _ _ _ h => by cases h; exact ⟨by decide, by decide, rfl⟩
theorem Codes.pk4 (x0 : GRef) (x1 : Fields) : Codes.Statement (.pk4 x0 x1) := fun _ _ _ _ h => by cases h; exact ⟨by decide, by decide, rfl⟩
theorem Codes.pku4 (x0 : GRef) (x1 : Fields) : Codes.Statement (.pku4 x0 x1) := fun _ _ _ _ h => by cases h; exact ⟨by decide, by decide, rfl⟩
theorem Codes.pkf4 (x0 : GRef) (x1 : Fields) : Codes.Statement (.pkf4 x0 x1) := fun _ _ _ _ h => by cases h; exact ⟨by decide, by decide, rfl⟩
theorem Codes.up8 (x0 : GRef) (x1 : Fields) : Codes.Statement (.up8 x0 x1) := fun _ _ _ _ h => by cases h; exact ⟨by decide, by decide, rfl⟩
theorem Codes.upu8 (x0 : GRef) (x1 : Fields) : Codes.Statement (.upu8 x0 x1) := fun _ _ _ _ h => by cases h; exact ⟨by decide, by decide, rfl⟩
theorem Codes.up4 (x0 : GRef) (x1 : Fields) : Codes.Statement (.up4 x0 x1) := fun _ _ _ _ h => by cases h; exact ⟨by decide, by decide, rfl⟩
theorem Codes.upu4 (x0 : GRef) (x1 : Fields) : Codes.Statement (.upu4 x0 x1) := fun _ _ _ _ h => by cases h; exact ⟨by decide, by decide, rfl⟩
theorem Codes.upf4 (x0 : GRef) (x1 : Fields) : Codes.Statement (.upf4 x0 x1) := fun _ _ _ _ h => by cases h; exact ⟨by decide, by decide, rfl⟩
theorem Codes.icmp (x0 : GRef) (x1 : Fields) : Codes.Statement (.icmp x0 x1) := fun _ _ _ _ h => by cases h; exact ⟨by decide, by decide, rfl⟩
theorem Codes.ucmp (x0 : GRef) (x1 : Fields) : Codes.Statement (.ucmp x0 x1) := fun _ _ _ _ h => by cases h; exact ⟨by decide, by decide, rfl⟩
theorem Codes.fcmp (x0 : GRef) (x1 : Fields) : Codes.Statement (.fcmp x0 x1) := fun _ _ _ _ h => by cases h; exact ⟨by decide, by decide, rfl⟩
theorem Codes.pand (x0 : GRef) (x1 : Fields) : Codes.Statement (.pand x0 x1) := fun _ _ _ _ h => by cases h; exact ⟨by decide, by decide, rfl⟩
theorem Codes.por (x0 : GRef) (x1 : Fields) : Codes.Statement (.por x0 x1) := fun _ _ _ _ h => by cases h; exact ⟨by decide, by decide, rfl⟩
theorem Codes.pxor (x0 : GRef) (x1 : Fields) : Codes.Statement (.pxor x0 x1) := fun _ _ _ _ h => by cases h; exact ⟨by decide, by decide, rfl⟩
theorem Codes.pnot (x0 : GRef) (x1 : Fields) : Codes.Statement (.pnot x0 x1) := fun _ _ _ _ h => by cases h; exact ⟨by decide, by decide, rfl⟩
theorem Codes.bra (x0 : GRef) (x1 : Fields) : Codes.Statement (.bra x0 x1) := fun _ _ _ _ h => by cases h; exact ⟨by decide, by decide, rfl⟩
theorem Codes.braAny (x0 : GRef) (x1 : Fields) : Codes.Statement (.braAny x0 x1) := fun _ _ _ _ h => by cases h; exact ⟨by decide, by decide, rfl⟩
theorem Codes.braNone (x0 : GRef) (x1 : Fields) : Codes.Statement (.braNone x0 x1) := fun _ _ _ _ h => by cases h; exact ⟨by decide, by decide, rfl⟩
theorem Codes.braEmpty (x0 : GRef) (x1 : Fields) : Codes.Statement (.braEmpty x0 x1) := fun _ _ _ _ h => by cases h; exact ⟨by decide, by decide, rfl⟩
theorem Codes.call (x0 : GRef) (x1 : Fields) : Codes.Statement (.call x0 x1) := fun _ _ _ _ h => by cases h; exact ⟨by decide, by decide, rfl⟩
theorem Codes.callr (x0 : GRef) (x1 : Fields) : Codes.Statement (.callr x0 x1) := fun _ _ _ _ h => by cases h; exact ⟨by decide, by decide, rfl⟩
theorem Codes.ret (x0 : GRef) (x1 : Fields) : Codes.Statement (.ret x0 x1) := fun _ _ _ _ h => by cases h; exact ⟨by decide, by decide, rfl⟩
theorem Codes.push (x0 : GRef) (x1 : Fields) : Codes.Statement (.push x0 x1) := fun _ _ _ _ h => by cases h; exact ⟨by decide, by decide, rfl⟩
theorem Codes.elseM (x0 : GRef) (x1 : Fields) : Codes.Statement (.elseM x0 x1) := fun _ _ _ _ h => by cases h; exact ⟨by decide, by decide, rfl⟩
theorem Codes.brk (x0 : GRef) (x1 : Fields) : Codes.Statement (.brk x0 x1) := fun _ _ _ _ h => by cases h; exact ⟨by decide, by decide, rfl⟩
theorem Codes.reconv (x0 : GRef) (x1 : Fields) : Codes.Statement (.reconv x0 x1) := fun _ _ _ _ h => by cases h; exact ⟨by decide, by decide, rfl⟩
theorem Codes.pop (x0 : GRef) (x1 : Fields) : Codes.Statement (.pop x0 x1) := fun _ _ _ _ h => by cases h; exact ⟨by decide, by decide, rfl⟩
theorem Codes.barAll (x0 : GRef) (x1 : Fields) : Codes.Statement (.barAll x0 x1) := fun _ _ _ _ h => by cases h; exact ⟨by decide, by decide, rfl⟩
theorem Codes.barActive (x0 : GRef) (x1 : Fields) : Codes.Statement (.barActive x0 x1) := fun _ _ _ _ h => by cases h; exact ⟨by decide, by decide, rfl⟩
theorem Codes.wait (x0 : GRef) (x1 : Fields) : Codes.Statement (.wait x0 x1) := fun _ _ _ _ h => by cases h; exact ⟨by decide, by decide, rfl⟩
theorem Codes.exit (x0 : GRef) (x1 : Fields) : Codes.Statement (.exit x0 x1) := fun _ _ _ _ h => by cases h; exact ⟨by decide, by decide, rfl⟩
theorem Codes.trap (x0 : GRef) (x1 : Fields) : Codes.Statement (.trap x0 x1) := fun _ _ _ _ h => by cases h; exact ⟨by decide, by decide, rfl⟩
theorem Codes.nop (x0 : GRef) (x1 : Fields) : Codes.Statement (.nop x0 x1) := fun _ _ _ _ h => by cases h; exact ⟨by decide, by decide, rfl⟩
theorem Codes.instructionFetch (x0 : GRef) : Codes.Statement (.instructionFetch x0) := fun _ _ _ _ h => nomatch h
theorem Codes.ldL (x0 : GRef) (x1 : Fields) : Codes.Statement (.ldL x0 x1) := fun _ _ _ _ h => by cases h; exact ⟨by decide, by decide, rfl⟩
theorem Codes.stL (x0 : GRef) (x1 : Fields) : Codes.Statement (.stL x0 x1) := fun _ _ _ _ h => by cases h; exact ⟨by decide, by decide, rfl⟩
theorem Codes.ldS (x0 : GRef) (x1 : Fields) : Codes.Statement (.ldS x0 x1) := fun _ _ _ _ h => by cases h; exact ⟨by decide, by decide, rfl⟩
theorem Codes.fillL (x0 : GRef) (x1 : Fields) : Codes.Statement (.fillL x0 x1) := fun _ _ _ _ h => by cases h; exact ⟨by decide, by decide, rfl⟩
theorem Codes.ldH (x0 : GRef) (x1 : Fields) : Codes.Statement (.ldH x0 x1) := fun _ _ _ _ h => by cases h; exact ⟨by decide, by decide, rfl⟩
theorem Codes.stH (x0 : GRef) (x1 : Fields) : Codes.Statement (.stH x0 x1) := fun _ _ _ _ h => by cases h; exact ⟨by decide, by decide, rfl⟩
theorem Codes.mma (x0 : GRef) (x1 : Fields) : Codes.Statement (.mma x0 x1) := fun _ _ _ _ h => by cases h; exact ⟨by decide, by decide, rfl⟩
theorem Codes.msmax (x0 : GRef) (x1 : Fields) : Codes.Statement (.msmax x0 x1) := fun _ _ _ _ h => by cases h; exact ⟨by decide, by decide, rfl⟩
theorem Codes.mred (x0 : GRef) (x1 : Fields) : Codes.Statement (.mred x0 x1) := fun _ _ _ _ h => by cases h; exact ⟨by decide, by decide, rfl⟩
theorem Codes.send (x0 : GRef) (x1 : Fields) : Codes.Statement (.send x0 x1) := fun _ _ _ _ h => by cases h; exact ⟨by decide, by decide, rfl⟩
theorem Codes.recv (x0 : GRef) (x1 : Fields) : Codes.Statement (.recv x0 x1) := fun _ _ _ _ h => by cases h; exact ⟨by decide, by decide, rfl⟩
theorem Codes.slotLock (x0 : GRef) (x1 : Fields) : Codes.Statement (.slotLock x0 x1) := fun _ _ _ _ h => by cases h; exact ⟨by decide, by decide, rfl⟩
theorem Codes.slotLd (x0 : GRef) (x1 : Fields) : Codes.Statement (.slotLd x0 x1) := fun _ _ _ _ h => by cases h; exact ⟨by decide, by decide, rfl⟩
theorem Codes.slotSt (x0 : GRef) (x1 : Fields) : Codes.Statement (.slotSt x0 x1) := fun _ _ _ _ h => by cases h; exact ⟨by decide, by decide, rfl⟩
theorem Codes.slotUnlock (x0 : GRef) (x1 : Fields) : Codes.Statement (.slotUnlock x0 x1) := fun _ _ _ _ h => by cases h; exact ⟨by decide, by decide, rfl⟩
theorem Codes.tid (x0 : GRef) (x1 : Fields) : Codes.Statement (.tid x0 x1) := fun _ _ _ _ h => by cases h; exact ⟨by decide, by decide, rfl⟩
theorem Codes.amask (x0 : GRef) (x1 : Fields) : Codes.Statement (.amask x0 x1) := fun _ _ _ _ h => by cases h; exact ⟨by decide, by decide, rfl⟩
theorem Codes.v2u (x0 : GRef) (x1 : Fields) : Codes.Statement (.v2u x0 x1) := fun _ _ _ _ h => by cases h; exact ⟨by decide, by decide, rfl⟩
theorem Codes.u2v (x0 : GRef) (x1 : Fields) : Codes.Statement (.u2v x0 x1) := fun _ _ _ _ h => by cases h; exact ⟨by decide, by decide, rfl⟩
theorem Codes.shfl (x0 : GRef) (x1 : Fields) : Codes.Statement (.shfl x0 x1) := fun _ _ _ _ h => by cases h; exact ⟨by decide, by decide, rfl⟩
theorem Codes.vote (x0 : GRef) (x1 : Fields) : Codes.Statement (.vote x0 x1) := fun _ _ _ _ h => by cases h; exact ⟨by decide, by decide, rfl⟩
theorem Codes.blkRungWrite (x0 : Word) : Codes.Statement (.blkRungWrite x0) := fun _ _ _ _ h => nomatch h
theorem Codes.blockRungEntry : Codes.Statement .blockRungEntry := fun _ _ _ _ h => nomatch h
theorem Codes.blockWake (x0 : Wake) : Codes.Statement (.blockWake x0) := fun _ _ _ _ h => nomatch h
theorem Codes.dstRungWrite (x0 : Dist) (x1 : Word) : Codes.Statement (.dstRungWrite x0 x1) := fun _ _ _ _ h => nomatch h
theorem Codes.districtRungEntry (x0 : Dist) : Codes.Statement (.districtRungEntry x0) := fun _ _ _ _ h => nomatch h
theorem Codes.districtQuietWake (x0 : Dist) : Codes.Statement (.districtQuietWake x0) := fun _ _ _ _ h => nomatch h
theorem Codes.coldReset (x0 : ColdCause) (x1 : Straps) : Codes.Statement (.coldReset x0 x1) := fun _ _ _ _ h => nomatch h
theorem Codes.blkWarm : Codes.Statement .blkWarm := fun _ _ _ _ h => nomatch h
theorem Codes.fabricReset : Codes.Statement .fabricReset := fun _ _ _ _ h => nomatch h
theorem Codes.warmReset : Codes.Statement .warmReset := fun _ _ _ _ h => nomatch h
theorem Codes.startup (x0 : StartEnv) : Codes.Statement (.startup x0) := fun _ _ _ _ h => nomatch h
theorem Codes.districtReset (x0 : Dist) (x1 : Bool) (x2 : Bool) : Codes.Statement (.districtReset x0 x1 x2) := fun _ _ _ _ h => nomatch h
theorem Codes.portReset (x0 : Port) (x1 : Bool) (x2 : StackEnv) : Codes.Statement (.portReset x0 x1 x2) := fun _ _ _ _ h => nomatch h
theorem Codes.hostLinkReset (x0 : Bool) (x1 : LinkEnv) : Codes.Statement (.hostLinkReset x0 x1) := fun _ _ _ _ h => nomatch h
theorem Codes.twinLinkReset (x0 : Bool) : Codes.Statement (.twinLinkReset x0) := fun _ _ _ _ h => nomatch h
theorem Codes.pokMainRise : Codes.Statement .pokMainRise := fun _ _ _ _ h => nomatch h
theorem Codes.twnModeWrite (x0 : Word) : Codes.Statement (.twnModeWrite x0) := fun _ _ _ _ h => nomatch h
theorem Codes.takeover : Codes.Statement .takeover := fun _ _ _ _ h => nomatch h
theorem Codes.fence : Codes.Statement .fence := fun _ _ _ _ h => nomatch h
theorem Codes.beaconRingExpiry : Codes.Statement .beaconRingExpiry := fun _ _ _ _ h => nomatch h
theorem Codes.handoff (x0 : Bid) : Codes.Statement (.handoff x0) := fun _ _ _ _ h => nomatch h
theorem Codes.sideReturn : Codes.Statement .sideReturn := fun _ _ _ _ h => nomatch h
theorem Codes.twinIdent (x0 : TwinHdr) (x1 : TwinIdentRec) : Codes.Statement (.twinIdent x0 x1) := fun _ _ _ _ h => nomatch h
theorem Codes.twinBeacon (x0 : TwinHdr) : Codes.Statement (.twinBeacon x0) := fun _ _ _ _ h => nomatch h
theorem Codes.twinQrec (x0 : TwinHdr) (x1 : QueRec) : Codes.Statement (.twinQrec x0 x1) := fun _ _ _ _ h => nomatch h
theorem Codes.twinEntry (x0 : TwinHdr) (x1 : BitVec 14) (x2 : List Byte) : Codes.Statement (.twinEntry x0 x1 x2) := fun _ _ _ _ h => nomatch h
theorem Codes.twinState (x0 : TwinHdr) (x1 : BitVec 14) (x2 : TwinStateRec) : Codes.Statement (.twinState x0 x1 x2) := fun _ _ _ _ h => nomatch h
theorem Codes.twinRetire (x0 : TwinHdr) (x1 : BitVec 14) : Codes.Statement (.twinRetire x0 x1) := fun _ _ _ _ h => nomatch h
theorem Codes.twinHandoff (x0 : TwinHdr) (x1 : BitVec 14) : Codes.Statement (.twinHandoff x0 x1) := fun _ _ _ _ h => nomatch h
theorem Codes.twinSealed (x0 : TwinHdr) (x1 : Que) (x2 : Word) : Codes.Statement (.twinSealed x0 x1 x2) := fun _ _ _ _ h => nomatch h
theorem Codes.twinRung (x0 : TwinHdr) (x1 : BitVec 3) : Codes.Statement (.twinRung x0 x1) := fun _ _ _ _ h => nomatch h
theorem Codes.twinReset (x0 : TwinHdr) : Codes.Statement (.twinReset x0) := fun _ _ _ _ h => nomatch h
theorem Codes.twinResync (x0 : TwinHdr) : Codes.Statement (.twinResync x0) := fun _ _ _ _ h => nomatch h
theorem Codes.twinReturn (x0 : TwinHdr) (x1 : Fin 2) (x2 : BitVec 64) : Codes.Statement (.twinReturn x0 x1 x2) := fun _ _ _ _ h => nomatch h
theorem Codes.twinAck (x0 : TwinHdr) (x1 : TwinAckKind) : Codes.Statement (.twinAck x0 x1) := fun _ _ _ _ h => nomatch h
theorem Codes.voltageAckFall : Codes.Statement .voltageAckFall := fun _ _ _ _ h => nomatch h
theorem Codes.hlRefclkArrival : Codes.Statement .hlRefclkArrival := fun _ _ _ _ h => nomatch h
theorem Codes.testPortInstruction (x0 : TestPort) (x1 : BitVec 4) (x2 : List Nat) : Codes.Statement (.testPortInstruction x0 x1 x2) := fun _ _ _ _ h => nomatch h
theorem Codes.testModeRise : Codes.Statement .testModeRise := fun _ _ _ _ h => nomatch h
theorem Codes.hostLinkL1Entry : Codes.Statement .hostLinkL1Entry := fun _ _ _ _ h => nomatch h
theorem Codes.linkStateExit (x0 : Bool) : Codes.Statement (.linkStateExit x0) := fun _ _ _ _ h => nomatch h
theorem Codes.registerRead (x0 : BitVec 20) : Codes.Statement (.registerRead x0) := fun _ _ _ _ h => nomatch h

end Sys2Proof.Laws
end

