-- ==== Sys2Proof/Tests/Slice0.lean ====
section
/-! SUPPORT. The model's own tests: words of core instructions, ill-formed commands, the spec's worked examples, and for every statement
with hypotheses a state that meets them (`meets_…`). -/

namespace Sys2Proof.Tests

set_option Elab.async false

open Sys2Proof.Machine

/-! ## Small states -/

/-- The block up, at Ready; in host memory a table of two levels that maps the first GiB to itself (R369). -/
def up : State := { State.reset with phase := .up, host := [(0, 0x09), (1, 0x10), (0x1000, 0x0F)] }

/-- A register of the state set. -/
def withReg (s : State) (off : Nat) (v : Word) : State := s.setReg off v

/-- The 128 bytes of a v2 descriptor of a kind with 64 records and flags, `REFINE` and `PASSES` 1, its input at 0x2000, its output at 0x3000 (R53). -/
def raw (kind flags : Nat) : List Byte := [BitVec.ofNat 8 (2 + 16 * kind), 0] ++ leBytes 2 (0x140 + flags) ++ leBytes 4 64 ++ zeroBytes 8 ++ leBytes 8 0x2000 ++ leBytes 8 0x3000 ++ zeroBytes 96

/-- A fetched descriptor. -/
def got (kind flags : Nat) : Fetched :=
  { raw := raw kind flags, ring := 0, entries := 1, half := false, stamped := true, fault := none, tly := none, mirrored := false }

def q0 : Que := 0
def d0 : Dist := 0
def b0 : Bid := { que := q0, seq := 0, held := false }

/-- A batch in the engine, admitted. -/
def bat (kind flags : Nat) : Batch := { up.newBatch q0 (got kind flags) 0 with st := .admitted, admitOrd := 1, checked := true }

/-- Walker 0 of a batch, in district 0. -/
def wk (x : Batch) (st : WState) : Walker := { Walker.fresh x 0 0 0 0 0 with st := st }

/-- District 0 open, with its core. -/
def dist0 : District := { District.reset with reasons := 0, drained := false }

/-- The block up with district 0 open, one admitted batch of rays, and its walker. -/
def opened (x : Batch) (w : Walker) : State := { up.setDist 0 dist0 with batches := [x], walkers := [w] }

def ray1 : State := opened (bat 0 0) (wk (bat 0 0) .queued)

def hit0 : Hit :=
  { t := 0, prim := 0, inst := 0, iuser := 0, kind := 0, b1 := 0, b2 := 0, front := true, recA := 0, luser := 0, ctx := 0,
    fl := { opq := false, noAnyhit := false, noCull := false } }

def inv0 : Invocation := { entry := 0, prog := 1, bid := b0, idx := 0, gen := 0, cls := 0, hit := hit0 }

/-- A group of two threads, thread 0 active, that has fetched a word. -/
def grp (w : BitVec 64) : Group :=
  { Group.blank inv0 with codeLen := 4096, nreg := 64, localK := 4, active := 1, live := 3, launch := 3, ir := some w, uregs := (List.range 64).map (fun n => (n, 0)), preds := [(0, 1), (1, 0)], invs := [inv0, { inv0 with idx := 1 }] }

def gr : GRef := ⟨0, 0⟩

/-- A group at the front of its stream. -/
def at0 (g : Group) : State := ray1.putGroup 0 0 g

/-- Fields that suit every register form: numbers that are multiples of 4, each below NREG. -/
def f0 : Fields := { typ := 0, ua := false, ib := false, ud := false, dst := 4, sa := 8, sb := 12, sc := 16, imm := 0 }

/-! ## Words (R235, R237), by hand from the layout: `CLASS` 63-60, `OP` 59-54, `TYPE` 53-51, `UA` 50, `IB` 49, `UD` 48, `DST` 47-40, `SA` 39-32, `SB` 31-24,
`SC` 23-16, `IMM16` 15-0 -/

/-- The example of the chapter on instruction words: FFMA v40, v41, 2.0, v42. -/
theorem test_word_ffma : decodeCore gr 0x10C22829002A4000
    = some (.ffma gr { typ := 0, ua := false, ib := true, ud := false, dst := 0x28, sa := 0x29, sb := 0, sc := 0x2A, imm := 0x4000 }) := by decide +kernel
theorem test_word_ffma_back : encodeCore (.ffma gr { typ := 0, ua := false, ib := true, ud := false, dst := 0x28, sa := 0x29, sb := 0, sc := 0x2A, imm := 0x4000 })
    = some (gr, 0x10C22829002A4000) := by decide +kernel
theorem test_word_urem : decodeCore gr 0x0504010203000000
    = some (.urem gr { typ := 0, ua := true, ib := false, ud := false, dst := 1, sa := 2, sb := 3, sc := 0, imm := 0 }) := by decide +kernel
theorem test_word_flog2 : decodeCore gr 0x13D0010200000000
    = some (.flog2 gr { typ := 2, ua := false, ib := false, ud := false, dst := 1, sa := 2, sb := 0, sc := 0, imm := 0 }) := by decide +kernel
theorem test_word_upf4 : decodeCore gr 0x2478010200000000
    = some (.upf4 gr { typ := 7, ua := false, ib := false, ud := false, dst := 1, sa := 2, sb := 0, sc := 0, imm := 0 }) := by decide +kernel
theorem test_word_pnot : decodeCore gr 0x32C0010000000000
    = some (.pnot gr { typ := 0, ua := false, ib := false, ud := false, dst := 1, sa := 0, sb := 0, sc := 0, imm := 0 }) := by decide +kernel
theorem test_word_nop : decodeCore gr 0x47C0000000000000
    = some (.nop gr { typ := 0, ua := false, ib := false, ud := false, dst := 0, sa := 0, sb := 0, sc := 0, imm := 0 }) := by decide +kernel
theorem test_word_stH : decodeCore gr 0x51600002030000F8
    = some (.stH gr { typ := 4, ua := false, ib := false, ud := false, dst := 0, sa := 2, sb := 3, sc := 0, imm := 0xF8 }) := by decide +kernel
theorem test_word_mred : decodeCore gr 0x6098000100000040
    = some (.mred gr { typ := 3, ua := false, ib := false, ud := false, dst := 0, sa := 1, sb := 0, sc := 0, imm := 0x40 }) := by decide +kernel
theorem test_word_recv : decodeCore gr 0x7040050600000007
    = some (.recv gr { typ := 0, ua := false, ib := false, ud := false, dst := 5, sa := 6, sb := 0, sc := 0, imm := 7 }) := by decide +kernel
theorem test_word_slotUnlock : decodeCore gr 0x80C0000000000000
    = some (.slotUnlock gr { typ := 0, ua := false, ib := false, ud := false, dst := 0, sa := 0, sb := 0, sc := 0, imm := 0 }) := by decide +kernel
theorem test_word_vote : decodeCore gr 0x9141020000010000
    = some (.vote gr { typ := 0, ua := false, ib := false, ud := true, dst := 2, sa := 0, sb := 0, sc := 1, imm := 0 }) := by decide +kernel
/-- Operations that no class lists, and the classes from 10 up (R237). -/
theorem test_word_none : decodeCore gr 0x0540000000000000 = none ∧ decodeCore gr 0x41C0000000000000 = none ∧ decodeCore gr 0xA000000000000000 = none
    ∧ decodeCore gr 0xF000000000000000 = none := by decide +kernel

/-! ## Ill-formed commands -/

theorem smoke_transfer : (Instr.apertureRead ⟨0, 0⟩ 0).wf = false ∧ (Instr.apertureRead ⟨0, 0⟩ 257).wf = false ∧ (Instr.apertureRead ⟨0, 0⟩ 256).wf = true
    ∧ (Instr.apertureWrite ⟨0, 0⟩ []).wf = false := by decide +kernel
theorem smoke_host_data : (Instr.hostReadData 0 []).wf = false ∧ (Instr.hostReadData (2 ^ 52 - 1) [0, 0]).wf = false
    ∧ (Instr.hostReadData (2 ^ 52 - 1) [0]).wf = true := by decide +kernel
theorem smoke_malformed : (Instr.regAccessMalformed 0x40 4 true).wf = false ∧ (Instr.regAccessMalformed 0x42 4 true).wf = true
    ∧ (Instr.regAccessMalformed 0x100000 4 false).wf = true ∧ (Instr.regAccessMalformed 0x40 8 false).wf = true := by decide +kernel
theorem smoke_aligned : (Instr.registerRead 0x41).wf = false ∧ (Instr.registerWrite 0x42 0).wf = false ∧ (Instr.rcRead 0x43 true).wf = false
    ∧ (Instr.registerRead 0x44).wf = true := by decide +kernel
theorem smoke_page : (Instr.pgCtlWrite 0x10 0).wf = false ∧ (Instr.pgLockWrite 0x0F 0).wf = true ∧ (Instr.pgSnap 0x3F).wf = false ∧ (Instr.injectArm 0x20 0).wf = false
    ∧ (Instr.injectArm 0xFF 0).wf = true := by decide +kernel
theorem smoke_account : (Instr.grantAdd true 4).wf = false ∧ (Instr.grantSet true 3).wf = true ∧ (Instr.grantAdd false 0xFFF).wf = true := by decide +kernel
theorem smoke_fill : (Instr.stackFill 0 0 32).wf = false ∧ (Instr.stackFill 0 0 64).wf = true := by decide +kernel
theorem smoke_link : (Instr.hostLinkReset false { modules := 9, rate := 0 }).wf = false ∧ (Instr.hostLinkReset false { modules := 8, rate := 4 }).wf = false
    ∧ (Instr.hostLinkReset false { modules := 8, rate := 3 }).wf = true := by decide +kernel
theorem smoke_entry : (Instr.twinEntry ⟨0, true⟩ 0 (zeroBytes 64)).wf = false ∧ (Instr.twinEntry ⟨0, true⟩ 0 (zeroBytes 160)).wf = true := by decide +kernel
theorem smoke_fails : (Instr.testPortInstruction .jtag 1 [136]).wf = false ∧ (Instr.testPortInstruction .jtag 1 [135]).wf = true := by decide +kernel
theorem smoke_startup : (Instr.startup { failed := [], stripFail := false, ports := [], link := { modules := 0, rate := 0 }, twinTrains := true }).wf = false := by decide +kernel

/-! ## Worked examples of the spec -/

/-- R490's example: treelet 0x4123 lies in lot 733 and set 5,871; with every district open its owner is 93. -/
theorem test_hash_example : tidHash 0x4123 = 0xB77D9D4B ∧ tidLot 0x4123 = 733 ∧ tidSet 0x4123 = 5871 ∧ lotOwnerOf (fun _ => true) 733 = some 93
    ∧ mapHolder 0x4123 = 91 := by decide +kernel

/-! ## Core instructions: states that meet the hypotheses -/

/-- A word of a class and an operation at the front, in fields `f`. -/
abbrev fr (c o : Nat) (f : Fields) : Prop := (at0 (grp (insWord c o f))).fronts gr c o f (grp (insWord c o f))

theorem meets_int : ∀ o < 0x15, fr 0 o f0 := by decide +kernel
theorem meets_flt : ∀ o < 0x10, fr 1 o f0 := by decide +kernel
theorem meets_cvt : ∀ o < 0x12, fr 2 o f0 := by decide +kernel
theorem meets_cmp : ∀ o ∈ [0x00, 0x01, 0x02, 0x08, 0x09, 0x0A, 0x0B], fr 3 o f0 := by decide +kernel
theorem meets_spc : ∀ o < 0x06, fr 9 o f0 := by decide +kernel
/-- A group with no thread of its two left waiting, at a barrier with all of them active. -/
def whole (w : BitVec 64) : Group := { grp w with active := 3 }
theorem meets_ctl : (∀ o ∈ [0x00, 0x01, 0x02, 0x03, 0x04, 0x05, 0x06, 0x08, 0x09, 0x0A, 0x0B, 0x0C, 0x10, 0x11, 0x12, 0x18, 0x19, 0x1F], fr 4 o f0)
    ∧ (grp 0).badTarget ((grp 0).ureg f0.sa.toNat).toNat = false ∧ (grp 0).badTarget ((grp 0).ureg 63).toNat = false ∧ (at0 (grp 0)).unfinished (grp 0) = false
    ∧ (grp 0).counter (f0.imm.toNat % 4) ≤ f0.imm.toNat / 4 % 64
    ∧ (at0 (whole (insWord 4 0x10 f0))).fronts gr 4 0x10 f0 (whole (insWord 4 0x10 f0)) ∧ (whole 0).active = (whole 0).launch := by
  decide +kernel
/-- The last call to a good target, and the first bad ones: one below `CODE_LEN`, at it, and not a multiple of 8. -/
theorem meets_targets : (grp 0).badTarget 4088 = false ∧ (grp 0).badTarget 4096 = true ∧ (grp 0).badTarget 4084 = true := by decide +kernel
/-- A group with 15, 16 and one mask on its stack (R240, R241). -/
def stacked (n : Nat) (w : BitVec 64) : Group := { grp w with mstack := List.replicate n { outer := 3, pend := 2 } }
theorem meets_stack : (at0 (stacked 15 (insWord 4 8 f0))).fronts gr 4 8 f0 (stacked 15 (insWord 4 8 f0))
    ∧ (at0 (stacked 16 (insWord 4 8 f0))).fronts gr 4 8 f0 (stacked 16 (insWord 4 8 f0))
    ∧ (∀ o ∈ [0x09, 0x0A, 0x0B, 0x0C], (at0 (stacked 1 (insWord 4 o f0))).fronts gr 4 o f0 (stacked 1 (insWord 4 o f0)))
    ∧ f0.imm.toNat % 16 < (stacked 1 0).mstack.length ∧ (stacked 0 0).mstack = [] ∧ (stacked 0 0).mstack.length ≤ f0.imm.toNat % 16 := by decide +kernel
/-- Instructions whose group has no active thread (R239). -/
abbrev idle (c o : Nat) (f : Fields) : Prop :=
  (at0 { grp (insWord c o f) with active := 0 }).fronts gr c o f { grp (insWord c o f) with active := 0 }
theorem meets_idle : ∀ p ∈ [(0, 0x00), (1, 0x00), (2, 0x00), (3, 0x08), (5, 0x00), (5, 0x01), (5, 0x02), (5, 0x04), (5, 0x05), (7, 0x00), (7, 0x01), (8, 0x00),
    (8, 0x03), (9, 0x00), (9, 0x01), (9, 0x05)], idle p.1 p.2 f0 := by decide +kernel
theorem meets_idle_slots : idle 8 0x01 { f0 with typ := 2 } ∧ idle 8 0x02 { f0 with typ := 4 } ∧ idle 5 0x03 { f0 with imm := 64 } := by decide +kernel

/-! ### Memory, messages, slots -/

/-- Fields of an access whose uniform address is 0. -/
def fu : Fields := { f0 with ua := true }
theorem meets_local : fr 5 0x00 fu ∧ fr 5 0x01 fu
    ∧ (∀ j ∈ (grp 0).threads, (grp 0).inside ((grp 0).localAt fu j) (memBytes fu.typ.toNat) (memBytes fu.typ.toNat) = true)
    ∧ (∀ j ∈ (grp 0).threads, (grp 0).readWaits (((grp 0).localAt fu j).toNat, memBytes fu.typ.toNat) = false)
    ∧ (∀ j ∈ (grp 0).threads, (grp 0).writeWaits (((grp 0).localAt fu j).toNat, memBytes fu.typ.toNat) = false)
    ∧ (grp 0).badLocal (overlaps ((grp 0).threads.map (fun j => (((grp 0).localAt fu j).toNat, memBytes fu.typ.toNat)))) = [] := by decide +kernel
/-- The last byte of the allocation, the first outside it, one below it, and a misaligned word (R246). -/
theorem meets_local_range : (grp 0).inside 4095 1 1 = true ∧ (grp 0).inside 4096 1 1 = false ∧ (grp 0).inside (-1) 1 1 = false ∧ (grp 0).inside 2 4 4 = false
    ∧ fr 5 0x00 { fu with imm := 0xFFFF } ∧ fr 5 0x01 { fu with imm := 0xFFFF }
    ∧ 0 ∈ (grp 0).threads ∧ (grp 0).inside ((grp 0).localAt { fu with imm := 0xFFFF } 0) 1 1 = false := by decide +kernel


/-- One page of the queue's root mapped, at 0x10000, writable. -/
def page0 : XcEntry := { root := rootTag (bidRoot b0), va := 0, size := 4096, pa := 0x10000, w := true }
/-- A region that lets everything through (R79). -/
def region0 : Region := { base := 0, size := 16, flags := 0x1F, bitmap := 0 }
/-- As `at0`, with a port of scene memory, a page of host memory and a batch of an accumulating kind. -/
def slotBat : Batch := { bat 0 0 with desc := { (bat 0 0).desc with submode := 2, slotAddr := 0 }, regions := [region0] }
def slotWk : Walker := wk slotBat .inProgram
def at1 (g : Group) : State := { opened slotBat slotWk with xc := [page0], ports := [0], capC := 2 ^ 20, regs := [(0x08040, 0x10000)], stamps := [{ bid := b0, va := 0, size := 4096, pa := 0x10000, w := true, withdrawn := false, place := 0 }] }.putGroup 0 0 g


theorem meets_scene_load : fr 5 0x02 fu
    ∧ ((at1 (grp 0)).checkThreads 0 0 (grp 0) 1 ((grp 0).threads.map (fun j => (j, (grp 0).sceneAt fu j 1 0)))).2 = some []
    ∧ ((((at1 (grp 0)).checkThreads 0 0 (grp 0) 1 ((grp 0).threads.map (fun j => (j, (grp 0).sceneAt fu j 1 0)))).1.loadThreads 0 b0 1 []
        ((grp 0).threads.map (fun j => (j, (grp 0).sceneAt fu j 1 0)))).2).isSome = true := by decide +kernel
theorem meets_fill : fr 5 0x03 { fu with ib := false, imm := 64, sb := 255 }
    ∧ (∀ j ∈ (grp 0).threads, (grp 0).inside (((grp 0).srcB { fu with sb := 255 } j).toNat : Nat) 64 64 = true) ∧ (grp 0).counter (fu.dst.toNat % 4) < 63
    ∧ (∀ j ∈ (grp 0).threads, (grp 0).writeWaits (((grp 0).srcB { fu with sb := 255 } j).toNat, 64) = false)
    ∧ ((at1 (grp 0)).checkThreads 0 0 (grp 0) 64 ((grp 0).threads.map (fun j => (j, (grp 0).sceneAt fu j 64 0)))).2 = some [] := by decide +kernel
theorem meets_host : (at1 (grp 0)).mayWrite b0 = true ∧ fr 5 0x04 fu ∧ fr 5 0x05 fu
    ∧ ((at1 (grp 0)).hostLoads 0 0 (grp 0) 1 ((grp 0).threads.map (fun j => (j, (grp 0).hostAt fu j 1)))).2.isSome = true
    ∧ ((at1 (grp 0)).hostPieces 0 0 (grp 0) fu 1 ((grp 0).threads.map (fun j => (j, (grp 0).hostAt fu j 1)))).2.isSome = true := by decide +kernel
theorem meets_messages : fr 7 0x00 fu ∧ fr 7 0x01 fu ∧ (grp 0).recvWaits fu = false := by
  decide +kernel
/-- Slot fields of one word and of four (R321). -/
def fs (y : BitVec 3) : Fields := { fu with typ := y }
theorem meets_slots : fr 8 0x00 fu ∧ fr 8 0x03 fu ∧ ((at1 (grp 0)).lockAll (grp 0)).2 = true := by decide +kernel
theorem meets_slot_loads : ∀ y ∈ [(2 : BitVec 3), 4], fr 8 0x01 (fs y) ∧ ((at1 (grp 0)).slotRead (grp 0) (fs y) 0).isSome = true := by decide +kernel
theorem meets_slot_stores : ∀ y ∈ [(2 : BitVec 3), 4], fr 8 0x02 (fs y)
    ∧ ((at1 (grp 0)).slotWrites (grp 0) (fs y) (grp 0).threads).isSome = true := by decide +kernel

/-! ### Matrix instructions, engines, `EXIT` -/

/-- A descriptor of a 1 by 1 by 1 product of two-byte elements at 64, 128 and 192 (R252). -/
def mdesc : List Byte := leBytes 4 64 ++ leBytes 4 128 ++ leBytes 4 0xFFFFFFFF ++ leBytes 4 192 ++ leBytes 2 1 ++ leBytes 2 1 ++ leBytes 2 1 ++ [5, 5, 1, 1, 0, 1]
  ++ leBytes 4 0 ++ leBytes 4 0xFFFFFFFF ++ leBytes 4 0xFFFFFFFF ++ leBytes 4 0xFFFFFFFF ++ leBytes 2 2 ++ leBytes 2 2 ++ leBytes 2 4 ++ leBytes 2 4 ++ zeroBytes 12
def mtxGrp (w : BitVec 64) : Group := { grp w with lstore := (List.range 64).map (fun n => (n, mdesc.getD n 0)) }
theorem meets_mtx : ∀ o < 3,
    (at0 (mtxGrp (insWord 6 o fu))).fronts gr 6 o fu (mtxGrp (insWord 6 o fu)) ∧ (mtxGrp 0).inside (localOff ((mtxGrp 0).srcA fu 0) fu.imm) 64 1 = true
    ∧ (mtxGrp 0).readWaits (0, 64) = false ∧ (mtxGrp 0).counter 0 < 63 ∧ (mtxGrp 0).mtx.length < 8 ∧ (mtxGrp 0).badLocal (overlap (0, 64)) = []
    ∧ (mtxGrp 0).lbytes 0 64 = mdesc ∧ (mdescOf mdesc).empty o = false ∧ mdescBad o mdesc (mdescOf mdesc) (mtxGrp 0).room = false
    ∧ (mtxInputs o (mdescOf mdesc)).any (mtxGrp 0).readWaits = false ∧ (mtxOutputs o (mdescOf mdesc)).any (mtxGrp 0).writeWaits = false := by decide +kernel
/-- A group that has a fill and a matrix instruction outstanding, and its next word still to fetch. -/
def engGrp : Group := { mtxGrp 0 with
  ir := none, fills := [{ copies := [(0, 0, false)], size := 64, ctr := 0 }], mtx := [{ op := 0, typ := 0, desc := mdesc, off := 0, pc := 0, ctr := 0, ord := 0 }] }
theorem meets_engines : (at1 engGrp).coreOn 0 = true ∧ (at1 engGrp).group 0 0 = some engGrp ∧ (at1 engGrp).heldGroup 0 engGrp = false ∧ engGrp.pc < engGrp.codeLen
    ∧ regionsAllow ((at1 engGrp).regionsOf b0) Region.program (engGrp.img + 64 + engGrp.pc) 8 = true ∧ ((at1 engGrp).deskBytes 0 (engGrp.img + 64 + engGrp.pc) 8).2 = (zeroBytes 8, false)
    ∧ knownOp (wordClass 0) (wordOp 0) = true ∧ ((at1 engGrp).fillCopies 0 engGrp 64 [(0, 0, false)]).2.isSome = true ∧ ((at1 engGrp).dist 0).tile = some 0
    ∧ engGrp.nanPend = [] ∧ (at1 engGrp).tileFirst 0 (tileKey 0 0) = true ∧ (at1 engGrp).armed (Fld.dstInjectTile 0) = false := by decide +kernel
theorem meets_exit : fr 4 0x18 f0 ∧ (grp 0).exitWaits = false ∧ (at0 (grp 0)).emitStalls (grp 0) = false ∧ (grp 0).exited.live ≠ 0 ∧ (whole 0).exited.live = 0 ∧ (whole 0).exitWaits = false := by decide +kernel

/-! ## The window -/

theorem meets_reads : (regAt 0x00040).rc = 0 ∧ ownRead 0x00040 = false ∧ windowData 0x00040 = false ∧ up.parBad = [] ∧ up.opensRead 0x00040 = true
    ∧ (regAt 0x00008).rc ≠ 0 ∧ up.opensRead 0x00008 = true ∧ (∀ d, pageOf (offPage 0x00008) = some (.dst, d) → (up.dist d).inReset = false) ∧ up.opensRead (0x04100 + 4 * 7) = true ∧ up.pageBad 4 = false
    ∧ SMap.get 0 up.tallyErr (up.rd Fld.tlyIndexIndex * 4 + 3) = 0 ∧ up.opensRead 0x0305C = true ∧ up.pageBad 3 = false ∧ up.flag Fld.chBalSelKind = false
    ∧ (up.wr Fld.chBalSelKind 1).flag Fld.chBalSelKind = true ∧ (up.wr Fld.chBalSelKind 1).opensRead 0x0305C = true ∧ up.readHeld (offPage 0x100000) = false := by
  refine ⟨by decide +kernel, by decide +kernel, by decide +kernel, rfl, by decide +kernel, by decide +kernel, by decide +kernel, ?_, by decide +kernel⟩
  intro d h; simp [offPage, pageOf] at h
/-- R467: page 3 locked whole by its `PG_LOCK`. -/
def locked3 : State := { up.setReg 0x0301C 0xFFFFFFFF with locked := [3] }
theorem meets_writes : ownCommand 0x03050 5 = false ∧ notStored 0x03050 5 = false ∧ up.opens 0x03050 = true ∧ pageOf 3 = some (.ch, 0) ∧ PageKind.district .ch = false ∧ (regAt 0x03050).rw ≠ 0
    ∧ up.armed ⟨3 * 0x1000 + 0x010, 31, 31⟩ = false ∧ up.opens (3 * 0x1000 + 0x004) = true ∧ up.opens (pageReg .dst 0 0x004) = true ∧ up.flag (Fld.crcCheck 0x40) = false
    ∧ up.opens (3 * 0x1000 + 0x01C) = true ∧ 3 ∉ up.locked ∧ locked3.opens (3 * 0x1000 + 0x01C) = true ∧ 3 ∈ locked3.locked ∧ up.opens (3 * 0x1000 + 0x010) = true
    ∧ locked3.serveWrite 0x03050 = .yes ∧ locked3.armed Fld.errInjectHlProtocol = false ∧ locked3.armed Fld.errInjectLockWrite = false ∧ locked3.lockedReg 0x03050 = true := by decide +kernel
theorem meets_captures : up.opens 0x0F048 = true ∧ up.pageBad 15 = false ∧ up.opens 0x0F04C = true ∧ up.ctrKey.isSome = true ∧ up.opens (0xFF * 0x1000 + 0x020) = true ∧ (pageOf 0xFF).isSome = true
    ∧ up.opens 0x0F040 = true ∧ up.halted .ctr = false := by decide +kernel
theorem meets_tables : up.opens (0x06100 + 4 * 3) = true ∧ up.pageBad 6 = false ∧ (up.dist (up.rd Fld.mapIndexIndex / 512)).inReset = false ∧ up.armed Fld.mapInjectTbl = false
    ∧ up.opens (0x05100 + 4 * 31) = true ∧ up.pageBad 5 = false ∧ up.armed Fld.tenInjectTbl = false ∧ up.opens 0x06044 = true ∧ up.armed ⟨0x06010, 31, 31⟩ = false := by decide +kernel

/-! ## Queues -/

/-- Queue 0 with 4 entries, its head and tail, `RUN` set. -/
def que (head tail : Nat) : State :=
  { ((((up.wr (Fld.queDepthDepth 0) 4).wr (Fld.queHeadIndex 0) head).wr (Fld.queTailIndex 0) tail).wr (Fld.queStateRun 0) 1) with xc := [page0] }
theorem meets_tail : up.opens (pageReg .que 0 0x04C) = true ∧ up.armed ⟨pageReg .que 0 0x010, 31, 31⟩ = false
    ∧ (let s := que 0 0; 3 < s.rd (Fld.queDepthDepth 0) ∧ ringCount 4 0 0 3 0 ≤ 4 ∧ s.unfetched 0 ≤ ringCount 4 0 0 3 0 ∧ s.opens (pageReg .que 0 0x04C) = true) := by decide +kernel
/-- Tails that do not fit: an index at the depth, one behind the head, one more than the ring holds (R41). -/
theorem meets_bad_tail : (que 0 0).rd (Fld.queDepthDepth 0) ≤ field 4 15 0 ∧ ((que 2 2).rd (Fld.queHeadPhase 0) = field 1 16 16 ∧ field 1 15 0 < (que 2 2).rd (Fld.queHeadIndex 0))
    ∧ (que 2 2).rd (Fld.queDepthDepth 0) < ringCount 4 2 0 (field 0x10003 15 0) (field 0x10003 16 16) := by decide +kernel
theorem meets_depth : up.opens (pageReg .que 0 0x048) = true ∧ 2 ≤ field 2 16 0 ∧ field 0x10000 16 0 ≤ 65536 ∧ field 1 16 0 = 1 ∧ 65536 < field 0x10001 16 0 := by decide +kernel
theorem meets_run : up.opens (pageReg .que 0 0x064) = true ∧ up.halted .que 0 = false ∧ 2 ≤ (que 0 0).queState 0 ∧ (que 0 0).paired = false ∧ (que 0 0).opens (pageReg .que 0 0x064) = true
    ∧ ((que 0 0).wr (Fld.queStateRun 0) 0).queState 0 < 2
    ∧ (((que 0 0).wr (Fld.queStateRun 0) 0).readVa (.que 0) (recSeal (((que 0 0).wr (Fld.queStateRun 0) 0).queRec { que := 0, seq := 0, held := false })) 8).2 = .ok (zeroBytes 8)
    ∧ (((que 0 0).wr (Fld.queStateRun 0) 0).readVa (.que 0) (recSeal (((que 0 0).wr (Fld.queStateRun 0) 0).queRec { que := 0, seq := 0, held := false })) 8).1.paired = false
    ∧ ray1.opens (pageReg .que 0 0x064) = true ∧ ray1.unsealed 0 ≠ [] ∧ up.opens (pageReg .que 0 0x060) = true ∧ up.opens (pageReg .que 0 0x070) = true := by decide +kernel
theorem meets_fetch : ((que 0 1).wr Fld.lnkStampBaseEn 1).mayFetch 0 = true ∧ SMap.find (que 0 1).fetched 0 = none ∧ (que 0 1).unfetched 0 ≠ 0 ∧ ((que 0 1).ringRead 0 0).2 = .ok (zeroBytes 64)
    ∧ ((que 0 1).tallyAlloc ((que 0 1).roomHeld + needEntries 0)).isSome = true ∧ (que 0 1).gate.room = [] ∧ 0 ∉ (que 0 1).seqWait := by decide +kernel
/-- A fetched descriptor of queue 0, stamped or not. -/
def fetched (st : Bool) : State := { (que 0 1).wr Fld.lnkStampBaseEn 1 with fetched := [(0, { got 0 0 with stamped := st })] }
theorem meets_stamping : SMap.find (fetched false).fetched 0 = some { got 0 0 with stamped := false } ∧ (fetched false).phase = .up ∧ (fetched false).flag Fld.lnkStampBaseEn = true
    ∧ (fetched false).gate.shoot = false ∧ (fetched false).batches = [] ∧ ((fetched false).stampBatch ((fetched false).nextBid 0) (descOf (raw 0 0) 0 0)).1.stamps.length ≤ stampCap ∧ (descOf (raw 0 0) 0 0).check1 = none ∧ (descOf (raw 0 0) 0 0).check3 = none
    ∧ ((fetched false).stampBatch ((fetched false).nextBid 0) (descOf (raw 0 0) 0 0)).2 = none := by decide +kernel
theorem meets_acceptance : SMap.find (fetched true).fetched 0 = some (got 0 0) ∧ (fetched true).flag Fld.twnStatusLent = false ∧ ((fetched true).tallyAlloc (needEntries (bytesLe (raw 0 0) 0 1))).isSome = true
    ∧ (fetched true).mirrored = false ∧ (fetched true).parBad = [] := by decide +kernel
theorem meets_walk : ((que 0 0).xlatePage (.que 0) 0 false).2 = .ok (0x10000, 4096) := by decide +kernel
/-- Both descriptor formats (R57). -/
theorem meets_formats : bytesLe (raw 0 0) 0 1 % 16 = 2 ∧ bytesLe (0x01 :: zeroBytes 63) 0 1 % 16 = 1 := by decide +kernel

/-! ## The Counting House and walkers -/

theorem meets_rounds : (let s : State := { up with house := { up.house with wanted := true } }; s.house.wanted = true ∧ s.running = true ∧ s.parBad = []) ∧ up.opens 0x03054 = true
    ∧ up.armed ⟨0x03010, 31, 31⟩ = false ∧ up.house.undo = none ∧ ray1.batch b0 = some (bat 0 0) ∧ (bat 0 0).st ≠ .isSealed ∧ ray1.house.undo = none := by decide +kernel
theorem meets_deal : ray1.running = true ∧ ray1.nextBatch = some (bat 0 0) ∧ (ray1.zeroReady b0).batch b0 = some (bat 0 0) ∧ (bat 0 0).st = .admitted ∧ (bat 0 0).desc.accum = false
    ∧ (ray1.zeroReady b0).house.ledger.length < 16384 ∧ (ray1.zeroReady b0).heldRoom 0 (min 64 ((bat 0 0).desc.walkers - 0)) = true ∧ (bat 0 0).desc.isProbe = false
    ∧ (ray1.zeroReady b0).dealOrder = [0] := by decide +kernel

/-- A resident copy of treelet 0. -/
def copy0 : PlotSlot := { tid := 0, st := .resident, cells := [], len := 64, poison := false, top := none, pinned := false, loaded := 0, stale := false, ch := none, bid := none, pat := 0 }
/-- District 0 with treelet 0 resident, a batch of a kind, and its walker with work at hand. -/
def busy (x : Batch) (i : WItem) : State := (opened x { wk x .queued with work := [i] }).setDist 0 { dist0 with plot := [(0, copy0)] }
def fl0 : PathFlags := hit0.fl
theorem meets_cells : (busy (bat 0 0) (.node 0 none 0 fl0)).walking 0 = true ∧ (busy (bat 0 0) (.node 0 none 0 fl0)).nextReady 0 cellItem = some { wk (bat 0 0) .queued with work := [.node 0 none 0 fl0] }
    ∧ (busy (bat 0 0) (.tri 0 [] 0 0 fl0)).nextReady 0 triItem = some { wk (bat 0 0) .queued with work := [.tri 0 [] 0 0 fl0] }
    ∧ (busy (bat 2 0) (.pnode 0 none)).nextProbe 0 = some { wk (bat 2 0) .queued with work := [.pnode 0 none] }
    ∧ (busy (bat 2 0) (.pnode 0 none)).armed (Fld.dstInjectStep 0) = false ∧ (busy (bat 2 0) (.pnode 0 none)).armed (Fld.dstInjectTile 0) = false
    ∧ ((busy (bat 2 0) (.pnode 0 none)).dist 0).tile = some 0 ∧ (busy (bat 2 0) (.pnode 0 none)).tileFirst 0 (tileKey 0 0) = true ∧ (bat 0 0).stop = false ∧ (bat 0 0).status = none := by decide +kernel
/-- A message that has reached district 0. -/
def msg (b : Payload) : Msg := { lane := .request, src := 1, dst := 0, here := 0, replays := 0, via := none, seq := 0, body := b }
def mail (x : Batch) (b : Payload) : State := { opened x (wk x .inTransit) with msgs := [msg b] }
theorem meets_mail : (mail (bat 0 0) (.walker b0 0 0 0 0)).gets d0 0 (msg (.walker b0 0 0 0 0)) ∧ (mail (bat 0 0) (.walker b0 0 0 0 0)).isOpen 0 = true ∧ (mail (bat 0 0) (.walker b0 0 0 0 0)).active = true
    ∧ (((mail (bat 0 0) (.walker b0 0 0 0 0)).dropMsg (msg (.walker b0 0 0 0 0))).wakeDist 0).walker b0 0 0 = some (wk (bat 0 0) .inTransit)
    ∧ (mail (bat 0 0) (.lookupReply 5 0 none)).gets d0 2 (msg (.lookupReply 5 0 none)) ∧ (mail (bat 2 0) (.candidates b0 0 0 0 [])).gets d0 3 (msg (.candidates b0 0 0 0 []))
    ∧ (mail (bat 2 0) (.tau b0 0 0 0)).gets d0 4 (msg (.tau b0 0 0 0)) ∧ (mail (bat 2 0) (.endNotice b0 0 0 0 0)).gets d0 5 (msg (.endNotice b0 0 0 0 0)) ∧ (mail (bat 2 0) (.tau b0 0 0 0)).heapWorks 0 = true
    ∧ (mail (bat 0 0) (.send b0 7 [1] 0 0 1)).gets d0 6 (msg (.send b0 7 [1] 0 0 1)) ∧ (mail (bat 0 0) (.sendStatus 0 0 1 true)).gets d0 7 (msg (.sendStatus 0 0 1 true)) := by decide +kernel
theorem meets_plot : ray1.walking 0 = true ∧ ray1.isOpen 0 = true
    ∧ ((ray1.setDist 0 { dist0 with plot := [(3, { copy0 with st := .loading, ch := some 1 })] }).dist 0).plot.find? (fun p => decide (p.2.st = .loading) && (decide (p.2.ch = some 1) || (decide (1 = 0) && decide (p.2.ch = none)))) = some (3, { copy0 with st := .loading, ch := some 1 })
    ∧ SMap.find ((ray1.setDist 0 { dist0 with plot := [(15, { copy0 with st := .draining })] }).dist 0).plot 15 = some { copy0 with st := .draining }
    ∧ SMap.find ((ray1.setDist 0 { dist0 with plot := [(15, { copy0 with st := .draining })] }).freeSlot 0 15).house.top (15 - 15) = none := by decide +kernel
/-- Districts 0 and 1 open, and a message from 1 to 0 that has gone no way yet, or awaits a replay. -/
def sent (via : Option Nat) (n : Nat) : State := { (ray1.setDist 1 dist0) with msgs := [{ msg .marker with here := 1, via := via, replays := n }] }
theorem meets_avenue : (sent none 0).active = true ∧ (sent none 0).msgs[0]? = some { msg .marker with here := 1 } ∧ (sent none 0).reaches 1 0 = true
    ∧ (sent none 0).movable 0 = some ({ msg .marker with here := 1 }, .west) ∧ neighbour 1 .west = some 0 ∧ (sent (some 0) 1).msgs[0]? = some { msg .marker with here := 1, via := some 0, replays := 1 }
    ∧ (sent (some 0) 2).linkOpen 1 0 = true := by decide +kernel
/-- A walker that waits for an answer of the map: its treelet's set is in district 0's share, or in another's. -/
def waits (tid : Nat) : State := opened (bat 0 0) { wk (bat 0 0) .queued with work := [.node (tid * 65536) none 0 fl0] }
theorem meets_lookup : ∀ tid ∈ [0, 0x4123], (waits tid).shareUp 0 = true
    ∧ ((waits tid).wantedTids 0).find? (fun x => decide ((waits tid).memoAns 0 x = none) && decide (x ∉ ((waits tid).dist 0).asked)) = some tid := by decide +kernel

/-! ## Results and completion -/

/-- A stamp of the whole first GiB. -/
def stamp0 : Stamp := { bid := b0, va := 0, size := 2 ^ 30, pa := 0, w := true, withdrawn := false, place := 0 }
def enters : State := { opened (bat 0 0) (wk (bat 0 0) .entering) with stamps := [stamp0] }
theorem meets_entering : enters.walking 0 = true ∧ enters.nextEntering 0 = some (wk (bat 0 0) .entering) ∧ enters.batch b0 = some (bat 0 0) := by decide +kernel
def ended (x : Batch) (st : ResStage) : State := { opened x { wk x .done with stage := st } with stamps := [stamp0] }
def run0 : LedgerRun := { bid := b0, run := 0, dist := 0, dealt := 1, done := 1, hit := 1, pack := [(0, zeroBytes 16)], place := 0 }
theorem meets_results : (ended (bat 0 1) .toWrite).active = true ∧ (ended (bat 0 1) .toWrite).doneAt 0 (ended (bat 0 1) .toWrite).packReady = [{ wk (bat 0 1) .done with stage := .toWrite }]
    ∧ (bat 0 1).desc.packs = true ∧ ({ ended (bat 0 1) .acked with house := { up.house with ledger := [run0] } } : State).house.ledger.find? (fun l => decide (l.bid = b0) && decide (l.run = 0)) = some run0
    ∧ run0.done = run0.dealt ∧ (ended (bat 0 1) .acked).mayWrite b0 = true ∧ ((ended { bat 0 1 with desc := { (bat 0 1).desc with bitmapAddr := 0x4000 } } .acked).flushWrites (bat 0 1) run0).isSome = true
    ∧ (ended (bat 0 0) .acked).doneAt 0 (fun w => decide (w.stage = .acked)) = [{ wk (bat 0 0) .done with stage := .acked }] := by decide +kernel
def contrib0 : Contrib := { bid := b0, idx := 0, slot := 1, words := [1, 2, 3, 4] }
theorem meets_contribution : (let s : State := { ended slotBat .acked with contribs := [contrib0] }; s.contribs[0]? = some contrib0 ∧ s.batch b0 = some slotBat ∧ s.mayWrite b0 = true ∧ s.locks = []
    ∧ (State.addSlot { s with contribs := s.contribs.eraseIdx 0 } slotBat 1 [1, 2, 3, 4] (.result b0 0 0)).isSome = true) := by decide +kernel
/-- Batches at the steps of completion (R71, R422). -/
def lastOf (x : Batch) : State := { ended x .acked with walkers := [] }
def finishedBat : Batch := { bat 0 0 with doneCount := 64 }
theorem meets_completion : (lastOf finishedBat).batch b0 = some finishedBat ∧ finishedBat.completable = true ∧ (lastOf finishedBat).finished finishedBat = true ∧ finishedBat.handed = false
    ∧ (lastOf finishedBat).earlier finishedBat = [] ∧ (lastOf finishedBat).mayWrite b0 = true ∧ b0.que.val ∉ (lastOf finishedBat).tallyStop ∧ ((lastOf finishedBat).tallyOk finishedBat).2 = true
    ∧ (lastOf { finishedBat with st := .completing }).hostWr = [] ∧ (lastOf { finishedBat with st := .completing }).earlier { finishedBat with st := .completing } = []
    ∧ (lastOf { finishedBat with st := .isSealed, irq := true }).mayWrite b0 = true ∧ finishedBat.wake = false ∧ ((lastOf finishedBat).reg (pageReg .que 0 0x078)).toNat % 2 ^ 20 = 0
    ∧ ((lastOf finishedBat).reg (pageReg .que 0 0x074)).toNat / 4 = 0 := by decide +kernel

/-! ## The host -/

def evt : State := { up with gate := { up.gate with evtWant := true } }
def fault0 : FaultRec := { bytes := zeroBytes 64, bid := b0, gate := true, key := 0 }
/-- The fault ring of 4 records at 0x5000. -/
def ringed : State := { (up.wr Fld.lnkFringCtlDepth 4).wr Fld.lnkFringLoAddrLo (0x5000 / 64) with faults := [fault0] }
theorem meets_events : evt.gate.evtWant = true ∧ (evt.reg 0x01074).toNat % 2 ^ 20 * 2 ^ 32 + (evt.reg 0x01070).toNat / 4 * 4 = 0
    ∧ ((evt.setReg 0x01070 0x1000).reg 0x01074).toNat % 2 ^ 20 * 2 ^ 32 + ((evt.setReg 0x01070 0x1000).reg 0x01070).toNat / 4 * 4 ≠ 0 := by decide +kernel
theorem meets_fault_ring : up.rd Fld.lnkFringCtlDepth = 0 ∧ ringed.rd Fld.lnkFringCtlDepth ≠ 0 ∧ ringed.fringFull = false ∧ ringed.hostWr = [] ∧ up.opens 0x01050 = true ∧ (up.hostSet 0x01050 1).fringFull = false
    ∧ (ringed.writeVa .gate (ringed.rd Fld.lnkFringHiAddrHi * 2 ^ 32 + ringed.rd Fld.lnkFringLoAddrLo * 64 + ringed.rd Fld.lnkFringTailIndex * 64) (zeroBytes 64) .fault).2 = .ok () := by decide +kernel
theorem meets_ack : ((up.hostWrite 0 [1] .free).hostWr)[0]? = some { pa := 0, data := [1], fr := .free, old := false } := by decide +kernel
/-- The last byte of a run of host data, and the bytes on either side. -/
theorem meets_host_data : (2 : Nat) < ([1, 2, 3] : List Byte).length ∧ 9 < (10 : Nat) ∧ 10 + ([1, 2, 3] : List Byte).length ≤ 13 := by decide +kernel
theorem meets_work : (opened { bat 3 0 with refit := true, doneCount := 64 } (wk (bat 0 0) .done)).batch b0 = some { bat 3 0 with refit := true, doneCount := 64 } ∧ (bat 3 0).desc.walkers = 64 ∧ 0 ∈ allDists
    ∧ ray1.isOpen 0 = true ∧ (ended { bat 4 0 with work := true } .acked).batch b0 = some { bat 4 0 with work := true }
    ∧ ((ended { bat 4 0 with work := true } .acked).stampRead b0 (bat 4 0).desc.inAddr 16).isSome = true := by decide +kernel

/-! ## Caches, districts, power, rungs -/

/-- One port in use, with 1 MiB. -/
def ported : State := { up with ports := [0], capC := 2 ^ 20, regs := [(0x08040, 0x10000)] }
theorem meets_ports : ported.phase = .up ∧ (ported.port 0).inResetP = false ∧ (ported.portAt 0).map (·.1) = some 0 ∧ (ported.portAt (2 ^ 20 - 64)).map (·.1) = some 0 ∧ (ported.port 0).misses = []
    ∧ ported.active = true ∧ ported.present 0 = true ∧ (ported.setReg 0x00060 0xFFFFFFFF).scOn 0 = true ∧ (ported.setReg 0x00060 0xFFFFFFFF).active = true ∧ ported.dimming = false
    ∧ (ported.port 0).scrubs < (ported.setReg 0x08050 0xFFFFFFFF).rd (Fld.stkScrubRate 0) ∧ ported.rd Fld.blkRungCurrent < 3 ∧ 2 ^ 20 - 1 + 1 ≤ ported.installed := by decide +kernel
/-- A maintenance range of 64 bytes for the host; the operation under way. -/
def ranged : State := ported.setReg 0x00080 64
theorem meets_mops : up.opens 0x00070 = true ∧ up.halted .blk = false ∧ up.flag Fld.blkMopCmdBusy = false ∧ (up.wr Fld.blkMopCmdBusy 1).flag Fld.blkMopCmdBusy = true ∧ up.resetHolds = false
    ∧ up.opens 0x00060 = true := by decide +kernel
theorem meets_enable : ∀ c ∈ [CacheSel.node, .desk, .stack 5], (let off := up.setReg 0x00060 0; off.opens 0x00060 = true ∧ off.armed Fld.errInjectEnableRefused = false ∧ off.armed ⟨0x00010, 31, 31⟩ = false
    ∧ off.flag ⟨0x00060, cacheBit c, cacheBit c⟩ = false ∧ off.invalidated c = false
    ∧ ({ off.updPort 5 (fun p => { p with invDone := true }) with gate := { off.gate with ncInv := true, dcInv := true } } : State).invalidated c = true)
    ∧ up.flag ⟨0x00060, cacheBit c, cacheBit c⟩ = true ∧ up.opens 0x00060 = true := by decide +kernel
theorem meets_districts : up.opens (pageReg .dst 0 0x040) = true ∧ up.opens (pageReg .dst 127 0x048) = true ∧ (let s := up.setDist 0 { District.reset with renewed := true }; (s.dist 0).renewed = true ∧ (s.dist 0).testFail = false
    ∧ s.opens (pageReg .dst 0 0x040) = true) ∧ (up.hostSet (pageReg .dst 0 0x048) 0).reg (pageReg .dst 0 0x048) = up.reg (pageReg .dst 0 0x048)
    ∧ (up.hostSet (pageReg .dst 0 0x048) 0x101).reg (pageReg .dst 0 0x048) ≠ up.reg (pageReg .dst 0 0x048) ∧ up.walking 0 = true ∧ up.isOpen 0 = false
    ∧ ((up.setDist 0 { District.reset with reasons := 8 }).dist 0).reasons.getLsbD 3 = true ∧ ((up.setDist 0 { District.reset with reasons := 8 }).dist 0).faultDone = false := by decide +kernel
/-- A census that waits for district 0 alone; one that waits for none. -/
def census0 (l : List Nat) : State := { ray1 with house := { ray1.house with census := some { dist := 5, waiting := l, since := 0 } }, walkers := [] }
theorem meets_census : (census0 [0]).house.census = some { dist := 5, waiting := [0], since := 0 } ∧ d0.val ∈ [0] ∧ (census0 [0]).markersIn 0 0 = true ∧ (∀ e ∈ ([] : List Nat), (census0 []).isOpen e = false)
    ∧ (census0 []).running = true ∧ (((census0 []).batches.map (·.bid)).foldl (fun u b => u.replayBatch b) (census0 []).loseStranded).stillLost = false := by decide +kernel
theorem meets_power : up.power.vreq = false ∧ up.power.vack = false ∧ up.armed Fld.pwrInjectVack = false ∧ ({ up.power with vreq := true } : Power).vreq = true ∧ ({ up.power with vack := true } : Power).vack = true
    ∧ up.power.stuck = false ∧ up.rd Fld.blkRungCurrent ≠ 4 ∧ (up.dist 0).sensFault = false ∧ ray1.walking 0 = true ∧ (at0 (grp 0)).coreOn 0 = true ∧ ((at0 (grp 0)).dist 0).core.groups ≠ []
    ∧ ((at0 (grp 0)).dist 0).core.tiles.getLsbD 1 = false ∧ ported.present 0 = true ∧ (ported.port 0).inResetP = false ∧ up.active = true ∧ up.halted .pwr = false
    ∧ up.rd Fld.pwrVsetTarget ≤ 70 ∧ up.rd Fld.pwrVsetVmin ≤ 70 ∧ (up.wr Fld.blkRungCurrent 2).rd Fld.blkRungCurrent = 2
    ∧ 16 ≤ up.rd Fld.pwrWatchVack ∧ 16 ≤ up.rd Fld.pwrWatchSensor ∧ 16 ≤ ray1.rd (Fld.dstWatchStep 0) ∧ 16 ≤ (at0 (grp 0)).rd (Fld.dstWatchCore 0) ∧ 16 ≤ ported.rd (Fld.stkWatchReq 0) ∧ 16 ≤ up.rd Fld.lnkWatchHost
    ∧ (at0 { grp 0 with mtx := [{ op := 0, typ := 0, desc := [], off := 0, pc := 0, ctr := 0, ord := 0 }] }).tileWork 0 = true ∧ (up.wr Fld.lnkWatchHost 15).rd Fld.lnkWatchHost < 16 := by decide +kernel
def rung (cur tgt : Nat) : State := (up.wr Fld.blkRungCurrent cur).wr Fld.blkRungTarget tgt
theorem meets_rungs : up.opens 0x00050 = true ∧ field 4 2 0 ≤ 4 ∧ (up.hostSet 0x00050 4).rungHeld = false ∧ (rung 0 2).rd Fld.blkRungCurrent < (rung 0 2).rd Fld.blkRungTarget ∧ (rung 0 4).dozeReady = true
    ∧ (rung 0 4).quiesced = true ∧ (rung 3 3).rd Fld.blkRungCurrent ≠ 0 ∧ ({ rung 3 3 with gate := { up.gate with held := some 0x03000 } } : State).wakeAsked .heldAccess = true
    ∧ ({ rung 1 1 with gate := { up.gate with held := some 0xC0000 } } : State).wakeAsked .quePage = true ∧ ({ rung 2 2 with gate := { up.gate with held := some 0x02000 } } : State).wakeAsked .twinMessage = true
    ∧ ({ rung 4 4 with power := { up.power with rungOut := 3 } } : State).rd Fld.blkRungCurrent = 4 ∧ ((rung 2 2).wr Fld.lnkLinkLstate 2).rd Fld.lnkLinkLstate = 2 ∧ (rung 2 2).hostWr = []
    ∧ (up.wr Fld.lnkLinkLstate 3).rd Fld.lnkLinkLstate = 3 ∧ (up.wr Fld.lnkLinkLstate 4).rd Fld.lnkLinkLstate = 4 := by decide +kernel
theorem meets_district_rungs : up.opens (pageReg .dst 0 0x068) = true ∧ (up.dist 0).inReset = false ∧ (up.wr (Fld.dstRungTarget 0) 2).rd (Fld.dstRungTarget 0) = 2 ∧ up.rd (Fld.dstRungCurrent 0) < 2 ∧ (up.dist 0).drained = true
    ∧ up.heapUsed 0 = 0 ∧ (up.dist 0).core.groups = [] ∧ (up.wr (Fld.dstRungTarget 0) 1).rd (Fld.dstRungTarget 0) = 1 ∧ up.rd (Fld.dstRungCurrent 0) = 0 ∧ up.distIdle 0 = true
    ∧ msg .marker ∈ (mail (bat 0 0) .marker).msgs ∧ ((mail (bat 0 0) .marker).wr (Fld.dstRungCurrent 0) 1).rd (Fld.dstRungCurrent 0) = 1 := by decide +kernel

/-! ## Groups -/

/-- A program directory at scene address 0 whose program 1 is an image at 0x1000 of 8 instructions (R227, R228). -/
def program : Memory := [(17, 0x10), (24, 0x80), (28, 1), (0x1001, 32), (0x1002, 1), (0x1008, 0x40)]
def progBat : Batch := { bat 0 0 with regions := [region0] }
/-- An invocation that waits for the core of district 0. -/
def launching : State := { opened progBat (wk progBat .inProgram) with ports := [0], capC := 2 ^ 20, regs := [(0x08040, 0x10000)], ten := [(8, 4)], scene := program }.updCore 0 (fun c => { c with waiting := [inv0] })
def image0 : Image := { addr := 0x1000, nreg := 32, split := 1, parkTrap := false, nanTrap := false, localK := 0, codeLen := 64, entryPc := 0 }
theorem meets_launch : launching.coreGoes 0 = true ∧ launching.headOf 0 = some (.launch inv0) ∧ launching.batch b0 = some progBat ∧ ((launching.tenParity 0).imageOf 0 progBat inv0).2 = .ok image0
    ∧ (launching.updCore 0 (fun c => { c with split := 2 })).headSplit 0 = some 1 ∧ ((launching.updCore 0 (fun c => { c with split := 2 })).dist 0).core.split = 2
    ∧ ((launching.dist 0).core.groups = []) ∧ ((launching.wr (Fld.dstCoreCtlPreempt 0) 1).wr (Fld.dstParkBaseEn 0) 1).flag (Fld.dstCoreCtlPreempt 0) = true
    ∧ ((launching.wr (Fld.dstCoreCtlPreempt 0) 1).wr (Fld.dstParkBaseEn 0) 1).flag (Fld.dstParkBaseEn 0) = true
    ∧ (((launching.wr (Fld.dstCoreCtlPreempt 0) 1).wr (Fld.dstParkBaseEn 0) 1).imageOf 0 progBat inv0).2 = .ok image0 ∧ inv0.cls = 0
    ∧ ((launching.wr (Fld.dstCoreCtlPreempt 0) 1).wr (Fld.dstParkBaseEn 0) 1).expressWaiting 0 = some inv0 := by decide +kernel
/-- Groups parked by a trap, in place and not settled; chosen for pre-emption; ready to be restored. -/
def trapped : Group := { grp 0 with parked := some .trap, ir := none }
def wanted : Group := { grp 0 with preWant := true }
def restored : Group := { grp 0 with parked := some .pre, settled := true, split := 1 }
def parkState (g : Group) : State := ray1.updCore 0 (fun c => { c with parks := [(3, g)] })
theorem meets_parks : (at0 trapped).coreOn 0 = true ∧ (at0 trapped).group 0 0 = some trapped ∧ trapped.busy = false ∧ trapped.parked.isSome = true ∧ trapped.settled = false ∧ trapped.replay = false
    ∧ (at0 wanted).group 0 0 = some wanted ∧ wanted.parked = none ∧ wanted.preWant = true ∧ ((at0 wanted).wr (Fld.dstParkBaseEn 0) 1).parkSlot 0 0 = some 0 ∧ wanted.busy = false
    ∧ (parkState restored).coreGoes 0 = true ∧ (parkState restored).headOf 0 = some (.restore 3 restored) ∧ restored.split = ((parkState restored).dist 0).core.split
    ∧ (parkState restored).roomFor 0 64 4 = some (0, 0) ∧ up.opens (pageReg .dst 0 0x060) = true ∧ (parkState trapped).handleGroup 0 3 = some trapped
    ∧ (at0 { trapped with settled := true }).handleGroup 0 64 = some { trapped with settled := true } := by decide +kernel
theorem meets_shootdown : up.opens 0x0106C = true ∧ up.halted .lnk = false ∧ up.flag Fld.lnkShootCtlBusy = false := by decide +kernel

/-! ## Resets, the twin -/

theorem meets_resets : up.opens 0x00054 = true ∧ up.halted .blk = false ∧ up.flag Fld.blkRstCmdBusy = false ∧ ((up.setDist 0 { District.reset with inReset := true }).dist 0).inReset = true
    ∧ ((up.updPort 0 (fun p => { p with inResetP := true })).port 0).inResetP = true ∧ up.phase = .up ∧ up.rd Fld.blkRungCurrent ≠ 4 ∧ up.opens 0x00048 = true
    ∧ ({ up with phase := .warmWanted } : State).phase = .warmWanted := by decide +kernel
/-- What a start-up finds where all is well. -/
def env0 : StartEnv := { failed := [], stripFail := false, ports := List.replicate 6 { ident := none, trains := true, accepts := true }, link := { modules := 8, rate := 0 }, twinTrains := true }
theorem meets_startup : State.reset.phase = .starting true ∧ State.reset.flag Fld.blkStatusStripFail = false := by decide +kernel
def twin0 : State := { up with twin := { up.twin with linkUp := true } }
def hdr0 : TwinHdr := ⟨0, true⟩
/-- As `twin0`, in paired-active with the pair formed. -/
def pair0 : State := ((twin0.wr Fld.twnCtlMode 1).wr Fld.twnStatusState 2)
def mirror0 : Mirror := { idx := 5, len := 1, bytes := zeroBytes 32, held := false }
theorem meets_twin : twin0.hears hdr0 = true ∧ pair0.hears hdr0 = true ∧ pair0.twnMode ≠ 0 ∧ pair0.paired = true ∧ ({ pair0.twin with mirrors := [mirror0] } : Twin).mirrors.find? (fun m => decide (m.idx = 5)) = some mirror0
    ∧ (opened { bat 0 0 with handed := true } (wk (bat 0 0) .done)).batches.find? (fun x => decide (x.bid = b0) && x.handed) = some { bat 0 0 with handed := true }
    ∧ up.opens 0x02040 = true ∧ twin0.rd Fld.blkRungCurrent ≤ 1 ∧ twin0.armed Fld.twnInjectLink = false ∧ pair0.parBad = [] ∧ pair0.twin.wantFence = false ∧ pair0.twin.quiet = false ∧ pair0.twin.silent = false
    ∧ pair0.flag Fld.twnStatusFenced = false ∧ pair0.flag Fld.twnStatusLent = false ∧ pair0.flag Fld.twnStatusHolding = false ∧ (pair0.wr Fld.twnStatusHolding 1).flag Fld.twnStatusHolding = true
    ∧ pair0.batches = [] ∧ pair0.twin.linkUp = true ∧ 16 ≤ pair0.rd Fld.twnWatch1Beacon ∧ 16 ≤ pair0.rd Fld.twnWatch0Fence := by decide +kernel
def handing : State := { pair0 with batches := [bat 0 0], twin := { pair0.twin with handWait := [b0] } }
theorem meets_handoff : b0 ∈ handing.twin.handWait ∧ handing.batch b0 = some (bat 0 0) ∧ handing.paired = true ∧ handing.writesAcked b0 = true := by decide +kernel

/-! ## The other statements -/

theorem meets_front_of_queue : ({ up with pending := [.ctrSnap, .dealRun] } : State).pending = .ctrSnap :: [.dealRun] := rfl
theorem meets_port_map : 0 < ported.ports.length ∧ ({ ported with ports := [1, 4] } : State).portAt 0x1FF = some (4, 0xFF) ∧ ({ ported with ports := [1, 4] } : State).portAt 0x200 = some (1, 0x100)
    ∧ (255 : Nat) % 256 + 1 ≤ 256 ∧ (0 : Nat) % 256 + 256 ≤ 256 := by decide +kernel
theorem meets_masks : nodeFine (zeroBytes 192) = false ∨ nodeFine (zeroBytes 192) = true := by decide +kernel
theorem meets_lane : (at0 (grp 0)).rd (Fld.dstInjectRf 0) = 0 ∧ f0.dst.toNat + ([0] : List Word).length ≤ 256 ∧ ([0] : List Word).length ≤ 64 ∧ 0 ∈ (grp 0).threads ∧ 1 ∉ (grp 0).threads ∧ (254 : Nat) + 0 < 255 := by decide +kernel
theorem meets_predicates : (7 : Nat) % 8 = 7 ∧ (15 : Nat) % 8 = 7 ∧ (6 : Nat) % 8 ≠ 7 ∧ (1 : Nat) % 8 ≠ 6 % 8 := by decide +kernel
theorem meets_traps : (at0 { grp 0 with parkTrap := true }).batch b0 = some (bat 0 0) ∧ (0x0A : Nat) ≠ 8 ∧ (0x0A : Nat) < 256 ∧ ([] : List Byte).length ≤ 16 ∧ (grp 0).pc < 2 ^ 32 := by decide +kernel
theorem meets_fetch_traps : (let g := { grp 0 with ir := none, pc := 4096 }; (at0 g).coreOn 0 = true ∧ (at0 g).group 0 0 = some g ∧ (at0 g).heldGroup 0 g = false ∧ (at0 g).armed (Fld.dstInjectCore 0) = false
    ∧ g.nanPend = [] ∧ g.codeLen ≤ g.pc ∧ (at0 g).leads 0 0 9 g = true) ∧ coreCode (.iadd gr f0) = some (gr, 0, 0, f0) ∧ coreCode (.vote gr f0) = some (gr, 9, 5, f0)
    ∧ (grp 0).legal 0 0 { f0 with sa := 64 } = false ∧ (grp 0).legal 0 0 { f0 with sa := 63 } = true ∧ (grp 0).pendingReg 0 0 { f0 with sa := 64 } = false := by decide +kernel
/-- `BAR.ALL` with one of two threads active. -/
theorem meets_split_barrier : fr 4 0x10 f0 ∧ (grp 0).active ≠ (grp 0).launch := by decide +kernel
def nanGrp (w : BitVec 64) : Group := { grp w with nanTrap := true }
theorem meets_nan : (∀ o ∈ [0x00, 0x01, 0x02, 0x03, 0x0A], (at0 (nanGrp (insWord 1 o f0))).fronts gr 1 o f0 (nanGrp (insWord 1 o f0))) ∧ (at0 (nanGrp 0)).armed (Fld.dstInjectNan 0) = false ∧ (nanGrp 0).nanTrap = true ∧ (nanGrp 0).active ≠ 0 := by decide +kernel
theorem meets_record : (15 : Nat) < 16 ∧ inv0.entry < 8 ∧ inv0.cls < 4 ∧ inv0.prog < 65536 ∧ progBat.tenant < 4096 ∧ progBat.desc.paramAddr < 2 ^ 64 ∧ progBat.desc.slotAddr < 2 ^ 64 ∧ progBat.desc.outAddr < 2 ^ 64
    ∧ (127 : Nat) < 128 ∧ (List.replicate 64 inv0).length ≤ 64 := by decide +kernel
theorem meets_charge : ray1.batch b0 = some (bat 0 0) ∧ (1 : Nat) ≠ (bat 0 0).tenant ∧ (3 : Nat) ≠ (bat 0 0).cls := by decide +kernel
theorem meets_epoch : ray1.isOpen 0 = true ∧ (4 : Nat) < 5 ∧ (up.dist 0).reasons = BitVec.ofNat 6 (2 ^ 4) := by decide +kernel
theorem meets_lots : ray1.isOpen 0 = true ∧ ray1.isOpen (733 % 128) = false ∧ ray1.lotOwner 733 = some 0 := by decide +kernel
theorem meets_codes : encodeCore (.nop gr f0) = some (gr, insWord 4 0x1F f0) ∧ decodeCore gr (insWord 9 5 f0) = some (.vote gr f0) := by decide +kernel
theorem meets_memory : up.memoryOk = true ∧ ported.memoryOk = true ∧ launching.memoryOk = true := by decide +kernel

/-! ## Walkers at work -/

/-- The block with one port of scene memory, and a batch that may read all of it. -/
def overScene (w : Walker) : State := { opened progBat w with ports := [0], capC := 2 ^ 20, regs := [(0x08040, 0x10000)], stamps := [stamp0] }
/-- A ray from (0, 0, -1) along z. -/
def rayZ : Ray := { long := false, ox := 0, oy := 0, oz := 0xBF800000, dir := { x := 0, y := 0, z := 0x3F800000 }, tmin := 0, tmax := 0x7F800000, user := 0, mask := 0xFFFF, flags := 0, slot := 0 }
theorem meets_ray_entering : enters.walking 0 = true ∧ (bat 0 0).stop = false ∧ (bat 0 0).desc.isGen = false ∧ (bat 0 0).desc.isRefit = false ∧ (wk (bat 0 0) .entering).probe = none
    ∧ (bat 0 0).desc.accum = false ∧ (enters.stampRead b0 ((bat 0 0).desc.inAddr + 0 * (bat 0 0).desc.inBytes) (bat 0 0).desc.inBytes).isSome = true := by decide +kernel
/-- A walker message at district 0 under an epoch, the districts 0 and 1 open and the answer for treelet 2 known: its lot's owner is district 1. -/
def arriving (ep : BitVec 16) (more : List Walker) : State :=
  { (overScene (wk progBat .inTransit)).setDist 1 dist0 with msgs := [msg (.walker b0 0 0 2 ep)], walkers := wk progBat .inTransit :: more }.setDist 0 { dist0 with memo := [{ tid := 2, entry := none }] }
theorem meets_arriving : (arriving 0 []).walking 0 = true ∧ (arriving 0 []).active = true ∧ (arriving 0 []).isOpen 0 = true ∧ (arriving 0 []).nextMsg 0 ((arriving 0 []).judged 0) = some (msg (.walker b0 0 0 2 0))
    ∧ (let t := ((arriving 0 []).dropMsg (msg (.walker b0 0 0 2 0))).wakeDist 0
       t.walker b0 0 0 = some (wk progBat .inTransit) ∧ (0 : BitVec 16) = t.epoch ∧ (t.slots 0).length < 4096) := by decide +kernel
theorem meets_forwarded : (arriving 7 []).nextMsg 0 ((arriving 7 []).judged 0) = some (msg (.walker b0 0 0 2 7))
    ∧ (let t := ((arriving 7 []).dropMsg (msg (.walker b0 0 0 2 7))).wakeDist 0
       (7 : BitVec 16) ≠ t.epoch ∧ t.stays b0 = false ∧ t.topMay b0 2 = false ∧ t.destOf 0 2 b0 = some 1) := by decide +kernel
theorem meets_full : 4096 ≤ ((((arriving 0 (List.replicate 4096 (wk progBat .queued))).dropMsg (msg (.walker b0 0 0 2 0))).wakeDist 0).slots 0).length ∧ (wk progBat .inTransit).express = false := by decide +kernel
/-- A walker of the side street. -/
def inStreet : Walker := { wk progBat .spilled with place := some 0, work := [.node 0 none 0 fl0] }
theorem meets_reload : (overScene inStreet).walking 0 = true ∧ (overScene inStreet).reloadable 0 = [inStreet] ∧ ((overScene inStreet).slots 0).length < 2048
    ∧ ((overScene inStreet).recordGet (streamSide 0) ((overScene inStreet).streetAt 0 0) 128).2 = false
    ∧ ((overScene inStreet).recordGet (streamSide 0) ((overScene inStreet).streetAt 0 0) 128).1.isOpen 0 = true := by decide +kernel
/-- Treelet 0 resident with its node at unit 1: a coarse node with one leaf child at unit 2 (R94, R101), or all zeros, which is no node. -/
def nodeCopy (good : Bool) : PlotSlot := { copy0 with cells := if good then [(0x4F, 0x40), (0x68, 0x81), (0x70, 2), (0x72, 1)] else [] }
def atNode : Walker := { wk progBat .queued with ray := rayZ, work := [.node 64 none 0 fl0] }
def nodes (good : Bool) : State := (overScene atNode).setDist 0 { dist0 with plot := [(0, nodeCopy good)] }
def node0 : List Byte := Memory.bytes (nodeCopy true).cells 64 64
theorem meets_node : ∀ good, (nodes good).walking 0 = true ∧ (nodes good).nextReady 0 cellItem = some atNode ∧ (nodes good).armed (Fld.dstInjectStep 0) = false ∧ (nodes good).batch b0 = some progBat
    ∧ (nodes good).walkRead atNode .node 0 64 = (nodes good, .ok (zeroBytes 64)) ∧ treeletLen (zeroBytes 64) = some 1024
    ∧ (nodes good).walkRead atNode .node 64 64 = (nodes good, .ok (if good then node0 else zeroBytes 64)) := by decide +kernel
theorem meets_node_good : (nodes true).nodeRest atNode 64 1024 node0 = (nodes true, .ok node0) ∧ rayNodeBad node0 1024 1 none = false ∧ formCarry atNode node0 false = some atNode
    ∧ (nodes true).nodeTable progBat atNode 0 node0 false = (nodes true, .ok []) := by decide +kernel
theorem meets_node_bad : (nodes false).nodeRest atNode 64 1024 (zeroBytes 64) = (nodes false, .ok (zeroBytes 64)) ∧ rayNodeBad (zeroBytes 64) 1024 1 none = true
    ∧ formCarry atNode (zeroBytes 64) true = some atNode ∧ (nodes false).nodeTable progBat atNode 0 (zeroBytes 64) true = (nodes false, .ok []) := by decide +kernel
/-- R137: the ray enters the node's child, and its leaf is the work that is added. -/
theorem test_node_child : (cascade progBat atNode (atNode.carry 0) node0 [] 1024).1 = [0] ∧ childItem node0 1024 0 0 fl0 0 = .leaf 4 128 1 0 fl0 := by decide +kernel
/-- A block whose triangle 0 is (-1, -1, z), (1, -1, z), (0, 1, z) (R107). -/
def block (z : Nat) : List Byte := leBytes 4 0xBF800000 ++ leBytes 4 0xBF800000 ++ leBytes 4 z ++ leBytes 4 0x3F800000 ++ leBytes 4 0xBF800000 ++ leBytes 4 z ++ zeroBytes 4 ++ leBytes 4 0x3F800000 ++ leBytes 4 z
  ++ zeroBytes 16 ++ [0x0B] ++ zeroBytes 11
def atTri (bs : List Byte) (r : Ray) : Walker := { wk progBat .queued with ray := r, work := [.tri 64 bs 0 0 fl0] }
def tris : State := (overScene (atTri (block 0) rayZ)).setDist 0 { dist0 with plot := [(0, copy0)] }
theorem meets_tri : tris.walking 0 = true ∧ tris.armed (Fld.dstInjectStep 0) = false ∧ tris.batch b0 = some progBat ∧ tris.nextReady 0 triItem = some (atTri (block 0) rayZ) ∧ (triVerts (block 0) 0).isSome = true
    ∧ (triVerts (block 0) 0).map vertsBad = some false ∧ culled (atTri (block 0) rayZ) false false = false := by decide +kernel
/-- R145: the ray meets the triangle at t = 1, with its back towards it; one that starts behind it meets it at t = -1; one beside it does not. -/
theorem test_tri_hit : ((triVerts (block 0) 0).bind (fun v => (triTest (topCarryShort rayZ) v).1)).map (fun h => (h.t, h.front)) = some (0x3F800000, false)
    ∧ ((triVerts (block 0) 0).bind (fun v => (triTest (topCarryShort { rayZ with oz := 0x3F800000 }) v).1)).map (·.t) = some 0xBF800000
    ∧ (triVerts (block 0) 0).bind (fun v => (triTest (topCarryShort { rayZ with ox := 0x40000000 }) v).1) = none
    ∧ (f32 rayZ.tmin).le (f32 0x3F800000) = true ∧ (f32 0x3F800000).le (tLimit progBat (atTri (block 0) rayZ)) = true ∧ (f32 rayZ.tmin).le (f32 0xBF800000) = false := by decide +kernel

/-! ## What else is met -/

/-- A charge that makes whole 1/256 beads (R379, R401). -/
theorem meets_meter : 1000 * (550 + 5 * up.meterCode) + SMap.get 0 up.house.rems 3 = 1000 * (550 + 5 * up.meterCode) ∧ 550 + 5 * up.meterCode ≤ 1048576 := by decide +kernel
theorem meets_host_reads : ported.gate.apWait = [] ∧ (ported.apStep { tag := 5, addr := 0, len := 4, next := 0, got := [], poison := false } 2).2.next = 0 ∧ (ported.apStep { tag := 5, addr := 0, len := 0, next := 0, got := [], poison := false } 2).2.next = 0 := by
  decide +kernel
def pendingFill : State := ported.updPort 0 (fun p => { p with misses := [{ stream := 896, addr := 64, stale := false, prefetch := false }] })
theorem meets_fill_pending : (pendingFill.port 0).misses.find? (fun m => decide (m.stream = 896) && decide (m.addr = 64)) = some { stream := 896, addr := 64, stale := false, prefetch := false }
    ∧ (pendingFill.portAt 64).map (·.1) = some 0 ∧ (pendingFill.port 0).inResetP = false := by decide +kernel
theorem meets_lane_ring : ray1.active = true ∧ (ray1.dist 0).inReset = false ∧ (ray1.dist 0).routerDead = false ∧ neighbour 0 .east = some 1 ∧ (ray1.dist 0).reasons.getLsbD 3 = false := by decide +kernel
theorem meets_restore : (let s : State := { parkState restored with ports := [0], capC := 2 ^ 20, regs := [(0x08040, 0x10000)] }; (s.recordGet (streamSide 0) (s.parkAddr 0 3) restored.parkBytes).2 = false) := by decide +kernel
theorem meets_flush_read : (let s : State := { ended (bat 0 1) .acked with ports := [0], capC := 2 ^ 20, regs := [(0x08040, 0x10000)] }; (s.recordGet streamPack (s.packAt run0.place) 1024).2 = false
    ∧ ((s.recordGet streamPack (s.packAt run0.place) 1024).1.flushWrites (bat 0 1) run0).isSome = true) := by decide +kernel
theorem meets_takeover : (pair0.wr Fld.twnStatusState 4).takeRing = true ∧ pair0.opens 0x02040 = true ∧ (0x100 : Word).getLsbD 8 = true := by decide +kernel
theorem meets_illegal : (let g := grp (insWord 9 1 { f0 with dst := 63 }); (at0 g).leads 0 0 9 g = true ∧ g.legal 9 1 { f0 with dst := 63 } = false ∧ g.pendingReg 9 1 { f0 with dst := 63 } = false ∧ g.pc < g.codeLen) := by decide +kernel

end Sys2Proof.Tests
end

section
/-! PROOFS. Reads of the window (R9, R20, R445, R466, R472, R485, R486) and what reset leaves (R1, R39, R193, R382). -/

namespace Sys2Proof.Machine

/-! ## Where registers stand (R460) -/

theorem pageOf_above_block {pg : Nat} (h8 : 8 ≤ pg) (h14 : pg ≠ 14) (h15 : pg ≠ 15) :
    pageOf pg = if 8 ≤ pg ∧ pg < 14 then some (.stk, pg - 8)
      else if 0x40 ≤ pg ∧ pg < 0xC0 then some (.dst, pg - 0x40)
      else if 0xC0 ≤ pg ∧ pg < 0x100 then some (.que, pg - 0xC0) else none := by
  unfold pageOf
  split
  case h_11 => rfl
  all_goals omega

/-- The pages of a kind stand one after another from its first. -/
theorem pageOf_first_add (k : PageKind) {n : Nat} (h : n < k.count) : pageOf (k.first + n) = some (k, n) := by
  cases k
  case stk | dst | que =>
    simp only [PageKind.count, PageKind.first] at *
    rw [pageOf_above_block (by omega) (by omega) (by omega)]
    grind
  all_goals
    obtain rfl : n = 0 := Nat.lt_one_iff.mp h
    rfl

@[simp] theorem offPage_pageReg (k : PageKind) (n : Nat) {o : Nat} (h : o < 0x1000) : offPage (pageReg k n o) = k.first + n := by
  simp only [offPage, pageReg]
  omega

@[simp] theorem pageReg_mod (k : PageKind) (n : Nat) {o : Nat} (h : o < 0x1000) : pageReg k n o % 0x1000 = o := by
  simp only [pageReg]
  omega

theorem regAt_pageReg (k : PageKind) {n o : Nat} (hn : n < k.count) (ho : o < 0x1000) : regAt (pageReg k n o) = regInfo k n o := by
  have hp : pageOf (pageReg k n o / 0x1000) = some (k, n) := by
    rw [← pageOf_first_add k hn, ← offPage_pageReg k n ho, offPage]
  simp [regAt, hp, ho]

/-- A register of a district page reads as the district forms it (R20, R193). -/
theorem State.readValue_dst (s : State) (d : Dist) {o : Nat} (ho : o < 0x1000) : s.readValue (pageReg .dst d.val o) = s.dstValue d.val o := by
  have hp : pageOf (PageKind.dst.first + d.val) = some (.dst, d.val) := pageOf_first_add .dst d.isLt
  simp [State.readValue, ho, hp]

/-! ## What reset leaves -/

@[simp] theorem State.reg_reset (off : Nat) : State.reset.reg off = (regAt off).reset := rfl

/-- A register of a page after reset holds the value its page's list gives it. -/
theorem State.reg_reset_pageReg (k : PageKind) {n o : Nat} (hn : n < k.count) (ho : o < 0x1000) :
    State.reset.reg (pageReg k n o) = (regInfo k n o).reset := by
  rw [State.reg_reset, regAt_pageReg k hn ho]

@[simp] theorem State.dist_reset (d : Nat) : State.reset.dist d = District.reset := rfl

/-- `DST_STATE` after reset (R193): `CLOSED` and `DRAINED` set, `REASONS` with `NO_SIDE` alone, nothing spilled. -/
theorem State.dstStateWord_reset (d : Nat) : State.reset.dstStateWord d = 0x310 := by
  have hw : State.reset.walkers = [] := rfl
  simp [State.dstStateWord, hw, District.reset, b2n]
  decide

theorem State.dstValue_state_reset (d : Nat) : State.reset.dstValue d 0x044 = 0x310 := by
  simp [State.dstValue, District.reset, State.dstStateWord_reset]

theorem State.queDepth_reset (q : Que) : State.reset.reg (pageReg .que q.val 0x048) = 0 := by
  rw [State.reg_reset_pageReg .que q.isLt (by decide)]
  rfl

/-- A queue of depth 0 is disabled (R39). -/
theorem State.queState_of_depth_zero (s : State) (q : Nat) (h : s.rd (Fld.queDepthDepth q) = 0) : s.queState q = 0 := by
  simp [State.queState, h]

theorem State.queState_reset (q : Que) : State.reset.queState q.val = 0 := by
  apply State.queState_of_depth_zero
  have hoff : (Fld.queDepthDepth q.val).off = pageReg .que q.val 0x048 := by
    simp only [Fld.queDepthDepth, pageReg, PageKind.first]
    omega
  rw [State.rd, hoff, State.queDepth_reset]
  simp [field, bits]

/-- Every account is empty after reset (R382). -/
theorem State.account_reset (cls : Bool) (n : Nat) : State.reset.account cls n = { bal := 0, cmt := 0 } := by
  cases cls <;> rfl

/-- Settles O38: each value from the reset value of its register or table. -/
theorem resetLeaves : Obligations.ResetLeaves := by
  obtain ⟨hhost, hscene⟩ := State.reset_memory_wf
  refine ⟨fun d => ?_, fun q => ⟨State.queDepth_reset q, State.queState_reset q⟩, rfl, rfl, rfl, State.account_reset, rfl, rfl, rfl, ?_⟩
  · rw [State.readValue_dst _ _ (by decide), State.dstValue_state_reset]
  · simp [State.memoryOk, hhost, hscene]

section
variable (s : State)

/-! ## Parity and errors found clean -/

theorem State.parityCheck_good {pg : Nat} (h : s.pageBad pg = false) : s.parityCheck pg = s := by
  have hf : s.parBad.filter (fun o => decide (offPage o = pg)) = [] := by simpa [State.pageBad] using h
  simp [State.parityCheck, hf]

theorem State.readParity_good {off : Nat} (h : off ∉ s.parBad) : s.readParity off = s := by simp [State.readParity, h]

/-- A tally word without a wrong bit is read and stays (R486). -/
theorem State.tallyWordRead_good {i j : Nat} (h : SMap.get 0 s.tallyErr (i * 4 + j) = 0) : s.tallyWordRead i j = (s, true) := by
  have hj : codeJudge 0 = .good := by decide
  simp only [State.tallyWordRead, h, hj]

/-! ## What a report leaves -/

@[simp] theorem State.setBit_readData (f : Fld) (pg : Nat) : (s.setBit f pg).gate.readData = s.gate.readData := by
  unfold State.setBit
  dsimp only
  split <;> rfl

@[simp] theorem State.errBit_readData (n u : Nat) : (s.errBit n u).gate.readData = s.gate.readData := by
  unfold State.errBit
  dsimp only
  split <;> simp

/-- A report to `ERR_STATUS` sets its bit there, and beyond it changes `ERR_FIRST` alone. -/
theorem State.reg_errBit (n u : Nat) {j : Nat} (h : j ≠ 0x0E04C) : (s.errBit n u).reg j = (s.setBit ⟨0x0E040, n, n⟩ 14).reg j := by
  have hfirst (f : Fld) (hf : f.off = 0x0E04C) (t : State) (v : Nat) : (t.wr f v).reg j = t.reg j :=
    State.reg_wr_other _ _ _ _ (hf ▸ h)
  unfold State.errBit
  dsimp only
  split
  · rw [hfirst _ rfl, hfirst _ rfl, hfirst _ rfl]
  · rfl

theorem State.rd_errBit_same {n : Nat} (u : Nat) (h : n < 32) : (s.errBit n u).rd ⟨0x0E040, n, n⟩ = 1 := by
  simp only [State.rd, State.reg_errBit _ _ _ (show 0x0E040 ≠ 0x0E04C by decide)]
  exact State.rd_setBit_same _ _ _ rfl h

theorem State.reg_errBit_outside (n u : Nat) {j : Nat} (h : offPage j ≠ 14) : (s.errBit n u).reg j = s.reg j := by
  have hstatus : j ≠ 0x0E040 := by rintro rfl; exact h (by decide)
  have hfirst : j ≠ 0x0E04C := by rintro rfl; exact h (by decide)
  rw [State.reg_errBit _ _ _ hfirst, State.reg_setBit_other _ _ _ _ hstatus]

theorem State.protocolError_eq : s.protocolError = s.errBit 4 unitNone := rfl

/-! ## Malformed reads (R445, R510) -/

theorem State.malformed_read_readData : (s.malformed false).gate.readData = some 0xFFFFFFFF := by
  simp [State.malformed, State.protocolError_eq]

theorem State.malformed_read_reports : (s.malformed false).rd Fld.errStatusHlProtocol = 1 :=
  State.rd_errBit_same _ _ (by decide)

theorem State.reg_malformed_read_outside {j : Nat} (h : offPage j ≠ 14) : (s.malformed false).reg j = s.reg j := by
  have harm : (s.disarm Fld.errInjectHlProtocol).reg j = s.reg j := State.reg_wr_other _ _ _ _ (by rintro rfl; exact h rfl)
  simp only [State.malformed, State.protocolError_eq, Bool.false_eq_true, if_false, State.reg_errBit_outside _ _ _ h]
  split
  · exact harm
  · rfl

/-! ## The commands that read -/

/-- `REGISTER_READ` (R20, R472). -/
theorem exec_registerRead_plain (off : BitVec 20) (ha : off.toNat % 4 = 0) (hrc : (regAt off.toNat).rc = 0) (hown : ownRead off.toNat = false)
    (hwin : windowData off.toNat = false) (hpar : off.toNat ∉ s.parBad) (ho : s.opensRead off.toNat = true) :
    exec (.registerRead off) s = .next (s.answerRead (s.readValue off.toNat)) := by
  change execRegisterRead off s = _
  simp [execRegisterRead, ha, hrc, hown, hwin, State.guardRead_opens _ _ _ ho, State.readParity_good _ hpar]

/-- `RC_READ` with its response not delivered (R466). -/
theorem exec_rcRead_undelivered (off : BitVec 20) (ha : off.toNat % 4 = 0) (hpar : off.toNat ∉ s.parBad)
    (ho : s.opensRead off.toNat = true) : exec (.rcRead off false) s = .next s := by
  change execRcRead off false s = _
  simp [execRcRead, ha, State.guardRead_opens _ _ _ ho, State.readParity_good _ hpar]

/-- `RC_READ` with its response delivered, on a page that is not under reset (R20, R466). -/
theorem exec_rcRead_delivered (off : BitVec 20) (ha : off.toNat % 4 = 0) (hrc : (regAt off.toNat).rc ≠ 0) (hpar : off.toNat ∉ s.parBad)
    (hres : ∀ d, pageOf (offPage off.toNat) = some (.dst, d) → (s.dist d).inReset = false) (ho : s.opensRead off.toNat = true) :
    exec (.rcRead off true) s = .next ((s.setReg off.toNat
      (s.reg off.toNat &&& ~~~((regAt off.toNat).rc &&& s.readValue off.toNat))).answerRead (s.readValue off.toNat)) := by
  change execRcRead off true s = _
  simp only [execRcRead, ha, hrc, State.guardRead_opens _ _ _ ho, State.readParity_good _ hpar, ne_eq, not_true_eq_false, if_false,
    Bool.not_true, Bool.false_eq_true]
  rw [if_neg]
  split
  next d hp => simp [hres d hp]
  next => simp

/-- `TALLY_WINDOW_READ` of a word without a wrong bit (R472, R486). -/
theorem exec_tallyWindowRead_good (n : Fin 8) (ho : s.opensRead (0x04100 + 4 * n.val) = true) (hpar : s.pageBad 4 = false)
    (herr : SMap.get 0 s.tallyErr (s.rd Fld.tlyIndexIndex * 4 + n.val / 2) = 0) :
    exec (.tallyWindowRead n) s = .next (s.answerRead (s.tallyWord (s.rd Fld.tlyIndexIndex) n.val)) := by
  change execTallyWindowRead n s = _
  simp [execTallyWindowRead, State.guardRead_opens _ _ _ ho, State.parityCheck_good _ hpar, State.tallyWordRead_good _ herr]

/-- `BALANCE_CAPTURE` (R383, R485): the selected account is captured whole and its low half answered. -/
theorem exec_balanceCapture (ho : s.opensRead 0x0305C = true) (hpar : s.pageBad 3 = false) {a : Account}
    (hacc : s.account (s.flag Fld.chBalSelKind)
      (if s.flag Fld.chBalSelKind then s.rd Fld.chBalSelIndex % 4 else s.rd Fld.chBalSelIndex) = a) :
    exec .balanceCapture s = .next { s with gate := { s.gate with capBal := a, readData := some (BitVec.ofInt 32 a.bal) } } := by
  change execBalanceCapture s = _
  simp [execBalanceCapture, State.guardRead_opens _ _ _ ho, State.parityCheck_good _ hpar, hacc, State.answerRead]

/-- `REG_ACCESS_MALFORMED` as a read (R445). -/
theorem exec_regAccessMalformed_read (off : BitVec 32) (len : Nat) (hbad : len ≠ 4 ∨ off.toNat % 4 ≠ 0 ∨ 0x100000 ≤ off.toNat)
    (hheld : s.readHeld (offPage off.toNat) = false) : exec (.regAccessMalformed off len false) s = .next (s.malformed false) := by
  change execRegAccessMalformed off len false s = _
  have hill : ¬(len = 4 ∧ off.toNat % 4 = 0 ∧ off.toNat < 0x100000) := by omega
  simp [execRegAccessMalformed, hill, hheld]

end

/-- Settles O14, one lemma for each command that reads. -/
theorem readsComplete : Obligations.ReadsComplete := by
  intro s
  refine ⟨exec_registerRead_plain s, ?delivered, ?undelivered, exec_tallyWindowRead_good s, ?tenant, ?cls, ?malformed⟩
  case delivered =>
    intro off ha hrc hpar hres ho
    exact ⟨_, exec_rcRead_delivered s off ha hrc hpar hres ho, rfl, State.reg_setReg_same .., fun j hj => State.reg_setReg_other _ _ _ _ hj, rfl⟩
  case undelivered => exact fun off ha _ hpar ho => exec_rcRead_undelivered s off ha hpar ho
  case tenant => exact fun ho hpar hkind => exec_balanceCapture s ho hpar (by simp [hkind])
  case cls => exact fun ho hpar hkind => exec_balanceCapture s ho hpar (by simp [hkind])
  case malformed =>
    intro off len hbad hheld
    exact ⟨_, exec_regAccessMalformed_read s off len hbad hheld, s.malformed_read_readData, s.malformed_read_reports,
      fun j hj => s.reg_malformed_read_outside hj⟩

end Sys2Proof.Machine
end

section
/-! PROOFS. The Counting House (R21, R379 to R384, R389, R393, R401): rounds and dealing, grants to accounts, and charges counted by the
meters. -/

namespace Sys2Proof.Machine

/-! ## Keys of the meters (R379, R497) -/

/-- The units that have a meter stand below the tally's unit code (R496). -/
theorem meterUnit_lt_unitTly (m : Meter) : meterUnit m < unitTly := by
  cases m <;> simp only [meterUnit, unitStk, unitCh, unitTly] <;> omega

/-- The meters count in counter 0 of their units. -/
theorem meterKey_ne_of_pos (m : Meter) (u : Nat) {i : Nat} (h0 : 0 < i) (h1 : i < 256) : meterUnit m * 256 ≠ u * 256 + i := by omega

theorem meterKey_ne_unitTwn (m : Meter) : meterUnit m * 256 ≠ unitTwn * 256 + 0 := by
  have h := meterUnit_lt_unitTly m
  simp only [unitTly, unitTwn] at *
  omega

section
variable (s : State)

/-! ## Pages found clean -/

theorem State.pageBad_of_clean (h : s.parBad = []) (pg : Nat) : s.pageBad pg = false := by simp [State.pageBad, h]

theorem State.halted_of_clean (h : s.parBad = []) (k : PageKind) (n : Nat) : s.halted k n = false := by
  simp [State.halted, s.pageBad_of_clean h]

theorem State.checkPages_of_clean (h : s.parBad = []) (pgs : List Nat) : s.checkPages pgs = s := by
  induction pgs with
  | nil => rfl
  | cons pg pgs ih => rwa [State.checkPages, List.foldl_cons, State.parityCheck_good _ (s.pageBad_of_clean h pg)]

/-- With no register of wrong parity and its page's `CFG` arm clear, a register written leaves the parity good (R472, R510). -/
theorem State.parityWrite_of_clean {off : Nat} (hpar : s.parBad = []) (harm : s.armed ⟨offPage off * 0x1000 + 0x010, 31, 31⟩ = false) :
    s.parityWrite off = s := by
  unfold State.parityWrite
  simp only [harm, hpar, List.filter_nil, Bool.false_eq_true, if_false]
  rw [← hpar]
  exact ite_self s

/-- A host write to a register of a page with parity, where parity is good and stays so: the RW bits take the value (R8, R463). -/
theorem State.hostSet_of_clean {off : Nat} {k : PageKind} {n : Nat} (v : Word) (hpage : pageOf (offPage off) = some (k, n)) (hk : k ≠ .dst)
    (hrw : (regAt off).rw ≠ 0) (hpar : s.parBad = []) (hoff : offPage off * 0x1000 + 0x010 ≠ off)
    (harm : s.armed ⟨offPage off * 0x1000 + 0x010, 31, 31⟩ = false) :
    s.hostSet off v = s.setReg off ((s.reg off &&& ~~~(regAt off).rw) ||| (v &&& (regAt off).rw)) := by
  have harm' (w : Word) : (s.setReg off w).armed ⟨offPage off * 0x1000 + 0x010, 31, 31⟩ = false := by
    rwa [State.armed, State.flag, State.rd, State.reg_setReg_other _ _ _ _ hoff]
  have hgood (w : Word) : (s.setReg off w).parityWrite off = s.setReg off w := State.parityWrite_of_clean _ hpar (harm' w)
  cases k with
  | dst => exact absurd rfl hk
  | _ => simp only [State.hostSet, hrw, if_false, hpage, hgood]

/-! ## Accounts (R382) -/

@[simp] theorem State.account_setReg (off : Nat) (v : Word) (cls : Bool) (i : Nat) : (s.setReg off v).account cls i = s.account cls i := rfl

@[simp] theorem State.account_wantRound (cls : Bool) (i : Nat) : s.wantRound.account cls i = s.account cls i := rfl

@[simp] theorem State.account_setAccount_same (cls : Bool) (i : Nat) (a : Account) : (s.setAccount cls i a).account cls i = a := by
  cases cls <;> simp [State.account, State.setAccount]

theorem State.account_setAccount_other (cls : Bool) {i j : Nat} (a : Account) (h : j ≠ i) :
    (s.setAccount cls i a).account cls j = s.account cls j := by
  cases cls <;> simp [State.account, State.setAccount, SMap.get_set_other _ _ _ h]

/-- Tenants and classes have accounts of their own. -/
@[simp] theorem State.account_setAccount_kind (cls : Bool) (i j : Nat) (a : Account) :
    (s.setAccount cls i a).account (!cls) j = s.account (!cls) j := by
  cases cls <;> rfl

/-! ## Grants (R383, R384) -/

/-- The account that a grant command's index names (R383). -/
def grantIndex (kind : Bool) (index : Nat) : Nat := if kind then index % 4 else index

theorem State.grant_eq (kind set : Bool) (index : Nat) : s.grant kind set index =
    (s.setAccount kind (grantIndex kind index) { s.account kind (grantIndex kind index) with
      bal := sat48 (if set then ((s.rd Fld.chGrantAmtAmt * 1024 : Nat) : Int)
        else (s.account kind (grantIndex kind index)).bal + ((s.rd Fld.chGrantAmtAmt * 1024 : Nat) : Int)) }).wantRound := rfl

/-- A grant command served is kept in `CH_GRANT_CMD` and applied (R383). -/
theorem State.grantCmd_eq (kind set : Bool) (index : Nat) (ho : s.opens 0x03054 = true) (hpar : s.parBad = [])
    (harm : s.armed ⟨0x03010, 31, 31⟩ = false) : ∃ v, s.grantCmd kind set index = (s.setReg 0x03054 v).grant kind set index := by
  obtain ⟨w, hset⟩ : ∃ w, s.hostSet 0x03054 (BitVec.ofNat 32 (b2n set * 2 ^ 30 + b2n kind * 2 ^ 29 + index)) = s.setReg 0x03054 w :=
    ⟨_, s.hostSet_of_clean (off := 0x03054) (k := .ch) (n := 0) _ rfl (by decide) (by decide) hpar (by decide) harm⟩
  have hhalt : (s.setReg 0x03054 w).halted .ch = false := State.halted_of_clean (s.setReg 0x03054 w) hpar .ch 0
  exact ⟨w, by simp only [State.grantCmd, State.guardWrite_opens _ _ _ ho, hset, hhalt, Bool.false_eq_true, if_false]⟩

/-- What a grant command does to the accounts: the balance named takes the grant, and nothing else changes. -/
theorem State.grantCmd_accounts (kind set : Bool) (index : Nat) (ho : s.opens 0x03054 = true) (hpar : s.parBad = [])
    (harm : s.armed ⟨0x03010, 31, 31⟩ = false) :
    (s.grantCmd kind set index).account kind (grantIndex kind index) = { s.account kind (grantIndex kind index) with
      bal := sat48 (if set then ((s.rd Fld.chGrantAmtAmt * 1024 : Nat) : Int)
        else (s.account kind (grantIndex kind index)).bal + ((s.rd Fld.chGrantAmtAmt * 1024 : Nat) : Int)) }
    ∧ (∀ j, j ≠ grantIndex kind index → (s.grantCmd kind set index).account kind j = s.account kind j)
    ∧ (∀ j, (s.grantCmd kind set index).account (!kind) j = s.account (!kind) j) := by
  obtain ⟨v, hv⟩ := s.grantCmd_eq kind set index ho hpar harm
  have hamt : (s.setReg 0x03054 v).rd Fld.chGrantAmtAmt = s.rd Fld.chGrantAmtAmt := by
    rw [State.rd, State.reg_setReg_other _ _ _ _ (by decide), State.rd]
  rw [hv, State.grant_eq, hamt]
  refine ⟨by simp, fun j hj => ?_, fun j => by simp⟩
  rw [State.account_wantRound, State.account_setAccount_other _ _ _ hj, State.account_setReg]

end

/-! ## What leaves the meters alone -/

/-- From one state to another the meters' counters and the remainders they carry are kept (R379, R497). -/
structure State.MetersKept (s t : State) : Prop where
  live : ∀ m, SMap.get 0 t.live (meterUnit m * 256) = SMap.get 0 s.live (meterUnit m * 256)
  rems : t.house.rems = s.house.rems

namespace State.MetersKept

theorem trans {s t u : State} (h : s.MetersKept t) (h' : t.MetersKept u) : s.MetersKept u :=
  ⟨fun m => (h'.live m).trans (h.live m), h'.rems.trans h.rems⟩

theorem of_eq {s t : State} (hl : t.live = s.live) (hr : t.house.rems = s.house.rems) : s.MetersKept t := ⟨fun m => by rw [hl], hr⟩

theorem refl (s : State) : s.MetersKept s := of_eq rfl rfl

/-- A state of which either of two successors is taken. -/
theorem ite {s t u : State} {c : Prop} [Decidable c] (ht : s.MetersKept t) (hu : s.MetersKept u) : s.MetersKept (if c then t else u) := by
  split
  · exact ht
  · exact hu

variable (s : State)

theorem count {u i : Nat} (n : Nat) (h : ∀ m, meterUnit m * 256 ≠ u * 256 + i) : s.MetersKept (s.count u i n) :=
  ⟨fun m => State.live_count_other _ _ _ _ _ (h m), rfl⟩

theorem count_of_pos (u : Nat) {i : Nat} (n : Nat) (h0 : 0 < i) (h1 : i < 256) : s.MetersKept (s.count u i n) :=
  count s n fun m => meterKey_ne_of_pos m u h0 h1

theorem wr (f : Fld) (v : Nat) : s.MetersKept (s.wr f v) := of_eq rfl rfl

theorem status (pg n : Nat) : s.MetersKept (s.status pg n) := of_eq (State.status_live ..) (by rw [State.status_house])

theorem errBit (n u : Nat) : s.MetersKept (s.errBit n u) := of_eq (State.errBit_live ..) (by rw [State.errBit_house])

/-- A report keeps the meters where the counter it advances, if any, is not a unit's first. -/
theorem report (page : Option (Nat × Nat)) (err : Option Nat) (u : Nat) (ctr : Option Nat) (h : ∀ i ∈ ctr, 0 < i ∧ i < 256) :
    s.MetersKept (s.report page err u ctr) := by
  have hpage (t : State) : t.MetersKept (match page with | some (pg, n) => t.status pg n | none => t) := by
    cases page with
    | none => exact refl t
    | some p => exact status t p.1 p.2
  have herr (t : State) : t.MetersKept (match err with | some n => t.errBit n u | none => t) := by
    cases err with
    | none => exact refl t
    | some n => exact errBit t n u
  refine ((hpage s).trans (herr _)).trans ?_
  cases ctr with
  | none => exact refl _
  | some i =>
    obtain ⟨h0, h1⟩ := h i rfl
    exact count_of_pos _ u 1 h0 h1

theorem setAccount (cls : Bool) (i : Nat) (a : Account) : s.MetersKept (s.setAccount cls i a) := by
  cases cls <;> exact of_eq rfl rfl

/-! ### A batch's entry in the tally -/

theorem tallyWordRead (i j : Nat) : s.MetersKept (s.tallyWordRead i j).1 := by
  have hclear : s.MetersKept { s with tallyErr := SMap.del s.tallyErr (i * 4 + j) } := of_eq rfl rfl
  have hrep (t : State) (n e : Nat) {c : Nat} (hc : 0 < c ∧ c < 256) :
      t.MetersKept (t.report (some (4, n)) (some e) unitTly (some c)) :=
    report t _ _ _ _ fun i hi => by cases hi; exact hc
  unfold State.tallyWordRead
  dsimp only
  split
  · exact refl s
  · exact refl s
  · exact hclear.trans (hrep _ 0 6 (by decide))
  · exact hclear.trans (hrep _ 0 6 (by decide))
  all_goals
    split
    · exact hclear.trans (hrep _ 1 _ (by decide))
    · exact hrep s 1 _ (by decide)

theorem tallyEntryRead (i : Nat) : s.MetersKept (s.tallyEntryRead i).1 :=
  List.foldlRecOn (motive := fun r : State × Bool => s.MetersKept r.1) (List.range 4) _ (refl s)
    fun r hr j _ => hr.trans (tallyWordRead r.1 i j)

theorem tallyPut (i : Nat) (bs : List Byte) : s.MetersKept (s.tallyPut i bs) := by
  unfold State.tallyPut
  dsimp only
  split <;> exact of_eq rfl rfl

theorem headerPut (x : Batch) : s.MetersKept (s.headerPut x) :=
  have hread := tallyEntryRead s x.tly
  ite (refl s) (ite (hread.trans (tallyPut _ _ _)) (hread.trans (of_eq rfl rfl)))

theorem twinSend (m : TwinMsg) : s.MetersKept (s.twinSend m) := by
  have hsent (tw : Twin) : s.MetersKept (State.count { s with twin := tw } unitTwn 0 1) :=
    (of_eq rfl rfl : s.MetersKept { s with twin := tw }).trans (count _ 1 meterKey_ne_unitTwn)
  exact ite (ite ((hsent _).trans (wr ..)) (hsent _)) (refl s)

theorem updTally (b : Bid) (f : Batch → Batch) : s.MetersKept (s.updTally b f) := by
  have hupd : s.MetersKept (s.updBatch b f) := of_eq rfl rfl
  unfold State.updTally
  split
  · exact refl s
  · next x _ =>
    have hput : s.MetersKept (if b.held then s.updBatch b f else (s.updBatch b f).headerPut (f x)) :=
      ite hupd (hupd.trans (headerPut _ _))
    exact ite hput (hput.trans (twinSend _ _))

/-! ### Debt and dimming (R395, R510) -/

theorem debtReport : s.MetersKept s.debtReport :=
  (report s (some (3, 0)) (some 16) unitCh none (by simp)).trans (of_eq rfl rfl)

theorem dimStep : s.MetersKept s.dimStep.1 := by
  have hcount (t : State) : t.MetersKept (t.count unitCh 8 1) := count_of_pos t unitCh 1 (by decide) (by decide)
  have hnote (c : Prop) [Decidable c] (f : Fld) (v : Nat) :
      s.MetersKept (if c then ((s.wr f v).count unitCh 8 1).status 3 1 else (s.wr f v).count unitCh 8 1) :=
    have h := (wr s f v).trans (hcount _)
    ite (h.trans (status _ 3 1)) h
  unfold State.dimStep
  dsimp only
  split
  · exact hnote _ _ _
  · split
    · exact hnote _ _ _
    · exact refl s

theorem dimReport : s.MetersKept s.dimReport := ite (dimStep s) (ite (wr ..) (refl s))

theorem undoDim : s.MetersKept s.undoDim := by
  have hclear : s.MetersKept { s with house := { s.house with undo := none } } := of_eq rfl rfl
  unfold State.undoDim
  dsimp only
  split
  · exact refl s
  · exact hclear.trans (wr ..)
  · exact hclear.trans (wr ..)

theorem debtArm (x : Batch) : s.MetersKept (s.debtArm x) := by
  have hdebt : s.MetersKept (s.disarm Fld.chInjectDebt).debtReport := (wr ..).trans (debtReport _)
  refine ite (ite hdebt ((hdebt.trans (dimStep _)).trans ?_)) (refl s)
  exact of_eq rfl rfl

/-! ### Charges (R379, R381, R382) -/

theorem chargeOne (cls : Bool) (i n left : Nat) : s.MetersKept (s.chargeOne cls i n left) :=
  have hset := setAccount s cls i _
  ite (hset.trans (debtReport _)) hset

theorem charge (x : Batch) (n : Nat) : s.MetersKept (s.charge x n) :=
  ((chargeOne ..).trans (chargeOne ..)).trans (updTally ..)

theorem chargeTo (b : Option Bid) (n : Nat) : s.MetersKept (s.chargeTo b n) := by
  unfold State.chargeTo
  split
  · exact dimReport s
  · split
    · next x _ =>
      have hx : s.MetersKept ((s.charge x n).debtArm x) := (charge s x n).trans (debtArm _ x)
      exact ite hx (hx.trans (dimReport _))
    · split
      · next ten cls frac _ =>
        have hg : s.MetersKept ((s.chargeOne false ten ((frac + n) / 256) 0).chargeOne true cls ((frac + n) / 256) 0) :=
          (chargeOne ..).trans (chargeOne ..)
        refine (hg.trans ?_).trans (dimReport _)
        exact of_eq rfl rfl
      · exact dimReport s

end State.MetersKept

section
variable (s : State)

/-! ## The meters (R379, R380) -/

theorem State.live_count_first (u n : Nat) : SMap.get 0 (s.count u 0 n).live (u * 256) = SMap.get 0 s.live (u * 256) + BitVec.ofNat 64 n := by
  simpa only [Nat.add_zero] using s.live_count_same u 0 n

/-- Reports of at most 2^20 units each count all of a charge, where there are enough of them. -/
theorem State.meterReports_counts (m : Meter) (b : Option Bid) (k n : Nat) (h : n ≤ k * 1048576) :
    SMap.get 0 (s.meterReports m b n k).live (meterUnit m * 256) = SMap.get 0 s.live (meterUnit m * 256) + BitVec.ofNat 64 n
    ∧ (s.meterReports m b n k).house.rems = s.house.rems := by
  induction k generalizing s n with
  | zero =>
    obtain rfl : n = 0 := by omega
    simp [State.meterReports]
  | succ k ih =>
    have hlast : (s.count (meterUnit m) 0 (min n 1048576)).MetersKept
        (((s.count (meterUnit m) 0 (min n 1048576)).undoDim).chargeTo b (min n 1048576)) :=
      (State.MetersKept.undoDim _).trans (State.MetersKept.chargeTo ..)
    have hlive := (hlast.live m).trans (s.live_count_first (meterUnit m) (min n 1048576))
    simp only [State.meterReports]
    split
    · next hn => exact ⟨by rw [hlive, ← hn], hlast.rems⟩
    · obtain ⟨hl, hr⟩ := ih _ (n - min n 1048576) (by omega)
      refine ⟨?_, hr.trans hlast.rems⟩
      rw [hl, hlive, BitVec.add_assoc, ← BitVec.ofNat_add, Nat.add_sub_cancel' (Nat.min_le_left ..)]

/-- A meter counts the whole units of its energy and carries the rest (R379, R401). -/
theorem State.meter_counts (m : Meter) (n : Nat) (b : Option Bid) :
    SMap.get 0 (s.meter m n b).live (meterUnit m * 256) = SMap.get 0 s.live (meterUnit m * 256) + BitVec.ofNat 64 (s.meterEnergy m n).1
    ∧ SMap.get 0 (s.meter m n b).house.rems (meterUnit m) = (s.meterEnergy m n).2 := by
  obtain ⟨hlive, hrems⟩ := State.meterReports_counts
    { s with house := { s.house with rems := SMap.set 0 s.house.rems (meterUnit m) (s.meterEnergy m n).2 } } m b
    ((s.meterEnergy m n).1 / 1048576 + 1) (s.meterEnergy m n).1 (by omega)
  exact ⟨hlive, by rw [State.meter, hrems, SMap.get_set_same]⟩

/-- A charge of at most 2^20 units takes one report (R380). -/
theorem State.meterReports_one (m : Meter) (b : Option Bid) {n : Nat} (k : Nat) (h : n ≤ 1048576) :
    s.meterReports m b n (k + 1) = ((s.count (meterUnit m) 0 n).undoDim).chargeTo b n := by
  simp [State.meterReports, Nat.min_eq_left h]

theorem State.undoDim_of_none (h : s.house.undo = none) : s.undoDim = s := by simp [State.undoDim, h]

theorem State.chargeTo_batch {b : Bid} {x : Batch} (n : Nat) (h : s.batch b = some x) : s.chargeTo (some b) n =
    if ((s.charge x n).debtArm x).house.undo.isSome then (s.charge x n).debtArm x else ((s.charge x n).debtArm x).dimReport := by
  simp [State.chargeTo, h]

/-! ## The commands -/

/-- `ADMISSION_ROUND` of a Counting House that runs (R393). -/
theorem exec_admissionRound (hpar : s.parBad = []) (hw : s.house.wanted = true) (hrun : s.running = true) :
    exec .admissionRound s = .next
      (let s1 := (State.count { s with house := { s.house with wanted := false } } unitCh 1 1).checkAll.refuseDebt
       ((List.range 4).foldl (fun t c => t.classLoop c s1.batches.length) s1).defer.resetDeficits) := by
  change execAdmissionRound s = _
  simp [execAdmissionRound, State.checkPages_of_clean _ hpar, State.round, hw, hrun, State.halted_of_clean _ hpar]

/-- `DEAL_RUN` of walkers that need no heap, with room in the ledger and the held count (R21, R190, R397). -/
theorem exec_dealRun {x0 x : Batch} {d : Nat} {ds : List Nat} (hrun : s.running = true) (hnext : s.nextBatch = some x0)
    (hx : (s.zeroReady x0.bid).batch x0.bid = some x) (hst : x.st = .admitted) (hzero : x.desc.accum = false ∨ x.zeroed = true)
    (hled : (s.zeroReady x0.bid).house.ledger.length < 16384)
    (hheld : (s.zeroReady x0.bid).heldRoom x.cls (min 64 (x.desc.walkers - x.nextIdx)) = true) (hprobe : x.desc.isProbe = false)
    (hdeal : (s.zeroReady x0.bid).dealOrder = d :: ds) : exec .dealRun s = .next ((s.zeroReady x0.bid).dealRunTo x d) := by
  have hz : (x.desc.accum && !x.zeroed) = false := by rcases hzero with h | h <;> simp [h]
  change execDealRun s = _
  simp [execDealRun, State.deal, hrun, hnext, hx, hst, hz, Nat.not_le.mpr hled, hheld, hprobe, hdeal]

/-- `METER_REPORT` of a charge that makes `k` whole units for a batch not retired, with no injected step to undo (R380, R381). -/
theorem exec_meterReport_whole (m : Meter) {n k : Nat} {b : Bid} {x : Batch} {u : State} (hundo : s.house.undo = none) (hb : s.batch b = some x)
    (he : n * (550 + 5 * s.meterCode) + SMap.get 0 s.house.rems (meterUnit m) = 1000 * k) (hk : k ≤ 1048576)
    (hu : u = State.count { s with house := { s.house with rems := SMap.set 0 s.house.rems (meterUnit m) 0 } } (meterUnit m) 0 k) :
    exec (.meterReport m n (some b)) s = .next (if ((u.charge x k).debtArm x).house.undo.isSome then (u.charge x k).debtArm x
      else ((u.charge x k).debtArm x).dimReport) := by
  have henergy : s.meterEnergy m n = (k, 0) := by simp [State.meterEnergy, he]
  have hundoU : u.house.undo = none := by rw [hu]; exact hundo
  have hbU : u.batch b = some x := by rw [hu]; exact hb
  change Host.Outcome.next (s.meter m n (some b)) = _
  simp only [State.meter, henergy]
  rw [State.meterReports_one _ _ _ _ hk, ← hu, State.undoDim_of_none _ hundoU, State.chargeTo_batch _ _ hbU]

end

/-- Settles O20, one lemma for each command; the four grant commands by what a grant does to the accounts. -/
theorem countingHouseComplete : Obligations.CountingHouseComplete := by
  intro s
  have hgrant (kind set : Bool) (index : BitVec 12) := s.grantCmd_accounts kind set index.toNat
  refine ⟨exec_admissionRound s, fun x0 x d ds => exec_dealRun s, ?addTenant, ?addClass, ?setTenant, ?setClass, ?counts,
    fun m n k b x u => exec_meterReport_whole s m⟩
  case addTenant =>
    intro index ho hpar harm
    obtain ⟨hsame, hother, hkind⟩ := hgrant false false index ho hpar harm
    exact ⟨_, rfl, (congrArg Account.bal hsame :), (congrArg Account.cmt hsame :), hother, hkind⟩
  case addClass =>
    intro index ho hpar harm
    obtain ⟨hsame, -, hkind⟩ := hgrant true false index ho hpar harm
    exact ⟨_, rfl, (congrArg Account.bal hsame :), hkind⟩
  case setTenant =>
    intro index ho hpar harm
    obtain ⟨hsame, hother, -⟩ := hgrant false true index ho hpar harm
    exact ⟨_, rfl, (congrArg Account.bal hsame :), (congrArg Account.cmt hsame :), hother⟩
  case setClass =>
    intro index ho hpar harm
    obtain ⟨hsame, -, hkind⟩ := hgrant true true index ho hpar harm
    exact ⟨_, rfl, (congrArg Account.bal hsame :), hkind⟩
  case counts =>
    intro m n b
    obtain ⟨hlive, hrems⟩ := s.meter_counts m n b
    exact ⟨_, rfl, hlive, hrems⟩

end Sys2Proof.Machine
end

section
/-! PROOFS. The avenues and the map (R14, R16, R163, R164): messages over one link, replays, owner lookups and their replies. -/

namespace Sys2Proof.Machine

section
variable (s : State)

/-! ## Messages over a link -/

/-- `AVENUE_MESSAGE_RECEIVE` of a message that may go on to its destination and is the first of its lane for its link (R14, R16). -/
theorem exec_avenueMessageReceive_hop {n : Nat} {m k : Msg} {b : Nat} {x : Dir} (crcOk : Bool) (ha : s.active = true) (hm : s.msgs[n]? = some m)
    (hdst : s.isOpen m.dst = true ∨ m.body.walker? = none) (hreach : s.reaches m.here m.dst = true) (hbad : m.bad = false)
    (hmove : s.movable n = some (k, x)) (hb : neighbour m.here x = some b) :
    exec (.avenueMessageReceive n crcOk) s = .next (s.hop n m x b crcOk) := by
  have hbody : (if s.isOpen m.dst then none else m.body.walker?) = none := by rcases hdst with h | h <;> simp [h]
  change execAvenueMessageReceive n crcOk s = _
  simp [execAvenueMessageReceive, State.advance, ha, hm, hbad, hbody, hreach, hmove, hb]

/-- `AVENUE_REPLAY` over a link that is still open (R16). -/
theorem exec_avenueReplay_open {n : Nat} {m : Msg} {b : Nat} (crcOk : Bool) (ha : s.active = true) (hm : s.msgs[n]? = some m)
    (hvia : m.via = some b) (hlink : s.linkOpen m.here b = true) :
    exec (.avenueReplay n crcOk) s = .next (if crcOk then s.crossed n m b
      else if m.replays < 2 then s.askReplay n m b (m.replays + 1) else s.closeLink m.here b) := by
  change execAvenueReplay n crcOk s = _
  simp [execAvenueReplay, State.replayHop, ha, hm, hvia, hlink]

/-! ## Owner lookups -/

/-- `MAP_LOOKUP` for the first treelet whose owner is wanted and not yet asked for (R163). -/
theorem exec_mapLookup {d : Dist} {tid : Nat} (ha : s.active = true) (hup : s.shareUp d.val = true)
    (hwant : (s.wantedTids d.val).find? (fun x => decide (s.memoAns d.val x = none) && decide (x ∉ (s.dist d.val).asked)) = some tid) :
    exec (.mapLookup d) s = .next (if mapHolder tid = d.val then (s.mapParity tid).answered d.val tid (s.mapEntry tid)
      else ((s.updDist d.val (fun x => { x with asked := x.asked ++ [tid] })).count d.val 0x10 1).sendMsg .request d.val (mapHolder tid)
        (.lookup tid)) := by
  change execMapLookup d s = _
  simp only [execMapLookup, ha, hup, Bool.and_self, if_true, State.lookup, hwant]

theorem State.nextMsg_congr (d : Nat) {p q : Payload → Bool} (h : ∀ x, p x = q x) : s.nextMsg d p = s.nextMsg d q := by rw [funext h]

/-- `MAP_LOOKUP_REPLY` of the reply handed over next (R163, R164). -/
theorem exec_mapLookupReply {d : Dist} {m : Msg} {tid : Nat} {ep : BitVec 16} {ans : Option (List Word)} (ha : s.active = true)
    (hm : s.gets d 2 m) (hbody : m.body = .lookupReply tid ep ans) :
    exec (.mapLookupReply d) s = .next ((s.dropMsg m).lookupReply d.val tid ep ans) := by
  change execMapLookupReply d s = _
  unfold execMapLookupReply
  rw [State.nextMsg_congr s d.val (q := fun p => decide (p.code = 2)) ?kind, hm]
  case kind => intro p; cases p <;> rfl
  simp [ha, hbody]

end

/-- Settles O23, one lemma for each command. -/
theorem avenueCommandsComplete : Obligations.AvenueCommandsComplete := by
  intro s ha
  refine ⟨?receive, ?replay, fun d tid => exec_mapLookup s ha, fun d m tid ep ans => exec_mapLookupReply s ha⟩
  case receive =>
    intro n m k b x crcOk hm hdst hreach hbad hmove hb
    exact exec_avenueMessageReceive_hop s crcOk ha hm hdst hreach hbad hmove hb
  case replay =>
    intro n m b hm hvia hlink
    exact ⟨exec_avenueReplay_open s true ha hm hvia hlink, exec_avenueReplay_open s false ha hm hvia hlink⟩

end Sys2Proof.Machine
end

section
/-! PROOFS. Queues (R42, R57, R66, R67, R373, R375): the effective tenant and class of a batch, and fetch, stamping, acceptance and page walks. -/

namespace Sys2Proof.Machine

/-! ## Descriptors by version (R50, R51, R52) -/

theorem descOf_v1 {bs : List Byte} (cls ten : Nat) (h : bytesLe bs 0 1 % 16 = 1) : descOf bs cls ten = descV1 bs cls ten := by
  simp only [descOf, h]

theorem descOf_v2 {bs : List Byte} (cls ten : Nat) (h : bytesLe bs 0 1 % 16 = 2) : descOf bs cls ten = descV2 bs := by
  simp only [descOf, h]

section
variable (s : State) (q : Que) (f : Fetched) (i : Nat)

theorem State.newBatch_tenant : (s.newBatch q f i).tenant = (descOf f.raw (s.queClass q.val) (s.queTenant q.val)).tenant := rfl

theorem State.newBatch_cls : (s.newBatch q f i).cls = max (s.queClass q.val) (descOf f.raw (s.queClass q.val) (s.queTenant q.val)).cls := rfl

end

/-- Settles O42: a v1 descriptor carries the queue's own class and tenant, a v2 descriptor those of its bytes. -/
theorem effectiveTenantAndClass : Obligations.EffectiveTenantAndClass := by
  intro s q f i
  refine ⟨fun h => ?v1, fun h => ?v2⟩
  case v1 =>
    rw [State.newBatch_tenant, State.newBatch_cls, descOf_v1 _ _ h]
    exact ⟨rfl, max_self _⟩
  case v2 =>
    rw [State.newBatch_tenant, State.newBatch_cls, descOf_v2 _ _ h]
    exact ⟨rfl, rfl⟩

section
variable (s : State)

/-! ## Fetch (R42, R67) -/

/-- Where no queue waits for tally room it is any queue's turn (R67). -/
theorem State.roomTurn_of_none (q : Nat) (h : s.gate.room = []) : s.roomTurn q = true := by simp [State.roomTurn, h]

/-- `DESCRIPTOR_FETCH` of a descriptor that is one entry long, with tally room (R42, R67). -/
theorem exec_descriptorFetch_whole {q : Que} {t : State} {bs : List Byte} {i : Nat} (hpar : s.parBad = []) (hroom : s.gate.room = [])
    (hmay : s.mayFetch q.val = true) (hseq : q.val ∉ s.seqWait) (hnone : SMap.find s.fetched q.val = none) (hun : s.unfetched q.val ≠ 0)
    (hread : s.ringRead q 0 = (t, .ok bs)) (halloc : s.tallyAlloc (s.roomHeld + needEntries (bytesLe bs 0 1)) = some i)
    (hver : bytesLe bs 0 1 % 16 ≠ 2) :
    exec (.descriptorFetch q) s = .next (State.count { t.roomTaken q.val with
      fetched := SMap.put t.fetched q.val
        { raw := bs, ring := s.rd (Fld.queHeadIndex q.val), entries := 1, half := false, stamped := false, fault := none, tly := none,
          mirrored := false } } unitGate 0 1) := by
  have hfet : (t.roomTaken q.val).fetched = t.fetched := rfl
  change execDescriptorFetch q s = _
  simp only [execDescriptorFetch, State.checkPages_of_clean _ hpar, State.fetch, hmay, hseq, hnone, hun, hread, halloc, hver,
    State.roomTurn_of_none _ _ hroom, hfet, decide_false, Bool.and_false, Bool.not_true, Bool.or_false, Bool.false_eq_true, if_false]

/-! ## Stamping (R373, R374) -/

/-- With no resume waiting, none is made. -/
theorem State.resumeWaiting_of_none (p : Batch → Bool) (h : ∀ x ∈ s.batches, x.again = false) : s.resumeWaiting p = s := by
  have hnil : s.batches.filter (fun x => x.again && decide (x.st = .parked) && p x) = [] := by
    rw [List.filter_eq_nil_iff]
    intro x hx
    simp [h x hx]
  rw [State.resumeWaiting, hnil, List.foldl_nil]

/-- `STAMPING` of a fetched descriptor all of whose pages are there, with room in the store (R71 step 4, R373). -/
theorem exec_stamping {q : Que} {f : Fetched} {t : State} (hpar : s.parBad = []) (hf : SMap.find s.fetched q.val = some f)
    (hhalf : f.half = false) (hst : f.stamped = false) (hup : s.phase = .up) (hen : s.flag Fld.lnkStampBaseEn = true)
    (hshoot : s.gate.shoot = false) (hagain : ∀ x ∈ s.batches, x.again = false) (hcap : t.stamps.length ≤ stampCap)
    (h1 : (descOf f.raw (s.queClass q.val) (s.queTenant q.val)).check1 = none)
    (h3 : (descOf f.raw (s.queClass q.val) (s.queTenant q.val)).check3 = none)
    (hstamp : s.stampBatch (s.nextBid q) (descOf f.raw (s.queClass q.val) (s.queTenant q.val)) = (t, none)) :
    exec (.stamping q) s = .next { t with fetched := SMap.put t.fetched q.val { f with stamped := true } } := by
  change execStamping q s = _
  simp [execStamping, State.checkPages_of_clean _ hpar, State.resumeWaiting_of_none _ _ hagain, State.stampFetched, hf, hhalf, hst, hup, hen,
    hshoot, h1, h3, hstamp, Nat.not_lt.mpr hcap, State.halted_of_clean _ hpar]

/-! ## Acceptance (R66) -/

/-- `ACCEPTANCE` of a stamped descriptor with tally room, where no twin mirrors it (R66). -/
theorem exec_acceptance {q : Que} {f : Fetched} {i : Nat} (hpar : s.parBad = []) (hf : SMap.find s.fetched q.val = some f)
    (hst : f.stamped = true) (hlent : s.flag Fld.twnStatusLent = false) (hup : s.phase = .up) (htly : f.tly = none)
    (halloc : s.tallyAlloc (needEntries (bytesLe f.raw 0 1)) = some i) (hmir : s.mirrored = false) :
    exec (.acceptance q) s = .next ((s.roomTaken q.val).acceptNow q f i) := by
  change execAcceptance q s = _
  simp [execAcceptance, State.checkPages_of_clean _ hpar, State.accept, hf, hst, hlent, hup, htly, halloc, hmir, State.halted_of_clean _ hpar]

/-! ## Page walks (R371, R375) -/

/-- `PAGE_WALK_COMPLETE` of a walk that finds its page: what the walk leaves in the translation cache stays (R375). -/
theorem exec_pageWalkComplete_ok {r : Root} {va : BitVec 52} {t : State} {x : Nat × Nat} (h : s.xlatePage r va.toNat false = (t, .ok x)) :
    exec (.pageWalkComplete r va) s = .next t := by
  change execPageWalkComplete r va s = _
  simp only [execPageWalkComplete, h]

end

/-- Settles O19, one lemma for each command; the identity and state of the accepted batch are those of `State.newBatch`. -/
theorem queueEnginesComplete : Obligations.QueueEnginesComplete := by
  intro q s hpar hroom
  refine ⟨fun t bs i => exec_descriptorFetch_whole s hpar hroom, fun f t => exec_stamping s hpar, ?accept,
    fun r va t x => exec_pageWalkComplete_ok s⟩
  case accept =>
    intro f i hf hst hlent hup htly halloc hmir
    exact ⟨exec_acceptance s hpar hf hst hlent hup htly halloc hmir, rfl, rfl⟩

end Sys2Proof.Machine
end

section
/-! PROOFS. The registers of a queue (R39, R41, R44, R46, R49, R72, R74, R387): host writes to them, the errors of a queue, `RUN`, cancel and
resume. -/

namespace Sys2Proof.Machine

/-! ## Fields of a word -/

/-- A field depends on its own bits alone. -/
theorem field_congr {v w : Word} {hi lo : Nat} (h : ∀ i, lo ≤ i → i ≤ hi → v.getLsbD i = w.getLsbD i) : field v hi lo = field w hi lo := by
  apply Nat.eq_of_testBit_eq
  intro i
  simp only [field, bits, Nat.testBit_mod_two_pow, Nat.testBit_div_two_pow]
  by_cases hi' : i < hi + 1 - lo
  · have hb : v.toNat.testBit (i + lo) = w.toNat.testBit (i + lo) := h (i + lo) (by omega) (by omega)
    rw [hb]
  · simp [hi']

/-- A field within the bits that a write gives a register reads as the value written (R463). -/
theorem field_written (old v : Word) {mhi mlo hi lo : Nat} (hhi : hi ≤ mhi) (hlo : mlo ≤ lo) (h32 : hi < 32) :
    field ((old &&& ~~~fieldMask mhi mlo) ||| (v &&& fieldMask mhi mlo)) hi lo = field v hi lo := by
  apply field_congr
  intro i h1 h2
  have hm : (fieldMask mhi mlo).getLsbD i = true := by rw [fieldMask_getLsbD _ _ _ (by omega)]; simp; omega
  simp [hm]

/-! ## The pages of queues (R460, R500) -/

theorem pageReg_que (n o : Nat) : pageReg .que n o = 0xC0000 + n * 0x1000 + o := by
  simp only [pageReg, PageKind.first]
  omega

/-- The registers of one page stand at different offsets. -/
theorem pageReg_ne (k : PageKind) (n : Nat) {o o' : Nat} (h : o ≠ o') : pageReg k n o ≠ pageReg k n o' := by
  simp only [pageReg]
  omega

section
variable (n : Nat)

theorem Fld.queDepthDepth_off : (Fld.queDepthDepth n).off = pageReg .que n 0x048 := by rw [pageReg_que, Fld.queDepthDepth]
theorem Fld.queTailIndex_off : (Fld.queTailIndex n).off = pageReg .que n 0x04C := by rw [pageReg_que, Fld.queTailIndex]
theorem Fld.queTailPhase_off : (Fld.queTailPhase n).off = pageReg .que n 0x04C := by rw [pageReg_que, Fld.queTailPhase]
theorem Fld.queStateErr_off : (Fld.queStateErr n).off = pageReg .que n 0x064 := by rw [pageReg_que, Fld.queStateErr]
theorem Fld.queStateRun_off : (Fld.queStateRun n).off = pageReg .que n 0x064 := by rw [pageReg_que, Fld.queStateRun]
theorem Fld.queSeqSeq_off : (Fld.queSeqSeq n).off = pageReg .que n 0x080 := by rw [pageReg_que, Fld.queSeqSeq]
theorem Fld.queStatus_off (b : Nat) : (Fld.status (0xC0 + n) b).off = pageReg .que n 0x008 := by rw [pageReg, PageKind.first, Fld.status]

end

/-- `QUE_DEPTH` and `QUE_TAIL` are written by the host in bits 16 to 0. -/
theorem queDepth_rw (q : Que) : (regAt (pageReg .que q.val 0x048)).rw = fieldMask 16 0 := by
  rw [regAt_pageReg .que q.isLt (by decide)]
  rfl

theorem queTail_rw (q : Que) : (regAt (pageReg .que q.val 0x04C)).rw = fieldMask 16 0 := by
  rw [regAt_pageReg .que q.isLt (by decide)]
  rfl

theorem queEst_rw_ne (q : Que) : (regAt (pageReg .que q.val 0x070)).rw ≠ 0 := by
  rw [regAt_pageReg .que q.isLt (by decide)]
  exact (by decide : (0xFFFFFFFF : Word) ≠ 0)

section
variable (s : State)

/-! ## Host writes to a page with parity (R463, R472, R510) -/

/-- The parity of a register written touches no register but the page's arms. -/
theorem State.reg_parityWrite_other {off j : Nat} (h : j ≠ offPage off * 0x1000 + 0x010) : (s.parityWrite off).reg j = s.reg j := by
  unfold State.parityWrite
  dsimp only
  split
  · rfl
  · split
    · exact (State.reg_congr (s := s.disarm _) rfl j).trans (State.reg_wr_other _ _ _ _ h)
    · exact State.reg_congr rfl j

/-- With the page's `CFG` arm clear it touches no register at all. -/
theorem State.parityWrite_regs {off : Nat} (harm : s.armed ⟨offPage off * 0x1000 + 0x010, 31, 31⟩ = false) : (s.parityWrite off).regs = s.regs := by
  simp only [State.parityWrite, harm, Bool.false_eq_true, if_false]
  split <;> rfl

@[simp] theorem State.parityWrite_batches (off : Nat) : (s.parityWrite off).batches = s.batches := by
  unfold State.parityWrite
  dsimp only
  split
  · rfl
  · split <;> rfl

@[simp] theorem State.parityWrite_queErrS (off : Nat) : (s.parityWrite off).queErrS = s.queErrS := by
  unfold State.parityWrite
  dsimp only
  split
  · rfl
  · split <;> rfl

section
variable {q : Que} {o : Nat} (v : Word) (ho : o < 0x1000) (harmOff : o ≠ 0x010)
  (harm : s.armed ⟨pageReg .que q.val 0x010, 31, 31⟩ = false) (hrw : (regAt (pageReg .que q.val o)).rw ≠ 0)

include ho harmOff harm hrw

/-- A host write to a register of a queue's page, with the page's `CFG` arm clear: the registers are as with the RW bits set. -/
theorem State.hostSet_que_regs : (s.hostSet (pageReg .que q.val o) v).regs = (s.setReg (pageReg .que q.val o)
    ((s.reg (pageReg .que q.val o) &&& ~~~(regAt (pageReg .que q.val o)).rw) ||| (v &&& (regAt (pageReg .que q.val o)).rw))).regs := by
  have hoff : offPage (pageReg .que q.val o) = PageKind.first .que + q.val := offPage_pageReg _ _ ho
  have hne : pageReg .que q.val 0x010 ≠ pageReg .que q.val o := by simp only [pageReg]; omega
  have hclear (w : Word) : (s.setReg (pageReg .que q.val o) w).armed ⟨offPage (pageReg .que q.val o) * 0x1000 + 0x010, 31, 31⟩ = false := by
    rw [hoff]
    rwa [← pageReg, State.armed, State.flag, State.rd, State.reg_setReg_other _ _ _ _ hne]
  have hpage : pageOf (offPage (pageReg .que q.val o)) = some (.que, q.val) := by rw [hoff, pageOf_first_add .que q.isLt]
  simp only [State.hostSet, hrw, if_false, hpage]
  exact State.parityWrite_regs _ (hclear _)

theorem State.reg_hostSet_que_same : (s.hostSet (pageReg .que q.val o) v).reg (pageReg .que q.val o) =
    (s.reg (pageReg .que q.val o) &&& ~~~(regAt (pageReg .que q.val o)).rw) ||| (v &&& (regAt (pageReg .que q.val o)).rw) := by
  rw [State.reg_congr (s.hostSet_que_regs v ho harmOff harm hrw), State.reg_setReg_same]

theorem State.reg_hostSet_que_other {j : Nat} (hj : j ≠ pageReg .que q.val o) : (s.hostSet (pageReg .que q.val o) v).reg j = s.reg j := by
  rw [State.reg_congr (s.hostSet_que_regs v ho harmOff harm hrw), State.reg_setReg_other _ _ _ _ hj]

end

/-! ## Errors of a queue (R41, R44, R45) -/

/-- A field written leaves the registers as they depend on those before. -/
theorem State.wr_regs_congr {s t : State} (f : Fld) (v : Nat) (h : t.regs = s.regs) : (t.wr f v).regs = (s.wr f v).regs := by
  simp only [State.wr, State.setReg, State.reg_congr h, h]

theorem State.rd_wr_queStateRun (n v : Nat) : (s.wr (Fld.queStateRun n) v).rd (Fld.queStateRun n) = v % 2 :=
  State.rd_wr_same _ _ _ (by simp [Fld.queStateRun]) (by simp [Fld.queStateRun])

@[simp] theorem State.unfetch_regs (q : Que) : (s.unfetch q).regs = s.regs := by
  unfold State.unfetch
  split
  · rfl
  · dsimp only
    split <;> rfl

@[simp] theorem State.unfetch_batches (q : Que) : (s.unfetch q).batches = s.batches := by
  unfold State.unfetch
  split
  · rfl
  · dsimp only
    split <;> rfl

section
variable (q : Que) (code : Nat)

/-- A queue stopped with an error, before the page's status shows it (R44, R45). -/
def State.queStopped : State :=
  { ((s.unfetch q).wr (Fld.queStateErr q.val) code).wr (Fld.queStateRun q.val) 0 with queErrS := addNew (s.unfetch q).queErrS q.val }

theorem State.queError_eq : s.queError q.val code =
    if s.rd (Fld.queStateErr q.val) = 0 then (s.queStopped q code).status (0xC0 + q.val) 0 else s.queStopped q code := by
  have hwas : (s.unfetch q).rd (Fld.queStateErr q.val) = s.rd (Fld.queStateErr q.val) := State.rd_congr (s.unfetch_regs q) _
  rw [← hwas]
  unfold State.queError
  rw [dif_pos q.isLt]
  rfl

theorem State.queStopped_regs : (s.queStopped q code).regs = ((s.wr (Fld.queStateErr q.val) code).wr (Fld.queStateRun q.val) 0).regs := by
  unfold State.queStopped
  dsimp only
  exact State.wr_regs_congr _ _ (State.wr_regs_congr _ _ (s.unfetch_regs q))

@[simp] theorem State.queStopped_batches : (s.queStopped q code).batches = s.batches := by simp [State.queStopped]

@[simp] theorem State.queError_batches : (s.queError q.val code).batches = s.batches := by
  rw [State.queError_eq]
  split <;> simp

/-- An error changes `QUE_STATE`, and beside it the page's status alone. -/
theorem State.reg_queError {j : Nat} (hj : j ≠ pageReg .que q.val 0x008) : (s.queError q.val code).reg j =
    ((s.wr (Fld.queStateErr q.val) code).wr (Fld.queStateRun q.val) 0).reg j := by
  rw [← Fld.queStatus_off _ 0] at hj
  rw [State.queError_eq]
  split
  · rw [State.status, State.reg_setBit_other _ _ _ _ hj]
    exact State.reg_congr (s.queStopped_regs q code) j
  · exact State.reg_congr (s.queStopped_regs q code) j

theorem State.rd_queError_err (hcode : code < 16) : (s.queError q.val code).rd (Fld.queStateErr q.val) = code := by
  have hst : (Fld.queStateErr q.val).off ≠ pageReg .que q.val 0x008 := by rw [Fld.queStateErr_off]; exact pageReg_ne _ _ (by decide)
  calc (s.queError q.val code).rd (Fld.queStateErr q.val)
      = ((s.wr (Fld.queStateErr q.val) code).wr (Fld.queStateRun q.val) 0).rd (Fld.queStateErr q.val) := by
        rw [State.rd, State.reg_queError _ _ _ hst, ← State.rd]
    _ = (s.wr (Fld.queStateErr q.val) code).rd (Fld.queStateErr q.val) :=
        State.rd_wr_beside _ _ _ _ (by rw [Fld.queStateErr_off, Fld.queStateRun_off]) (by simp [Fld.queStateErr])
          (by simp [Fld.queStateErr, Fld.queStateRun])
    _ = code % 2 ^ 4 := State.rd_wr_same _ _ _ (by simp [Fld.queStateErr]) (by simp [Fld.queStateErr])
    _ = code := Nat.mod_eq_of_lt hcode

theorem State.rd_queError_run : (s.queError q.val code).rd (Fld.queStateRun q.val) = 0 := by
  have hst : (Fld.queStateRun q.val).off ≠ pageReg .que q.val 0x008 := by rw [Fld.queStateRun_off]; exact pageReg_ne _ _ (by decide)
  rw [State.rd, State.reg_queError _ _ _ hst, ← State.rd, State.rd_wr_queStateRun]

/-- The registers of the queue's page but its status and `QUE_STATE` stay. -/
theorem State.reg_queError_other {o : Nat} (h8 : o ≠ 0x008) (h64 : o ≠ 0x064) :
    (s.queError q.val code).reg (pageReg .que q.val o) = s.reg (pageReg .que q.val o) := by
  rw [State.reg_queError _ _ _ (pageReg_ne _ _ h8), State.reg_wr_other, State.reg_wr_other]
  · rw [Fld.queStateErr_off]
    exact pageReg_ne _ _ h64
  · rw [Fld.queStateRun_off]
    exact pageReg_ne _ _ h64

end

/-! ## `QUE_TAIL` (R41) -/

/-- The entries between the head and the tail that a value names (R40). -/
def State.tailCount (q : Nat) (v : Word) : Nat :=
  ringCount (s.rd (Fld.queDepthDepth q)) (s.rd (Fld.queHeadIndex q)) (s.rd (Fld.queHeadPhase q)) (field v 15 0) (field v 16 16)

/-- A tail outside the ring, or behind the head, or more than the ring's depth past it (R41). -/
def State.tailBad (q : Nat) (v : Word) : Prop :=
  s.rd (Fld.queDepthDepth q) ≤ field v 15 0 ∨ (s.rd (Fld.queHeadPhase q) = field v 16 16 ∧ field v 15 0 < s.rd (Fld.queHeadIndex q))
    ∨ s.rd (Fld.queDepthDepth q) < s.tailCount q v

theorem State.tailWrite_bad {q : Nat} {v : Word} (h : s.tailBad q v) : s.tailWrite q v = s.queError q 1 := by
  have hc : (decide (s.rd (Fld.queDepthDepth q) ≤ field v 15 0) || (decide (s.rd (Fld.queHeadPhase q) = field v 16 16)
      && decide (field v 15 0 < s.rd (Fld.queHeadIndex q))) || decide (s.rd (Fld.queDepthDepth q) < s.tailCount q v)) = true := by
    simpa [State.tailBad, or_assoc] using h
  exact if_pos hc

/-- A tail that is good and does not move back over entries not yet fetched is stored (R41). -/
theorem State.tailWrite_good {q : Nat} {v : Word} (h : ¬ s.tailBad q v) (hback : s.unfetched q ≤ s.tailCount q v) :
    s.tailWrite q v = s.hostSet (pageReg .que q 0x04C) v := by
  have hc : (decide (s.rd (Fld.queDepthDepth q) ≤ field v 15 0) || (decide (s.rd (Fld.queHeadPhase q) = field v 16 16)
      && decide (field v 15 0 < s.rd (Fld.queHeadIndex q))) || decide (s.rd (Fld.queDepthDepth q) < s.tailCount q v)) = false := by
    simpa [State.tailBad, and_assoc] using h
  exact (if_neg (Bool.eq_false_iff.mp hc)).trans (if_neg (Nat.not_lt.mpr hback))

theorem exec_queTailWrite {q : Que} {v : Word} (ho : s.opens (pageReg .que q.val 0x04C) = true) :
    exec (.queTailWrite q v) s = .next (s.tailWrite q.val v) :=
  congrArg Host.Outcome.next (State.guardWrite_opens _ _ _ ho)

/-! ## `QUE_DEPTH` and `QUE_EST` (R39, R387) -/

/-- `QUE_DEPTH_WRITE` of a depth that is stored and leaves the queue enabled. -/
theorem exec_queDepthWrite_good {q : Que} {v : Word} (ho : s.opens (pageReg .que q.val 0x048) = true) (hlo : 2 ≤ field v 16 0)
    (hhi : field v 16 0 ≤ 65536) : exec (.queDepthWrite q v) s = .next (s.hostSet (pageReg .que q.val 0x048) v) := by
  have hin : ¬(field v 16 0 = 1 ∨ 65536 < field v 16 0) := by omega
  have hnz : ¬ field v 16 0 = 0 := by omega
  change execQueDepthWrite q v s = _
  simp only [execQueDepthWrite, State.guardWrite_opens _ _ _ ho, hin, hnz, if_false]

theorem exec_queDepthWrite_bad {q : Que} {v : Word} (ho : s.opens (pageReg .que q.val 0x048) = true)
    (hbad : field v 16 0 = 1 ∨ 65536 < field v 16 0) : exec (.queDepthWrite q v) s = .next (s.queError q.val 3) := by
  change execQueDepthWrite q v s = _
  simp only [execQueDepthWrite, State.guardWrite_opens _ _ _ ho, hbad, if_true]

theorem exec_queEstWrite {q : Que} {v : Word} (ho : s.opens (pageReg .que q.val 0x070) = true) :
    exec (.queEstWrite q v) s = .next (s.hostSet (pageReg .que q.val 0x070) v) :=
  congrArg Host.Outcome.next (State.guardWrite_opens _ _ _ ho)

/-! ## `RUN` (R44, R46, R49) -/

/-- `RUN` set and the queue's error left behind (R44). -/
def State.runOn (q : Que) : State :=
  (State.wr { s with queErrS := s.queErrS.filter (fun x => decide (x ≠ q.val)) } (Fld.queStateRun q.val) 1).parityWrite (pageReg .que q.val 0x064)

/-- The arms of a queue's page are the only register that the parity of its `QUE_STATE` may touch. -/
theorem State.reg_parityWrite_queState (q : Que) {j : Nat} (hj : j ≠ pageReg .que q.val 0x010) :
    (s.parityWrite (pageReg .que q.val 0x064)).reg j = s.reg j :=
  State.reg_parityWrite_other _ (by rwa [offPage_pageReg _ _ (by decide)])

theorem State.reg_runOn_other (q : Que) {j : Nat} (h10 : j ≠ pageReg .que q.val 0x010) (h64 : j ≠ pageReg .que q.val 0x064) :
    (s.runOn q).reg j = s.reg j := by
  rw [State.runOn, State.reg_parityWrite_queState _ _ h10, State.reg_wr_other _ _ _ _ (by rwa [Fld.queStateRun_off])]
  exact State.reg_congr rfl j

theorem State.rd_runOn_run (q : Que) : (s.runOn q).rd (Fld.queStateRun q.val) = 1 := by
  have hne : (Fld.queStateRun q.val).off ≠ pageReg .que q.val 0x010 := by rw [Fld.queStateRun_off]; exact pageReg_ne _ _ (by decide)
  rw [State.rd, State.runOn, State.reg_parityWrite_queState _ _ hne, ← State.rd, State.rd_wr_queStateRun]

theorem State.rd_runOn_seq (q : Que) : (s.runOn q).rd (Fld.queSeqSeq q.val) = s.rd (Fld.queSeqSeq q.val) := by
  rw [State.rd, Fld.queSeqSeq_off, State.reg_runOn_other _ _ (pageReg_ne _ _ (by decide)) (pageReg_ne _ _ (by decide)), State.rd, Fld.queSeqSeq_off]

theorem State.not_mem_runOn_queErrS (q : Que) : q.val ∉ (s.runOn q).queErrS := by simp [State.runOn]

/-- Whether a pair is formed stands in `TWN_STATUS` (R418). -/
theorem State.paired_congr {s t : State} (h : t.rd Fld.twnStatusState = s.rd Fld.twnStatusState) : t.paired = s.paired := by
  simp only [State.paired, h]

theorem State.runOn_paired (q : Que) : (s.runOn q).paired = s.paired := by
  have hne (o : Nat) : Fld.twnStatusState.off ≠ pageReg .que q.val o := by simp only [Fld.twnStatusState, pageReg_que]; omega
  apply State.paired_congr
  rw [State.rd, State.reg_runOn_other _ _ (hne _) (hne _), ← State.rd]

/-- `QUE_RUN_SET` of an engine that is not paired: a queue that was disabled or stopped reads its seal word first (R44, R46). -/
theorem exec_queRunSet {q : Que} {t : State} (ho : s.opens (pageReg .que q.val 0x064) = true) (hhalt : s.halted .que q.val = false)
    (ht : (if s.queState q.val = 0 ∨ s.queState q.val = 1 then s.loadSeq q else s) = t) (hp : t.paired = false) :
    exec (.queRunSet q) s = .next (t.runOn q) := by
  have hsolo : (t.runOn q).paired = false := (t.runOn_paired q).trans hp
  simp only [State.runOn] at hsolo ⊢
  change execQueRunSet q s = _
  simp only [execQueRunSet, State.guardWrite_opens _ _ _ ho, hhalt, ht, hsolo, Bool.false_eq_true, if_false]

/-- The seal word read gives the queue its next sequence number (R46). `State.loadSeq` is unfolded as a function: the kernel would evaluate
the seal word's address, a sum of numbers near 2^52, to unfold it at a queue. -/
theorem State.loadSeq_ok {q : Que} {u : State} {bs : List Byte}
    (h : s.readVa (.que q) (recSeal (s.queRec { que := q, seq := 0, held := false })) 8 = (u, .ok bs)) :
    ∃ l r, s.loadSeq q = State.wr { u with seqWait := l, reports := r } (Fld.queSeqSeq q.val) (bytesLe bs 0 4) := by
  have hrec : s.queRec (s.nextBid q) = s.queRec { que := q, seq := 0, held := false } := by simp [State.queRec, State.nextBid]
  rw [← hrec] at h
  have hdef : State.loadSeq = State.loadSeq := rfl
  conv at hdef => rhs; delta State.loadSeq
  have hq := congrFun (congrFun hdef s) q
  dsimp only at hq
  rw [h] at hq
  exact ⟨_, _, hq⟩

theorem exec_queRunClear {q : Que} (ho : s.opens (pageReg .que q.val 0x064) = true) : exec (.queRunClear q) s =
    .next (((s.unfetch q).wr (Fld.queStateRun q.val) 0).parityWrite (pageReg .que q.val 0x064)) :=
  congrArg Host.Outcome.next (State.guardWrite_opens _ _ _ ho)

/-! ## Cancel and resume (R72, R74) -/

theorem exec_queCancel {q : Que} (ho : s.opens (pageReg .que q.val 0x064) = true) (hne : s.unsealed q.val ≠ []) : exec (.queCancel q) s
    = .next (let u := (s.unsealed q.val).foldl (fun v x => (v.cancelBatch x).updBatch x.bid (fun y => { y with canceled := true })) s
             { u with cancels := addNew u.cancels q.val }) := by
  change execQueCancel q s = _
  simp only [execQueCancel, State.guardWrite_opens _ _ _ ho, hne, if_false]

theorem exec_queResume {q : Que} (ho : s.opens (pageReg .que q.val 0x060) = true) : exec (.queResume q) s
    = .next ((s.batches.filter (fun x => decide (x.bid.que = q) && decide (x.st = .parked))).foldl (fun u x => u.resumeBatch x) s) :=
  congrArg Host.Outcome.next (State.guardWrite_opens _ _ _ ho)

end

/-- Settles O18, one lemma for each command. -/
theorem queueRegistersComplete : Obligations.QueueRegistersComplete := by
  intro q s
  refine ⟨?tail, ?tailBad, ?depth, ?depthBad, ?run, ?runSeal, ?clear, ?est, exec_queCancel s, exec_queResume s⟩
  case tail =>
    intro v ho harm hidx hhead hdepth hback
    have hgood : ¬ s.tailBad q.val v := by
      rintro (h | h | h)
      · exact absurd hidx (Nat.not_lt.mpr h)
      · exact hhead h
      · exact absurd hdepth (Nat.not_le.mpr h)
    have hrw : (regAt (pageReg .que q.val 0x04C)).rw ≠ 0 := by rw [queTail_rw]; decide
    have hreg := s.reg_hostSet_que_same v (by decide) (by decide) harm hrw
    rw [queTail_rw] at hreg
    refine ⟨_, by rw [exec_queTailWrite s ho, s.tailWrite_good hgood hback], ?_, ?_,
      fun j hj => s.reg_hostSet_que_other v (by decide) (by decide) harm hrw hj⟩
    · rw [State.rd, Fld.queTailIndex_off, hreg]
      exact field_written (hi := 15) (lo := 0) _ _ (by decide) (by decide) (by decide)
    · rw [State.rd, Fld.queTailPhase_off, hreg]
      exact field_written (hi := 16) (lo := 16) _ _ (by decide) (by decide) (by decide)
  case tailBad =>
    intro v ho hbad
    exact ⟨_, by rw [exec_queTailWrite s ho, s.tailWrite_bad hbad], s.rd_queError_err q 1 (by decide), s.rd_queError_run q 1,
      s.reg_queError_other q 1 (by decide) (by decide), s.queError_batches q 1⟩
  case depth =>
    intro v ho harm hlo hhi
    have hrw : (regAt (pageReg .que q.val 0x048)).rw ≠ 0 := by rw [queDepth_rw]; decide
    have hreg := s.reg_hostSet_que_same v (by decide) (by decide) harm hrw
    rw [queDepth_rw] at hreg
    refine ⟨_, exec_queDepthWrite_good s ho hlo hhi, ?_, fun j hj => s.reg_hostSet_que_other v (by decide) (by decide) harm hrw hj⟩
    rw [State.rd, Fld.queDepthDepth_off, hreg]
    exact field_written (hi := 16) (lo := 0) _ _ (by decide) (by decide) (by decide)
  case depthBad =>
    intro v ho hbad
    exact ⟨_, exec_queDepthWrite_bad s ho hbad, s.rd_queError_err q 3 (by decide), s.rd_queError_run q 3,
      s.reg_queError_other q 3 (by decide) (by decide)⟩
  case run =>
    intro ho hhalt hst hp
    exact ⟨_, exec_queRunSet s ho hhalt (if_neg (by omega)) hp, s.rd_runOn_run q, s.not_mem_runOn_queErrS q, s.rd_runOn_seq q⟩
  case runSeal =>
    intro u bs ho hhalt hst hread hp
    obtain ⟨l, r, hload⟩ := s.loadSeq_ok hread
    have hne : Fld.twnStatusState.off ≠ (Fld.queSeqSeq q.val).off := by simp only [Fld.twnStatusState, Fld.queSeqSeq]; omega
    have hpair : (State.wr { u with seqWait := l, reports := r } (Fld.queSeqSeq q.val) (bytesLe bs 0 4)).paired = false := by
      rw [← hp]
      exact State.paired_congr ((State.rd_wr_other _ _ _ _ hne).trans (State.rd_congr rfl _))
    refine ⟨_, exec_queRunSet s ho hhalt ((if_pos (by omega)).trans hload) hpair, State.rd_runOn_run _ q, ?_⟩
    rw [State.rd_runOn_seq, State.rd_wr_same _ _ _ (by simp [Fld.queSeqSeq]) (by simp [Fld.queSeqSeq])]
    simp only [Fld.queSeqSeq]
  case clear =>
    intro ho
    have hne : (Fld.queStateRun q.val).off ≠ pageReg .que q.val 0x010 := by rw [Fld.queStateRun_off]; exact pageReg_ne _ _ (by decide)
    refine ⟨_, exec_queRunClear s ho, ?_, by simp⟩
    rw [State.rd, State.reg_parityWrite_queState _ _ hne, ← State.rd, State.rd_wr_queStateRun]
  case est =>
    intro v ho harm
    exact ⟨_, exec_queEstWrite s ho, s.reg_hostSet_que_same v (by decide) (by decide) harm (queEst_rw_ne q),
      fun j hj => s.reg_hostSet_que_other v (by decide) (by decide) harm (queEst_rw_ne q) hj⟩

end Sys2Proof.Machine
end

section
/-! PROOFS. Walkers (R61, R64, R132, R145, R177, R180, R185, R194): entering, arrival, reload, node steps and triangle tests. -/

namespace Sys2Proof.Machine

/-! ## Sorted lists -/

theorem mem_insertBy {α : Type} (lt : α → α → Bool) (x y : α) (l : List α) : y ∈ insertBy lt x l ↔ y = x ∨ y ∈ l := by
  induction l with
  | nil => simp [insertBy]
  | cons z t ih =>
    simp only [insertBy]
    split
    · simp
    · simp only [List.mem_cons, ih]
      tauto

/-- Sorting keeps the elements of a list. -/
theorem mem_sortBy {α : Type} (lt : α → α → Bool) (y : α) (l : List α) : y ∈ sortBy lt l ↔ y ∈ l := by
  suffices h : ∀ acc, y ∈ l.foldl (fun acc x => insertBy lt x acc) acc ↔ y ∈ acc ∨ y ∈ l by simpa [sortBy] using h []
  induction l with
  | nil => simp
  | cons z t ih =>
    intro acc
    simp only [List.foldl_cons, ih, mem_insertBy, List.mem_cons]
    tauto

section
variable (s : State)

/-! ## Walkers at a district (R34, R212) -/

/-- A walker at home may take its heap's threshold; all else of it stays (R212). -/
theorem State.atHome_keeps (w : Walker) : ∃ p, s.atHome w = { w with probe := p } := by
  unfold State.atHome
  split
  · split
    · exact ⟨_, rfl⟩
    · exact ⟨w.probe, rfl⟩
  · exact ⟨w.probe, rfl⟩

@[simp] theorem State.atHome_dist (w : Walker) : (s.atHome w).dist = w.dist := by
  obtain ⟨p, h⟩ := s.atHome_keeps w
  rw [h]

@[simp] theorem State.atHome_express (w : Walker) : (s.atHome w).express = w.express := by
  obtain ⟨p, h⟩ := s.atHome_keeps w
  rw [h]
  rfl

/-- A slot whose scene code is good is read as it stands (R34). -/
theorem State.readSlot_good {w : Walker} (h : w.pat = 0) : s.readSlot w = (s, some w) := by simp [State.readSlot, h]

/-- A cell takes a walker as its slot holds it, with no injection armed (R507). -/
theorem State.takeWalker_good {w : Walker} (h : w.pat = 0) (harm : s.armed (Fld.dstInjectStep w.dist) = false) :
    s.takeWalker w = (s, some w) := by
  simp [State.takeWalker, s.readSlot_good h, harm]

/-- A walker whose batch runs is handed on (R74, R265). -/
theorem State.withBatch_runs {w : Walker} {x : Batch} (f : State → Batch → State) (hx : s.batch w.bid = some x) (hstop : x.stop = false)
    (hst : x.status = none) : s.withBatch w f = f s x := by
  simp [State.withBatch, hx, hstop, hst]

/-! ## Entering (R61, R64, R194) -/

/-- The root node of a batch, where a ray begins. -/
def rootItem (x : Batch) : WItem := .node (x.desc.root / 64 * 64) none 0 { opq := false, noAnyhit := false, noCull := false }

/-- A ray of a batch that does not accumulate is a miss or begins at the root (R64). -/
theorem State.enterRay_plain {x : Batch} (w : Walker) (r : Ray) (hacc : x.desc.accum = false) : s.enterRay x w r =
    if r.invalid || r.inactive then s.endWalk { w with ray := r, part := [0, 0, 0, 0] }
    else s.place { w with ray := r, part := [0, 0, 0, 0], ctxs := if r.long then [] else [topCarryShort r], work := [rootItem x] } := by
  simp only [State.enterRay, hacc, Bool.false_and, Bool.false_eq_true, if_false, rootItem]

/-- `WALKER_ENTERING` of a ray walker whose record can be read (R61, R194). -/
theorem exec_walkerEntering_ray {d : Dist} {w : Walker} {x : Batch} {bs : List Byte} (hwalk : s.walking d.val = true)
    (hnext : s.nextEntering d.val = some w) (hx : s.batch w.bid = some x) (hstop : x.stop = false) (hgen : x.desc.isGen = false)
    (hrefit : x.desc.isRefit = false) (hprobe : w.probe = none)
    (hread : s.stampRead w.bid (x.desc.inAddr + w.idx * x.desc.inBytes) x.desc.inBytes = some bs) :
    exec (.walkerEntering d) s = .next (State.enterRay
      ((s.stampHost w.bid (x.desc.inAddr + w.idx * x.desc.inBytes) x.desc.inBytes).gateMessage w.dist) x w (rayOf x.desc.recF bs)) := by
  change execWalkerEntering d s = _
  simp [execWalkerEntering, State.enter, hwalk, hnext, hx, hstop, hgen, hrefit, hprobe, hread]

/-! ## Arrival (R185) -/

/-- `WALKER_ARRIVAL` of the message that the router hands over next, where its walker is in transit. -/
theorem exec_walkerArrival {d : Dist} {m : Msg} {b : Bid} {i g tid : Nat} {ep : BitVec 16} {w : Walker} (ha : s.active = true)
    (hopen : s.isOpen d.val = true) (hm : s.nextMsg d.val (s.judged d.val) = some m) (hbody : m.body = .walker b i g tid ep)
    (hw : ((s.dropMsg m).wakeDist d.val).walker b i g = some w) (hst : w.st = .inTransit) :
    exec (.walkerArrival d) s = .next (((s.dropMsg m).wakeDist d.val).arriveMsg d.val w tid ep) := by
  change execWalkerArrival d s = _
  simp [execWalkerArrival, ha, hopen, hm, hbody, hw, hst]

/-- A walker message of the present epoch brings its walker into a slot, where one is free (R185). -/
theorem State.arriveMsg_room {d tid : Nat} {ep : BitVec 16} (w : Walker) (hep : ep = s.epoch) (hroom : (s.slots d).length < 4096) :
    s.arriveMsg d w tid ep = ((s.count d 0x14 1).writeSlot (s.atHome { w with dist := d })).1.settle
      ((s.count d 0x14 1).writeSlot (s.atHome { w with dist := d })).2 := by
  simp [State.arriveMsg, State.arrive, hep, hroom]

/-- A full queue spills a walker that is not Express (R179). -/
theorem State.arriveMsg_full {d tid : Nat} {ep : BitVec 16} (w : Walker) (hep : ep = s.epoch) (hfull : 4096 ≤ (s.slots d).length)
    (hexp : w.express = false) : s.arriveMsg d w tid ep = (s.count d 0x14 1).spill (s.atHome { w with dist := d }) := by
  have hexp' : ({ w with dist := d } : Walker).express = false := hexp
  simp [State.arriveMsg, State.arrive, hep, Nat.not_lt.mpr hfull, hexp', leastBy]

/-- Under an older epoch a walker that belongs elsewhere is sent on (R185). -/
theorem State.arriveMsg_forward {d tid e : Nat} {ep : BitVec 16} {w : Walker} (hep : ep ≠ s.epoch) (hstay : s.stays w.bid = false)
    (htop : s.topMay w.bid tid = false) (hdest : s.destOf d tid w.bid = some e) (he : e ≠ d) :
    s.arriveMsg d w tid ep = s.sendWalker (s.atHome { w with dist := d }) e tid := by
  simp [State.arriveMsg, hep, hstay, htop, hdest, he]

/-! ## Reload (R177, R180) -/

/-- The walkers that a district may reload are walkers of the state. -/
theorem State.mem_walkers_of_reloadable {d : Nat} {w : Walker} (h : w ∈ s.reloadable d) : w ∈ s.walkers :=
  (List.mem_filter.mp ((mem_sortBy _ _ _).mp h)).1

/-- A walker whose record the side street gives back takes a slot again, where its district is open or its walk is still to begin (R180). -/
theorem State.reloadOne_good {w : Walker} {k : Nat} {t : State} (hplace : w.place = some k)
    (hget : s.recordGet (streamSide w.dist) (s.streetAt w.dist k) 128 = (t, false)) (hopen : t.isOpen w.dist = true ∨ w.work = []) :
    s.reloadOne w = State.refreshDrained (if w.work = [] then ((t.count w.dist 0x0F 1).writeSlot w).1.entering ((t.count w.dist 0x0F 1).writeSlot w).2
      else ((t.count w.dist 0x0F 1).writeSlot w).1.place ((t.count w.dist 0x0F 1).writeSlot w).2) w.dist := by
  have hstreet : s.fromStreet w = (t, false) := by simp only [State.fromStreet, hplace, hget]
  have hstays : (decide (w.work ≠ []) && !(t.count w.dist 0x0F 1).isOpen w.dist) = false := by
    rcases hopen with h | h
    · simp [show (t.count w.dist 0x0F 1).isOpen w.dist = true from h]
    · simp [h]
  simp only [State.reloadOne, hstreet, hstays, Bool.false_eq_true, if_false]

/-- `WALKER_RELOAD` of the one walker that a district may reload (R180). -/
theorem exec_walkerReload_one {d : Dist} {w : Walker} (hwalk : s.walking d.val = true) (hone : s.reloadable d.val = [w])
    (hroom : (s.slots d.val).length < 2048) : exec (.walkerReload d) s = .next (s.reloadOne w) := by
  have hmem : w ∈ s.walkers := s.mem_walkers_of_reloadable (d := d.val) (by simp [hone])
  change execWalkerReload d s = _
  simp [execWalkerReload, hwalk, hone, hroom, hmem]

/-! ## Cells (R74, R132, R145) -/

/-- `NODE_STEP` of a walker of a running batch, with its slot good and no injection armed. -/
theorem exec_nodeStep {d : Dist} {pick : Nat} {w : Walker} {x : Batch} (hwalk : s.walking d.val = true)
    (hnext : s.nextReady d.val cellItem = some w) (hpat : w.pat = 0) (harm : s.armed (Fld.dstInjectStep w.dist) = false)
    (hx : s.batch w.bid = some x) (hstop : x.stop = false) (hst : x.status = none) :
    exec (.nodeStep d pick) s = .next (s.cellStep x w pick) := by
  change execNodeStep d pick s = _
  simp [execNodeStep, hwalk, hnext, s.takeWalker_good hpat harm, s.withBatch_runs _ hx hstop hst]

/-- A node step whose reads all deliver, by what the node is: its visited children become work, or its branch is pruned (R119, R132). -/
theorem State.stepNode_read {x : Batch} {w w1 : Walker} {pick a len ctx : Nat} {cls : Option (BitVec 2)} {fl : PathFlags} {rest : List WItem}
    {hdr b0 bs tab : List Byte} {s1 s2 s3 s4 : State} (hhdr : s.walkRead w .node (a / 65536 * 65536) 64 = (s1, .ok hdr))
    (hlen : treeletLen hdr = some len) (hfirst : s1.walkRead w .node a 64 = (s2, .ok b0)) (hrest : s2.nodeRest w a len b0 = (s3, .ok bs))
    (hcarry : formCarry w bs (rayNodeBad bs len (a % 65536 / 64) cls) = some w1)
    (htab : s3.nodeTable x w1 (a / 65536 * 65536) bs (rayNodeBad bs len (a % 65536 / 64) cls) = (s4, .ok tab)) :
    s.stepNode x w pick a cls ctx fl rest =
      if rayNodeBad bs len (a % 65536 / 64) cls then (s4.count w.dist 1 1).prune w1 rest
      else ((s4.count w.dist 1 (cascade x w1 (w1.carry ctx) bs tab len).2.1).fmtViols w.bid
          (badChildren bs len + (cascade x w1 (w1.carry ctx) bs tab len).2.2)).goOn w1
        (rotate ((cascade x w1 (w1.carry ctx) bs tab len).1.map (childItem bs len (a / 65536 * 65536) ctx fl)) pick ++ rest) := by
  simp only [State.stepNode, hhdr, hlen, hfirst, hrest, hcarry, htab]

/-- `TRIANGLE_TEST` of a triangle of a block that has been read. -/
theorem exec_triangleTest_tri {d : Dist} {pick : Nat} {tie : Bool} {w : Walker} {x : Batch} {a j ctx : Nat} {bs : List Byte} {fl : PathFlags}
    {rest : List WItem} (hwalk : s.walking d.val = true) (hnext : s.nextReady d.val triItem = some w) (hpat : w.pat = 0)
    (harm : s.armed (Fld.dstInjectStep w.dist) = false) (hx : s.batch w.bid = some x) (hstop : x.stop = false) (hst : x.status = none)
    (hwork : w.work = .tri a bs j ctx fl :: rest) : exec (.triangleTest d pick tie) s = .next (s.testTri x w bs a j ctx fl rest tie) := by
  change execTriangleTest d pick tie s = _
  simp only [execTriangleTest, hwalk, hnext, s.takeWalker_good hpat harm, s.withBatch_runs _ hx hstop hst, State.triStep, hwork,
    Bool.not_true, Bool.false_eq_true, if_false]

/-- The state once a triangle test is counted, and with it the edge functions recomputed in W53 (R145, R497). -/
def State.triCounted (w : Walker) (ctx : Nat) (v : V3 × V3 × V3) : State :=
  if (triTest (w.carry ctx) v).2 then (s.count w.dist 2 1).count w.dist 3 1 else s.count w.dist 2 1

section
variable {x : Batch} {w : Walker} {bs : List Byte} {a j ctx : Nat} {fl : PathFlags} {rest : List WItem} {tie : Bool} {v : V3 × V3 × V3}
  (hv : triVerts bs j = some v) (hbad : vertsBad v = false)

include hv hbad

/-- A triangle that the ray's line misses: the walk goes on (R145). -/
theorem State.testTri_miss (hmiss : (triTest (w.carry ctx) v).1 = none) :
    s.testTri x w bs a j ctx fl rest tie = (s.triCounted w ctx v).place { w with work := rest } := by
  simp only [State.testTri, hv, hbad, hmiss, State.goOn, State.triCounted, Bool.false_eq_true, if_false]

/-- A triangle that is hit outside the ray's interval: the walk goes on (R132, R146). -/
theorem State.testTri_outside {h : TriHit} (hhit : (triTest (w.carry ctx) v).1 = some h)
    (hout : ((f32 h.t).isFin && (f32 w.ray.tmin).le (f32 h.t) && (f32 h.t).le (tLimit x w)) = false) :
    s.testTri x w bs a j ctx fl rest tie = (s.triCounted w ctx v).place { w with work := rest } := by
  simp only [State.testTri, hv, hbad, hhit, hout, State.goOn, State.triCounted, Bool.false_eq_true, if_false, Bool.not_false, Bool.true_or, if_true]

/-- The hit of triangle `j` of a block (R107, R145, R146): its facing is turned where the path mirrors. -/
def triHit (w : Walker) (bs : List Byte) (a j ctx : Nat) (fl : PathFlags) (h : TriHit) : Hit :=
  { t := h.t, prim := bytesWord bs 0x30 + BitVec.ofNat 32 j, inst := ((w.inst ctx).map (·.id)).getD 0xFFFFFF,
    iuser := ((w.inst ctx).map (·.user)).getD 0, kind := 1, b1 := h.b1, b2 := h.b2,
    front := h.front != (((w.inst ctx).map (·.flip)).getD false), recA := a, luser := bytesWord bs 0x38, ctx := ctx, fl := fl }

/-- A triangle that is hit within the ray's interval, and not culled: its hit is offered (R146). -/
theorem State.testTri_hit {h : TriHit} (hhit : (triTest (w.carry ctx) v).1 = some h)
    (hin : ((f32 h.t).isFin && (f32 w.ray.tmin).le (f32 h.t) && (f32 h.t).le (tLimit x w)) = true)
    (hcull : culled w (triHit w bs a j ctx fl h).front (fl.noCull || bit (triFlags bs j) 1) = false) :
    s.testTri x w bs a j ctx fl rest tie = (s.triCounted w ctx v).offer x { w with work := rest } (triHit w bs a j ctx fl h)
      (fl.opq || bit (triFlags bs j) 0) fl.noAnyhit tie := by
  simp only [triHit] at hcull ⊢
  simp only [State.testTri, hv, hbad, hhit, hin, hcull, State.triCounted, Bool.false_eq_true, if_false, Bool.not_true, Bool.or_false]

end

end

/-- Settles O21, one lemma for each command and for what it finds. -/
theorem walkerCommandsComplete : Obligations.WalkerCommandsComplete := by
  intro d s hwalk
  refine ⟨?entering, ?arrival, ?reload, ?node, ?triangle⟩
  case entering =>
    intro w x bs hnext hx hstop hgen hrefit hprobe hacc hread
    rw [exec_walkerEntering_ray s hwalk hnext hx hstop hgen hrefit hprobe hread, State.enterRay_plain _ _ _ hacc]
    rfl
  case arrival =>
    rintro m b i g tid ep w t ha hopen hm hbody rfl hw hst
    rw [exec_walkerArrival s ha hopen hm hbody hw hst]
    refine ⟨fun hep hroom => ?_, fun hep hfull hexp => ?_, fun e hep hstay htop hb hdest he => ?_⟩
    · rw [State.arriveMsg_room _ _ hep hroom]
    · rw [State.arriveMsg_full _ _ hep hfull hexp]
    · subst hb
      rw [State.arriveMsg_forward _ hep hstay htop hdest he]
  case reload =>
    intro w k t hone hplace hdist hroom hget hopen
    rw [← hdist] at hget hopen ⊢
    rw [exec_walkerReload_one s hwalk hone hroom, s.reloadOne_good hplace hget hopen]
  case node =>
    intro w w1 x a cls ctx fl rest pick len hdr b0 bs tab s1 s2 s3 s4 hnext hpat harm hx hstop hst hwork hhdr hlen hfirst hrest hcarry htab
    have hstep : s.cellStep x w pick = s.stepNode x w pick a cls ctx fl rest := by simp only [State.cellStep, hwork]
    rw [exec_nodeStep s hwalk hnext hpat harm hx hstop hst, hstep, s.stepNode_read hhdr hlen hfirst hrest hcarry htab]
    exact ⟨fun hgood => by simp only [hgood, Bool.false_eq_true, if_false, State.goOn], fun hbad => by simp only [hbad, if_true, State.prune, State.goOn]⟩
  case triangle =>
    intro w x bs a j ctx fl rest pick tie v u hnext hpat harm hx hstop hst hwork hv hbad hu
    rw [exec_triangleTest_tri s hwalk hnext hpat harm hx hstop hst hwork, show u = s.triCounted w ctx v from hu]
    refine ⟨fun hmiss => ?_, fun h hhit hfin hmin hmax hcull => ?_, fun h hhit hout => ?_⟩
    · rw [s.testTri_miss hv hbad hmiss]
    · rw [s.testTri_hit hv hbad hhit (by simp [hfin, hmin, hmax]) hcull, triHit]
    · rw [s.testTri_outside hv hbad hhit (by rcases hout with h | h | h <;> simp [h])]

end Sys2Proof.Machine
end

section
/-! PROOFS. Completion (R71, R330, R331, R425, R447): the completion record, the seal, the wake message and its interrupt. -/

namespace Sys2Proof.Machine

section
variable (s : State)

/-- `COMPLETION_WRITE` of a batch that is finished and first in order, where its entries are read without loss (R71 step 9, R437). -/
theorem exec_completionWrite {b : Bid} {x : Batch} {t : State} (ha : s.active = true) (hpar : s.parBad = []) (hx : s.batch b = some x)
    (hcomp : x.completable = true) (hfin : s.finished x = true) (hhand : x.handed = false) (hord : s.earlier x = [])
    (hmay : s.mayWrite b = true) (hstop : b.que.val ∉ s.tallyStop) (hok : s.tallyOk x = (t, true)) :
    exec (.completionWrite b) s = .next ((t.invalWrote x).completeNow x) := by
  change execCompletionWrite b s = _
  simp [execCompletionWrite, State.checkPages_of_clean _ hpar, State.halted_of_clean _ hpar, hx, ha, hcomp, hfin, hhand, hord, hmay, hstop, hok]

/-- `SEAL_CAS` of a batch whose completion record is acknowledged and whose turn it is (R71 step 10, R425). -/
theorem exec_sealCas {b : Bid} {x : Batch} (ha : s.active = true) (hx : s.batch b = some x) (hst : x.st = .completing)
    (hack : ∀ h ∈ s.hostWr, h.fr ≠ .completion b) (hord : s.earlier x = []) (hmay : s.mayWrite b = true) :
    exec (.sealCas b) s = .next (s.sealNow x) := by
  have hany : s.hostWr.any (fun h => decide (h.fr = .completion b)) = false := by simpa using hack
  change execSealCas b s = _
  simp [execSealCas, hx, ha, hst, hany, hord, hmay]

/-- The wake message and the interrupt of a sealed batch, each where it is asked for (R330). -/
def State.announce (x : Batch) : State :=
  let t := if x.wake then s.wakeWrite x else s
  if x.irq then t.queueIrq x else t

/-- `WAKE_MESSAGE` of a sealed batch that is still held after its announcement (R330, R331). -/
theorem exec_wakeMessage {b : Bid} {x y : Batch} (ha : s.active = true) (hx : s.batch b = some x) (hst : x.st = .isSealed)
    (hmay : s.mayWrite b = true) (hy : (s.announce x).batch b = some y) : exec (.wakeMessage b) s = .next ((s.announce x).goneBatch y) := by
  change execWakeMessage b s = _
  simp only [State.announce] at hy ⊢
  simp [execWakeMessage, hx, ha, hst, hmay, hy]

/-- An interrupt to address zero is not sent (R447). -/
theorem State.sendIrq_zero {lo hi data : Nat} (h : (s.reg hi).toNat % 2 ^ 20 * 2 ^ 32 + (s.reg lo).toNat / 4 * 4 = 0) :
    s.sendIrq lo hi data = (s, false) := by
  simp only [State.sendIrq, h, if_true]

end

/-- Settles O25. -/
theorem completionCommandsComplete : Obligations.CompletionCommandsComplete := by
  intro b x s ha hpar hx
  refine ⟨fun t hcomp hfin hhand hord hmay hstop hok => exec_completionWrite s ha hpar hx hcomp hfin hhand hord hmay hstop hok,
    fun hst hack hord hmay => exec_sealCas s ha hx hst hack hord hmay, ?silent, ?announced⟩
  case silent =>
    intro hst hmay hwake hirq hheld hbid hhi hlo
    have hirq0 (data : Nat) : s.sendIrq (pageReg .que b.que.val 0x074) (pageReg .que b.que.val 0x078) data = (s, false) :=
      State.sendIrq_zero s (by omega)
    have hnone : s.announce x = s := by simp [State.announce, State.queueIrq, hwake, hirq, hbid, hheld, hirq0]
    rw [exec_wakeMessage s ha hx hst hmay (y := x) (by rwa [hnone]), hnone, State.goneBatch, hbid]
  case announced =>
    rintro y u hst hmay rfl hy
    exact exec_wakeMessage s ha hx hst hmay hy

end Sys2Proof.Machine
end

section
/-! PROOFS. What accesses to memory leave (R345 to R359, R371, R374): a record written by the block reaches scene memory through the stack caches,
and a page walk reads host memory; neither touches the Gate's fault records or the reports they are formed from. -/

namespace Sys2Proof.Machine

/-- From one state to another only what accesses to memory change has changed: registers, counters, the host link, a reset they ask for, the
stack ports with what their stacks hold, and the count of free values. -/
structure State.AccessKept (s t : State) : Prop where
  frame : { t with regs := s.regs, live := s.live, gate := s.gate, scene := s.scene, codeErr := s.codeErr, poison := s.poison, stk := s.stk,
                   phase := s.phase, freeCtr := s.freeCtr } = s

namespace State.AccessKept

theorem refl (s : State) : s.AccessKept s := ⟨rfl⟩

theorem trans {s t u : State} (h : s.AccessKept t) (h' : t.AccessKept u) : s.AccessKept u := by
  constructor
  calc { u with regs := s.regs, live := s.live, gate := s.gate, scene := s.scene, codeErr := s.codeErr, poison := s.poison, stk := s.stk,
                phase := s.phase, freeCtr := s.freeCtr }
      = { ({ u with regs := t.regs, live := t.live, gate := t.gate, scene := t.scene, codeErr := t.codeErr, poison := t.poison, stk := t.stk,
                    phase := t.phase, freeCtr := t.freeCtr } : State) with
          regs := s.regs, live := s.live, gate := s.gate, scene := s.scene, codeErr := s.codeErr, poison := s.poison, stk := s.stk,
          phase := s.phase, freeCtr := s.freeCtr } := rfl
    _ = s := by rw [h'.frame, h.frame]

theorem ite {s t u : State} {c : Prop} [Decidable c] (ht : s.AccessKept t) (hu : s.AccessKept u) : s.AccessKept (if c then t else u) := by
  split
  · exact ht
  · exact hu

/-- A fold of which every step keeps it. -/
theorem foldl {α : Type} {s : State} (l : List α) (f : State → α → State) (h : ∀ (t : State) x, t.AccessKept (f t x)) : s.AccessKept (l.foldl f s) :=
  List.foldlRecOn (motive := fun t => s.AccessKept t) l f (refl s) fun t ht x _ => ht.trans (h t x)

theorem faults {s t : State} (h : s.AccessKept t) : t.faults = s.faults := by
  have hf := congrArg State.faults h.frame
  exact hf

theorem reports {s t : State} (h : s.AccessKept t) : t.reports = s.reports := by
  have hf := congrArg State.reports h.frame
  exact hf

variable (s : State)

/-! ## Registers, counters and reports -/

theorem count (u i n : Nat) : s.AccessKept (s.count u i n) := ⟨rfl⟩

theorem wr (f : Fld) (v : Nat) : s.AccessKept (s.wr f v) := ⟨rfl⟩

theorem updPort (p : Nat) (f : StackPort → StackPort) : s.AccessKept (s.updPort p f) := ⟨rfl⟩

theorem setBit (f : Fld) (pg : Nat) : s.AccessKept (s.setBit f pg) := ite ⟨rfl⟩ (wr ..)

theorem errBit (n u : Nat) : s.AccessKept (s.errBit n u) :=
  have h := setBit s ⟨0x0E040, n, n⟩ 14
  ite (((h.trans (wr ..)).trans (wr ..)).trans (wr ..)) h

theorem report (page : Option (Nat × Nat)) (err : Option Nat) (u : Nat) (ctr : Option Nat) : s.AccessKept (s.report page err u ctr) := by
  have hpage (t : State) : t.AccessKept (match page with | some (pg, n) => t.status pg n | none => t) := by
    cases page with
    | none => exact refl t
    | some p => exact setBit t _ p.1
  have herr (t : State) : t.AccessKept (match err with | some n => t.errBit n u | none => t) := by
    cases err with
    | none => exact refl t
    | some n => exact errBit t n u
  refine ((hpage s).trans (herr _)).trans ?_
  cases ctr with
  | none => exact refl _
  | some i => exact count _ u i 1

/-! ## Stacks (R344 to R348, R505, R508) -/

theorem codeReport (p a : Nat) (r : CodeRes) : s.AccessKept (s.codeReport p a r) := by
  have huncorrectable (n e c : Nat) : s.AccessKept (let t := s.report (some (8 + p, n)) (some e) (unitStk p) (some c)
      if t.flag (Fld.stkStatusUeValid p) then t else (t.wr (Fld.stkUeAddrAddr p) (a / 256)).wr (Fld.stkStatusUeValid p) 1) :=
    have h := report s (some (8 + p, n)) (some e) (unitStk p) (some c)
    ite h ((h.trans (wr ..)).trans (wr ..))
  cases r with
  | good | missed => exact refl s
  | corrected | miscorrected => exact report s (some (8 + p, 0)) (some 6) (unitStk p) (some 8)
  | uncorrectable => exact huncorrectable 1 7 9
  | nibble => exact huncorrectable 2 8 10

theorem stackArm (p w : Nat) : s.AccessKept (s.stackArm p w) := ite (refl s) ⟨rfl⟩

theorem stackWord (p w : Nat) : s.AccessKept (s.stackWord p w).1 := by
  have hrep := codeReport s p (w * 8) (codeJudge (SMap.get 0 s.codeErr w))
  have hfix (t : State) (c : SMap (BitVec 72)) (m : Memory) : t.AccessKept { t with codeErr := c, scene := m } := ⟨rfl⟩
  unfold State.stackWord
  dsimp only
  split
  · exact hrep
  · exact (hrep.trans (hfix _ _ _)).trans (stackArm ..)
  · exact (hrep.trans (hfix _ _ _)).trans (stackArm ..)
  · exact hrep
  · exact hrep.trans ⟨rfl⟩
  · exact hrep.trans ⟨rfl⟩

theorem stackWords (p w n : Nat) : s.AccessKept (s.stackWords p w n).1 := by
  induction n generalizing s w with
  | zero => exact refl s
  | succ n ih => exact (stackWord s p w).trans (ih _ (w + 1))

theorem stackReq (p : Nat) : s.AccessKept (s.stackReq p) := ite (((wr ..).trans (report ..)).trans (updPort ..)) (refl s)

theorem stackSector (p a : Nat) : s.AccessKept (s.stackSector p a).1 := by
  unfold State.stackSector
  split
  · exact ((stackReq s p).trans (count ..)).trans (stackWords ..)
  · exact refl s

theorem stackPut (p a : Nat) (data : List Byte) : s.AccessKept (s.stackPut p a data) := by
  have hput (t : State) (c : SMap (BitVec 72)) (m : Memory) : t.AccessKept (State.count { t with scene := m, codeErr := c } (unitStk p) 2 1) := ⟨rfl⟩
  exact ite (((stackReq s p).trans (hput _ _ _)).trans (stackArm ..)) (refl s)

/-! ## Eviction buffers (R353, R359) -/

theorem lineBack (p : Nat) (l : SLine) : s.AccessKept (s.lineBack p l) :=
  foldl _ _ fun t i => by
    have hlost : t.AccessKept (t.dirtyLost p (l.addr + 64 * i)) := codeReport ..
    exact ite (ite hlost (stackPut ..)) (refl t)

theorem evictRoom (p : Nat) : s.AccessKept (s.evictRoom p) := by
  have hold : s.AccessKept (s.evictOldest p) := by
    unfold State.evictOldest
    split
    · exact refl s
    · exact (updPort ..).trans (lineBack ..)
  exact ite (refl s) hold

theorem evictLine (p : Nat) (l : SLine) : s.AccessKept (s.evictLine p l) :=
  ite (((evictRoom s p).trans (updPort ..)).trans (count ..)) (refl s)

theorem bufferPut (p a : Nat) (y : Sector) : s.AccessKept (s.bufferPut p a y) := ite (updPort ..) ((evictRoom s p).trans (updPort ..))

/-! ## Ways of the stack caches (R352) -/

theorem allocLine (p c a : Nat) : s.AccessKept (s.allocLine p c a).1 := by
  unfold State.allocLine
  dsimp only
  split
  · exact refl s
  · split
    · exact refl s
    · split
      · exact refl s
      · split
        · dsimp only
          exact ((updPort ..).trans (evictLine ..)).trans (updPort ..)
        · dsimp only
          exact updPort ..

theorem install (p c a : Nat) (x : Sector) : s.AccessKept (s.install p c a x).1 := by
  have halloc := allocLine s p c a
  have harm : s.AccessKept (if (s.allocLine p c a).1.armed (Fld.stkInjectScPar p) then (s.allocLine p c a).1.disarm (Fld.stkInjectScPar p)
      else (s.allocLine p c a).1) := ite (halloc.trans (wr ..)) halloc
  unfold State.install
  dsimp only
  split
  · split
    · dsimp only
      exact harm.trans (updPort ..)
    · exact harm
  · exact halloc.trans (count ..)

theorem trainStride (p st loc : Nat) (miss : Bool) : s.AccessKept (s.trainStride p st loc miss) := by
  unfold State.trainStride
  split
  · exact ite (updPort ..) (refl s)
  · exact updPort ..

/-! ## Requests (R355, R356) -/

theorem fill (p : Nat) (m : Miss) : s.AccessKept (s.fill p m) := by
  unfold State.fill
  extract_lets t held r u
  have hr : s.AccessKept r.1 := by
    clear_value held
    dsimp only [r]
    split
    · dsimp only
      exact updPort ..
    · exact (updPort ..).trans (stackSector ..)
  have hu : s.AccessKept u := ite hr (hr.trans (install ..))
  exact hu.trans ⟨rfl⟩

theorem fillPending (p a : Nat) : s.AccessKept (s.fillPending p a) := by
  unfold State.fillPending
  split
  · exact fill ..
  · exact refl s

/-- A request of the Gate or the host, which crosses no avenue (R13). -/
theorem request {st : Nat} (p a : Nat) (hst : 896 ≤ st) : s.AccessKept (s.request st p a) := by
  rw [State.request, if_neg (Nat.not_lt.mpr hst)]
  exact fillPending ..

theorem sectorHit (st p loc a : Nat) : s.AccessKept (s.sectorHit st p loc a).1 := by
  have hserved (t : State) : t.AccessKept ((t.count (unitStk p) 3 1).trainStride p st loc false) := (count ..).trans (trainStride ..)
  have hlost (t : State) : t.AccessKept (t.dirtyLost p a) := codeReport ..
  unfold State.sectorHit
  extract_lets line sec hit served s1
  have h1 : s.AccessKept s1 := ite ((hlost s).trans (updPort ..)) (ite (report ..) (refl s))
  split
  · dsimp only
    exact (hserved s).trans (updPort ..)
  · split
    · exact h1
    · split
      · dsimp only
        exact (h1.trans (hlost s1)).trans (updPort ..)
      · exact h1.trans (hserved s1)

theorem sectorMiss (st p loc a : Nat) : s.AccessKept (s.sectorMiss st p loc a).1 := by
  have hread : s.AccessKept ((((s.count (unitStk p) 4 1).trainStride p st loc true)).stackSector p a).1 :=
    ((count ..).trans (trainStride ..)).trans (stackSector ..)
  unfold State.sectorMiss
  dsimp only
  split
  · exact hread.trans (install ..)
  · exact hread

theorem sectorGet (st p loc a : Nat) : s.AccessKept (s.sectorGet st p loc a).1 := by
  have hhit := sectorHit s st p loc a
  unfold State.sectorGet
  split
  · next h => rwa [h] at hhit
  · next h =>
    rw [h] at hhit
    exact hhit.trans (sectorMiss ..)

/-! ## Writes (R347, R352) -/

theorem clearPoison (a n : Nat) : s.AccessKept (s.clearPoison a n) := ⟨rfl⟩

theorem sectorPlace (st p a : Nat) (x : Sector) : s.AccessKept (s.sectorPlace st p a x) := by
  have hinst := install s p (streamClass st) a x
  exact ite (updPort ..) (ite (ite hinst (hinst.trans (bufferPut ..))) (stackPut ..))

section
variable {st : Nat} (hst : 896 ≤ st)
include hst

theorem sectorWrite (a : Nat) (bs : List Byte) : s.AccessKept (s.sectorWrite st a bs) := by
  unfold State.sectorWrite
  dsimp only
  split
  · exact refl s
  · next p loc _ =>
    have hreq := request s p (a / 64 * 64) hst
    have hplace (t : State) (x : Sector) (h : s.AccessKept t) : s.AccessKept ((t.clearPoison a bs.length).sectorPlace st p (a / 64 * 64) x) :=
      (h.trans (clearPoison ..)).trans (sectorPlace ..)
    split
    · exact hreq
    · split
      · exact hplace _ _ (hreq.trans (trainStride ..))
      · exact hplace _ _ (hreq.trans (sectorGet ..))

theorem sceneWriteAux (a : Nat) (bs : List Byte) (fuel : Nat) : s.AccessKept (s.sceneWriteAux st a bs fuel) := by
  induction fuel generalizing s a bs with
  | zero => exact refl s
  | succ k ih => exact ite (refl s) ((sectorWrite s hst ..).trans (ih ..))

theorem recordPut (a n : Nat) : s.AccessKept (s.recordPut st a n) :=
  (⟨rfl⟩ : s.AccessKept { s with freeCtr := s.freeCtr + 1 }).trans (sceneWriteAux _ hst ..)

end

/-! ## Page walks (R371, R510) -/

theorem wantWarm (cause : Nat) : s.AccessKept (s.wantWarm cause) := ⟨rfl⟩

theorem hostArm : s.AccessKept s.hostArm := ite (((wr ..).trans (report ..)).trans (wantWarm ..)) (refl s)

theorem hostRead (n : Nat) : s.AccessKept (s.hostRead n) := (count ..).trans (hostArm _)

theorem walk (r : Root) (va : Nat) : s.AccessKept (s.walk r va).1 := by
  have hread : s.AccessKept ((s.count unitGate 7 1).hostRead 32) := (count ..).trans (hostRead ..)
  unfold State.walk
  extract_lets s1 arm
  split
  · exact hread.trans (wr ..)
  · exact hread

end State.AccessKept

end Sys2Proof.Machine
end

section
/-! PROOFS. The Gate towards the host (R71, R72, R264, R333, R334, R445, R447): interrupts, the fault ring and acknowledgements. Work on a batch
that goes on, or is stamped again, takes no fault record away. -/

namespace Sys2Proof.Machine

/-! ## What leaves the fault records alone -/

section
variable (s : State)

@[simp] theorem State.tallyWordRead_faults (i j : Nat) : (s.tallyWordRead i j).1.faults = s.faults := by
  unfold State.tallyWordRead
  dsimp only
  split
  · rfl
  · rfl
  · simp
  · simp
  all_goals split <;> simp

@[simp] theorem State.tallyEntryRead_faults (i : Nat) : (s.tallyEntryRead i).1.faults = s.faults :=
  List.foldlRecOn (motive := fun r : State × Bool => r.1.faults = s.faults) (List.range 4) _ rfl
    fun r hr j _ => (State.tallyWordRead_faults r.1 i j).trans hr

@[simp] theorem State.tallyPut_faults (i : Nat) (bs : List Byte) : (s.tallyPut i bs).faults = s.faults := by
  unfold State.tallyPut
  dsimp only
  split <;> rfl

@[simp] theorem State.headerPut_faults (x : Batch) : (s.headerPut x).faults = s.faults := by
  have hread := s.tallyEntryRead_faults x.tly
  unfold State.headerPut
  split
  · rfl
  · dsimp only
    split
    · simp
    · exact hread

@[simp] theorem State.twinSend_faults (m : TwinMsg) : (s.twinSend m).faults = s.faults := by
  unfold State.twinSend
  split
  · dsimp only
    split <;> rfl
  · rfl

@[simp] theorem State.updTally_faults (b : Bid) (f : Batch → Batch) : (s.updTally b f).faults = s.faults := by
  unfold State.updTally
  split
  · rfl
  · next x _ =>
    extract_lets y t u
    have hu : u.faults = s.faults := by
      dsimp only [u]
      split
      · rfl
      · exact State.headerPut_faults t y
    split
    · exact hu
    · rw [State.twinSend_faults, hu]

@[simp] theorem State.goAgain_faults (x : Batch) : (s.goAgain x).faults = s.faults := State.updTally_faults s x.bid _

/-! ## Stamping again (R67, R264) -/

/-- Stamping keeps the fault records and the reports they are formed from. -/
theorem State.stampExtent_kept (b : Bid) (r : Root) (va n : Nat) (write : Bool) (k : Nat) :
    (s.stampExtent b r va n write k).1.faults = s.faults ∧ (s.stampExtent b r va n write k).1.reports = s.reports := by
  induction k generalizing s va n with
  | zero => exact ⟨rfl, rfl⟩
  | succ k ih =>
    have hwalk := State.AccessKept.walk s r va
    have hkept (t : State) (st : List Stamp) (pl : Nat) (ht : s.AccessKept t) :
        ((State.recordPut { t with stamps := st } streamStamp (t.stampPlace pl) 8).count unitGate 5 1).faults = s.faults
        ∧ ((State.recordPut { t with stamps := st } streamStamp (t.stampPlace pl) 8).count unitGate 5 1).reports = s.reports :=
      have hput := State.AccessKept.recordPut { t with stamps := st } (st := streamStamp) (by decide) (t.stampPlace pl) 8
      ⟨hput.faults.trans ht.faults, hput.reports.trans ht.reports⟩
    unfold State.stampExtent
    split
    · exact ⟨rfl, rfl⟩
    · split
      · next t h =>
        rw [h] at hwalk
        exact ⟨hwalk.faults, hwalk.reports⟩
      · next t pva size pa w h =>
        rw [h] at hwalk
        split
        · exact ⟨hwalk.faults, hwalk.reports⟩
        · dsimp only
          obtain ⟨hf, hr⟩ := hkept t _ _ hwalk
          exact ⟨(ih ..).1.trans hf, (ih ..).2.trans hr⟩

theorem State.stampAll_kept (b : Bid) (r : Root) (xs : List (Nat × Nat × Bool)) :
    (s.stampAll b r xs).1.faults = s.faults ∧ (s.stampAll b r xs).1.reports = s.reports := by
  induction xs generalizing s with
  | nil => exact ⟨rfl, rfl⟩
  | cons x xs ih =>
    obtain ⟨va, n, w⟩ := x
    have hext := s.stampExtent_kept b r va n w (n / 4096 + 2)
    unfold State.stampAll
    split
    · next t f h => rwa [h] at hext
    · next t h =>
      rw [h] at hext
      exact ⟨(ih t).1.trans hext.1, (ih t).2.trans hext.2⟩

theorem State.stampBatch_kept (b : Bid) (d : Desc) :
    (s.stampBatch b d).1.faults = s.faults ∧ (s.stampBatch b d).1.reports = s.reports := by
  have hall := State.stampAll_kept { s with stamps := s.stamps.filter (fun e => decide (e.bid ≠ b)) } b (bidRoot b) d.buffers
  unfold State.stampBatch
  dsimp only
  split
  · next t h => rwa [h] at hall
  · next t f h =>
    rw [h] at hall
    exact hall

/-- A fault of a batch that has no report yet adds a record and merges with none. -/
theorem State.reportFault_faults_prefix {b : Bid} (absent : Bool) (key facc cause addr walker : Nat) (d : Option Nat)
    (h : ∀ r ∈ s.reports, r.bid ≠ b) : s.faults <+: (s.reportFault b absent key facc cause addr walker d).faults := by
  have hnone : s.reports.find? (fun r => decide (r.bid = b) && decide (r.key = key) && (r.absent == absent)) = none :=
    List.find?_eq_none.mpr fun r hr => by simp [h r hr]
  unfold State.reportFault
  dsimp only
  rw [hnone]
  dsimp only
  rw [State.report_faults]
  exact List.prefix_append ..

/-- A batch stamped again adds at most a fault record. -/
theorem State.resumeBatch_faults_prefix (x : Batch) : s.faults <+: (s.resumeBatch x).faults := by
  unfold State.resumeBatch
  extract_lets wait s1
  split
  · exact List.prefix_rfl
  · have hst (r : State × Option (Nat × Nat))
        (hr : r = if x.desc.check1.isSome || x.desc.check3.isSome then (s1, none) else s1.stampBatch x.bid x.desc) :
        r.1.faults = s.faults ∧ r.1.reports = s1.reports := by
      subst hr
      split
      · exact ⟨rfl, rfl⟩
      · exact s1.stampBatch_kept x.bid x.desc
    have hclear : ∀ r ∈ s1.reports, r.bid ≠ x.bid := by simp [s1]
    split
    · next t c a h =>
      obtain ⟨hf, hr⟩ := hst _ h.symm
      have hrep := t.reportFault_faults_prefix false (t.faultPage x.bid a) 0 c a noWalker none (hr ▸ hclear)
      rw [State.status_faults, State.updBatch_faults]
      exact hf ▸ hrep
    · next t h =>
      split
      · exact List.prefix_rfl
      · rw [State.goAgain_faults, (hst _ h.symm).1]

theorem State.resumeWaiting_faults_prefix (p : Batch → Bool) : s.faults <+: (s.resumeWaiting p).faults :=
  List.foldlRecOn (motive := fun t : State => s.faults <+: t.faults) _ _ List.prefix_rfl fun t ht x _ => ht.trans (t.resumeBatch_faults_prefix x)

theorem State.trapsOver_faults_prefix (b : Bid) : s.faults <+: (s.trapsOver b).faults := by
  unfold State.trapsOver
  split
  · exact List.prefix_rfl
  · next x _ =>
    split
    · exact List.prefix_rfl
    · split
      · exact s.resumeBatch_faults_prefix x
      · rw [State.goAgain_faults]

/-! ## The fault ring (R333, R334) -/

/-- The record at the front gone, those behind it stay in their order. -/
theorem State.recordDone_faults_prefix (f : FaultRec) : s.faults.drop 1 <+: (s.recordDone f).faults :=
  (State.resumeWaiting_faults_prefix { s with faults := s.faults.drop 1, reports := _ } _).trans (State.trapsOver_faults_prefix _ f.bid)

theorem State.rd_recordLost_lost (f : FaultRec) : (s.recordLost f).rd Fld.lnkFringCtlLost = min 255 (s.rd Fld.lnkFringCtlLost + 1) := by
  have hbeside (t : State) : (t.status 1 4).rd Fld.lnkFringCtlLost = t.rd Fld.lnkFringCtlLost := by
    simp only [State.rd, State.status, State.reg_setBit_other t _ _ _ (show Fld.lnkFringCtlLost.off ≠ (Fld.status 1 4).off by decide)]
  rw [State.recordLost, hbeside, State.rd_wr_same _ _ _ (by simp [Fld.lnkFringCtlLost]) (by simp [Fld.lnkFringCtlLost])]
  exact Nat.mod_eq_of_lt (Nat.lt_of_le_of_lt (Nat.min_le_left ..) (by simp [Fld.lnkFringCtlLost]))

theorem State.recordLost_faults_prefix (f : FaultRec) : s.faults.drop 1 <+: (s.recordLost f).faults := by
  rw [State.recordLost, State.status_faults, State.wr_faults]
  exact s.recordDone_faults_prefix f

/-- `FAULT_RECORD_WRITE` with no ring discards the oldest record and counts it (R334). -/
theorem exec_faultRecordWrite_noRing {f : FaultRec} {rest : List FaultRec} (hpar : s.parBad = []) (hf : s.faults = f :: rest)
    (hack : ∀ h ∈ s.hostWr, h.fr ≠ .fault) (hdepth : s.rd Fld.lnkFringCtlDepth = 0) :
    exec .faultRecordWrite s = .next (s.recordLost f) := by
  have hany : s.hostWr.any (fun h => decide (h.fr = .fault)) = false := by simpa using hack
  change execFaultRecordWrite s = _
  simp [execFaultRecordWrite, State.checkPages_of_clean _ hpar, State.halted_of_clean _ hpar, hf, hany, hdepth]

/-- `FAULT_RECORD_WRITE` with room in the ring writes the oldest record at the tail (R334). -/
theorem exec_faultRecordWrite_room {f : FaultRec} {rest : List FaultRec} {t : State} (hpar : s.parBad = []) (hf : s.faults = f :: rest)
    (hack : ∀ h ∈ s.hostWr, h.fr ≠ .fault) (hdepth : s.rd Fld.lnkFringCtlDepth ≠ 0) (hroom : s.fringFull = false)
    (hwr : s.writeVa .gate (s.rd Fld.lnkFringHiAddrHi * 2 ^ 32 + s.rd Fld.lnkFringLoAddrLo * 64 + s.rd Fld.lnkFringTailIndex * 64) f.bytes .fault
      = (t, .ok ())) : exec .faultRecordWrite s = .next t := by
  have hany : s.hostWr.any (fun h => decide (h.fr = .fault)) = false := by simpa using hack
  change execFaultRecordWrite s = _
  simp only [execFaultRecordWrite, State.checkPages_of_clean _ hpar, State.halted_of_clean _ hpar, hf, hany, hdepth, hroom, hwr,
    Bool.or_false, Bool.false_eq_true, if_false]

/-- `FRING_HEAD_WRITE` that makes room (R333). -/
theorem exec_fringHeadWrite_room {v : Word} (ho : s.opens 0x01050 = true) (hroom : (s.hostSet 0x01050 v).fringFull = false) :
    exec (.fringHeadWrite v) s = .next ((s.hostSet 0x01050 v).wr Fld.lnkFringCtlFull 0) := by
  change execFringHeadWrite v s = _
  simp only [execFringHeadWrite, State.guardWrite_opens _ _ _ ho, hroom, Bool.false_eq_true, if_false]

/-! ## Interrupts (R447) -/

theorem State.setBit_irqs (f : Fld) (pg : Nat) : (s.setBit f pg).gate.irqs = s.gate.irqs := by
  unfold State.setBit
  dsimp only
  split <;> rfl

theorem State.errBit_irqs (n u : Nat) : (s.errBit n u).gate.irqs = s.gate.irqs := by
  have h := s.setBit_irqs ⟨0x0E040, n, n⟩ 14
  unfold State.errBit
  dsimp only
  split <;> exact h

theorem State.hostArm_irqs : s.hostArm.gate.irqs = s.gate.irqs := by
  unfold State.hostArm
  split
  · exact State.errBit_irqs (s.disarm Fld.lnkInjectHost) 17 unitGate
  · rfl

theorem State.sendIrq_irqs {lo hi : Nat} (data : Nat) (h : (s.reg hi).toNat % 2 ^ 20 * 2 ^ 32 + (s.reg lo).toNat / 4 * 4 ≠ 0) :
    (s.sendIrq lo hi data).1.gate.irqs
      = s.gate.irqs ++ [((s.reg hi).toNat % 2 ^ 20 * 2 ^ 32 + (s.reg lo).toNat / 4 * 4, s.reg data)] := by
  rw [State.sendIrq, if_neg h, State.hostArm_irqs]
  rfl

/-- `EVENT_INTERRUPT` that was asked for. -/
theorem exec_eventInterrupt (hpar : s.parBad = []) (hevt : s.gate.evtWant = true) :
    exec .eventInterrupt s = .next (State.sendIrq { s with gate := { s.gate with evtWant := false } } 0x01070 0x01074 0x01078).1 := by
  change execEventInterrupt s = _
  simp only [execEventInterrupt, State.checkPages_of_clean _ hpar, State.halted_of_clean _ hpar, hevt, Bool.not_true, Bool.or_false,
    Bool.false_eq_true, if_false]

end

/-- Settles O26. -/
theorem hostCommandsComplete : Obligations.HostCommandsComplete := by
  intro s
  refine ⟨?sent, ?silent, ?noRing, ?room, ?head, ?ack, ?data⟩
  case sent =>
    intro hpar hevt haddr
    exact ⟨_, exec_eventInterrupt s hpar hevt, rfl, State.sendIrq_irqs { s with gate := { s.gate with evtWant := false } } 0x01078 haddr⟩
  case silent =>
    intro hpar hevt haddr
    have hnone := State.sendIrq_zero { s with gate := { s.gate with evtWant := false } } (data := 0x01078) haddr
    rw [exec_eventInterrupt s hpar hevt, hnone]
  case noRing =>
    intro f rest hpar hf hack hdepth
    obtain ⟨more, hmore⟩ := s.recordLost_faults_prefix f
    exact ⟨_, exec_faultRecordWrite_noRing s hpar hf hack hdepth, ⟨more, by rw [← hmore, hf]; rfl⟩, s.rd_recordLost_lost f⟩
  case room => exact fun f rest t hpar hf hack hdepth hroom hwr => exec_faultRecordWrite_room s hpar hf hack hdepth hroom hwr
  case head => exact fun v ho hroom => exec_fringHeadWrite_room s ho hroom
  case ack =>
    intro n h hn
    change execHostWriteAck n s = _
    simp only [execHostWriteAck, hn]
  case data =>
    intro pa data
    exact ⟨_, rfl, fun i hi => (Memory.byte_store_inside _ _ _ i hi).trans (List.getD_eq_getElem _ _ hi).symm,
      fun a ha => Memory.byte_store_outside _ _ _ a ha, rfl⟩

end Sys2Proof.Machine
end

section
/-! PROOFS. Probes, repairs and maintenance (R122, R207, R212, R213, R255, R366): the tile's jobs, the heap messages, refit repairs and
maintenance operations. -/

namespace Sys2Proof.Machine

section
variable (s : State)

/-! ## Jobs of the tile (R207, R255) -/

/-- `PROBE_JOB` of the first waiting probe, with no matrix instruction before it, its slot good and no injection armed. -/
theorem exec_probeJob {d : Dist} {pick k : Nat} {w : Walker} (hwalk : s.walking d.val = true) (hnext : s.nextProbe d.val = some w)
    (htile : (s.dist d.val).tile = some k) (hfirst : s.tileFirst d.val (tileKey w.cls w.ord) = true)
    (harm : s.armed (Fld.dstInjectTile d.val) = false) (hpat : w.pat = 0) : exec (.probeJob d pick) s = .next (s.job d.val pick w) := by
  change execProbeJob d pick s = _
  simp [execProbeJob, hwalk, hnext, htile, hfirst, harm, s.readSlot_good hpat]

/-! ## Messages to and from the heap (R212, R213, R214) -/

/-- The message that a district gets of a kind is the next one that any test for that kind finds. -/
theorem State.nextMsg_of_gets {d : Dist} {kind : Nat} {m : Msg} {p : Payload → Bool} (hm : s.gets d kind m)
    (hp : ∀ y, p y = decide (y.code = kind)) : s.nextMsg d.val p = some m :=
  (s.nextMsg_congr d.val hp).trans hm

section
variable {d : Dist} {m : Msg} {b : Bid} {i g : Nat} (hworks : s.heapWorks d.val = true)
include hworks

/-- `CANDIDATE_MESSAGE` received at the heap's home (R212). -/
theorem exec_candidateMessage {num : Nat} {ents : List (Word × Word × Nat)} (hm : s.gets d 3 m) (hbody : m.body = .candidates b i g num ents) :
    exec (.candidateMessage d) s = .next ((s.dropMsg m).candidatesIn d.val m.src b i g ents) := by
  change execCandidateMessage d s = _
  unfold execCandidateMessage
  rw [s.nextMsg_of_gets hm fun y => by cases y <;> rfl]
  simp [hworks, hbody]

/-- `TAU_REPLY` received where its walker stands: the lower of the two thresholds is carried on (R212). -/
theorem exec_tauReply {tau : Word} (hm : s.gets d 4 m) (hbody : m.body = .tau b i g tau) :
    exec (.tauReply d) s = .next ((s.dropMsg m).updWalker (fun w => w.is b i g && decide (w.dist = d.val) && decide (w.st ≠ .inTransit))
      (fun w => { w with probe := w.probe.map (fun p => { p with tau := if (f32 tau).lt (f32 p.tau) then tau else p.tau }) })) := by
  change execTauReply d s = _
  unfold execTauReply
  rw [s.nextMsg_of_gets hm fun y => by cases y <;> rfl]
  simp [hworks, hbody]

/-- `END_NOTICE` received at the heap's home (R213). -/
theorem exec_endNotice_received {sent visits : Nat} (hm : s.gets d 5 m) (hbody : m.body = .endNotice b i g sent visits) :
    exec (.endNotice d) s = .next ((s.dropMsg m).endAtHome d.val b i g sent visits) := by
  change execEndNotice d s = _
  unfold execEndNotice
  rw [s.nextMsg_of_gets hm fun y => by cases y <;> rfl]
  simp [hworks, hbody]

end

/-! ## Repairs and maintenance batches (R122, R366) -/

section
variable {b : Bid} {x : Batch} (ha : s.active = true) (hx : s.batch b = some x) (hstop : x.stop = false) (hstatus : x.status = none)
  (hst : x.st = .admitted)
include ha hx hstop hstatus hst

/-- `REFIT_REPAIR` of an admitted batch whose records have all been applied or skipped, with a district open (R122). -/
theorem exec_refitRepair {d : Nat} (hrefit : x.refit = true) (hdone : x.doneCount = x.desc.walkers) (hd : d ∈ allDists)
    (hopen : s.isOpen d = true) : exec (.refitRepair b) s = .next (s.repairBatch x) := by
  have hclosed : ¬ ∀ e ∈ allDists, s.isOpen e = false := fun h => by simp [h d hd] at hopen
  change execRefitRepair b s = _
  simp [execRefitRepair, hx, ha, hrefit, hstop, hstatus, hst, hdone, hclosed]

/-- `MAINT_OPERATION` of an admitted batch whose record can be read (R366). -/
theorem exec_maintOperation {bs : List Byte} (hwork : x.work = true) (hread : s.stampRead b x.desc.inAddr 16 = some bs) :
    exec (.maintOperation b) s = .next ((s.hostRead 16).maintBatch x bs) := by
  change execMaintOperation b s = _
  simp [execMaintOperation, hx, ha, hwork, hstop, hstatus, hst, hread]

end

end

/-- Settles O27, one lemma for each command. -/
theorem probeAndMaintenanceComplete : Obligations.ProbeAndMaintenanceComplete := by
  intro s
  refine ⟨fun d pick k w => exec_probeJob s, ?candidates, ?tau, ?ended, ?repair, ?maint⟩
  case candidates => exact fun d m b i g num ents hworks hm hbody => exec_candidateMessage s hworks hm hbody
  case tau => exact fun d m b i g tau hworks hm hbody => exec_tauReply s hworks hm hbody
  case ended => exact fun d m b i g sent visits hworks hm hbody => exec_endNotice_received s hworks hm hbody
  case repair =>
    intro b x d ha hx hrefit hstop hstatus hst hdone hd hopen
    exact exec_refitRepair s ha hx hstop hstatus hst hrefit hdone hd hopen
  case maint =>
    intro b x bs ha hx hwork hstop hstatus hst hread
    exact exec_maintOperation s ha hx hstop hstatus hst hwork hread

end Sys2Proof.Machine
end

section
/-! PROOFS. Child masks of ray nodes (R104): the mask of a child by the class of its node, and the mask test of the children a ray may enter. -/

namespace Sys2Proof.Machine

section
variable {bs : List Byte}

theorem childMask_fine (c : Nat) (h : nodeFine bs = true) : childMask bs c = bytesLe bs (0x50 + 2 * c) 2 := by simp [childMask, h]

theorem childMask_coarse (c : Nat) (h : nodeFine bs = false) : childMask bs c = 0xFFFF := by simp [childMask, h]

/-- A child that a ray may be tested against has a mask that the ray's mask meets, whatever the node's class. -/
theorem mask_meets_of_mem_openChildren {w : Walker} {len c : Nat} (h : c ∈ openChildren w bs len) : w.ray.mask.toNat &&& childMask bs c ≠ 0 := by
  have htests := (List.mem_filter.mp h).2
  simp only [Bool.and_eq_true, decide_eq_true_eq] at htests
  obtain ⟨⟨⟨-, hmask⟩, -⟩, -⟩ := htests
  exact hmask

end

/-- Settles O43: an open child has passed the mask test, and the class of the node gives the mask. -/
theorem childMasks : Obligations.ChildMasks := fun _ _ _ c =>
  ⟨fun hfine hc => childMask_fine c hfine ▸ mask_meets_of_mem_openChildren hc, fun hcoarse => childMask_coarse c hcoarse⟩

end Sys2Proof.Machine
end

section
/-! PROOFS. Lots (R156, R157): the hash of a treelet and the owner of a lot. -/

namespace Sys2Proof.Machine

/-- Settles O40: the lot and the set are the top bits of a hash of 32 bits. -/
theorem treeletHash : Obligations.TreeletHash := fun tid => by
  have hhash : tid * 0x9E3779B9 % 2 ^ 32 < 2 ^ 32 := Nat.mod_lt _ (by decide)
  exact ⟨rfl, rfl, Nat.div_lt_of_lt_mul hhash, Nat.div_lt_of_lt_mul hhash⟩

section
variable (l : Nat)

/-- The heavier for lot `l` of the district found so far and another one (R157). -/
def heavier (acc : Option Nat) (d : Nat) : Option Nat :=
  match acc with
  | none => some d
  | some e => if lotWeight l e < lotWeight l d then some d else some e

/-- A lot whose base district is closed falls to the heaviest open district. -/
theorem lotOwnerOf_base_closed {isOpen : Nat → Bool} (h : isOpen (l % 128) = false) :
    lotOwnerOf isOpen l = (allDists.filter isOpen).foldl (heavier l) none :=
  if_neg (Bool.eq_false_iff.mp h)

theorem heavier_mem {acc : Option Nat} {d m : Nat} (h : heavier l acc d = some m) : acc = some m ∨ m = d := by
  unfold heavier at h
  split at h
  · exact .inr (Option.some.inj h).symm
  · split at h
    · exact .inr (Option.some.inj h).symm
    · exact .inl h

/-- The heavier of two is there, and neither outweighs it. -/
theorem heavier_max (acc : Option Nat) (d : Nat) :
    ∃ m, heavier l acc d = some m ∧ lotWeight l d ≤ lotWeight l m ∧ ∀ e, acc = some e → lotWeight l e ≤ lotWeight l m := by
  unfold heavier
  split
  · exact ⟨d, rfl, Nat.le_refl _, nofun⟩
  · next e =>
    split
    · next hlt => exact ⟨d, rfl, Nat.le_refl _, fun x hx => Option.some.inj hx ▸ Nat.le_of_lt hlt⟩
    · next hge => exact ⟨e, rfl, Nat.le_of_not_lt hge, fun x hx => Option.some.inj hx ▸ Nat.le_refl _⟩

theorem foldl_heavier_mem {ds : List Nat} {acc : Option Nat} {m : Nat} (h : ds.foldl (heavier l) acc = some m) : acc = some m ∨ m ∈ ds := by
  induction ds generalizing acc with
  | nil => exact .inl h
  | cons d ds ih =>
    rcases ih h with hacc | hmem
    · exact (heavier_mem l hacc).imp_right fun hd : m = d => hd ▸ List.mem_cons_self
    · exact .inr (List.mem_cons_of_mem _ hmem)

/-- The heaviest of a list is there where the list holds any district, and none of them outweighs it. -/
theorem foldl_heavier_max {ds : List Nat} {acc : Option Nat} {e : Nat} (h : acc = some e ∨ e ∈ ds) :
    ∃ m, ds.foldl (heavier l) acc = some m ∧ lotWeight l e ≤ lotWeight l m := by
  induction ds generalizing acc e with
  | nil => exact ⟨e, h.resolve_right List.not_mem_nil, Nat.le_refl _⟩
  | cons d ds ih =>
    obtain ⟨k, hk, hd, hacc⟩ := heavier_max l acc d
    obtain ⟨m, hm, hkm⟩ := ih (.inl hk)
    rcases h with h | h
    · exact ⟨m, hm, (hacc e h).trans hkm⟩
    · rcases List.mem_cons.mp h with rfl | h
      · exact ⟨m, hm, hd.trans hkm⟩
      · exact ih (.inr h)

end

/-- Settles O57: the owner is the base district or the heaviest of the open ones. -/
theorem lotOwners : Obligations.LotOwners := by
  intro s l
  have hbase (h : s.isOpen (l % 128) = true) : s.lotOwner l = some (l % 128) := if_pos h
  have hlist {e : Nat} (he : e < 128) (ho : s.isOpen e = true) : e ∈ allDists.filter s.isOpen := by simp [allDists, he, ho]
  refine ⟨hbase, fun d hd => ?owner, fun e he ho => ?owned⟩
  case owner =>
    cases hb : s.isOpen (l % 128) with
    | true =>
      obtain rfl : l % 128 = d := Option.some.inj ((hbase hb).symm.trans hd)
      exact ⟨hb, nofun⟩
    | false =>
      have hfold : (allDists.filter s.isOpen).foldl (heavier l) none = some d := (lotOwnerOf_base_closed l hb).symm.trans hd
      refine ⟨(List.mem_filter.mp ((foldl_heavier_mem l hfold).resolve_left nofun)).2, fun _ e he ho => ?_⟩
      obtain ⟨m, hm, hle⟩ := foldl_heavier_max l (acc := none) (.inr (hlist he ho))
      exact Option.some.inj (hm.symm.trans hfold) ▸ hle
  case owned =>
    cases hb : s.isOpen (l % 128) with
    | true => exact ⟨_, hbase hb⟩
    | false =>
      obtain ⟨m, hm, -⟩ := foldl_heavier_max l (acc := none) (.inr (hlist he ho))
      exact ⟨m, (lotOwnerOf_base_closed l hb).trans hm⟩

end Sys2Proof.Machine
end

section
/-! PROOFS. The windows onto the tables (R156, R162, R489 to R491): words written to the map and to the tenant table, and a treelet's hash. -/

namespace Sys2Proof.Machine

section
variable (s : State)

/-! ## The route epoch (R162) -/

@[simp] theorem State.noMemos_regs : s.noMemos.regs = s.regs := rfl

theorem State.rd_bumpEpoch : s.bumpEpoch.rd Fld.chRouteEpochEpoch = (s.rd Fld.chRouteEpochEpoch + 1) % 65536 := by
  rw [State.bumpEpoch, State.rd_congr (State.noMemos_regs _)]
  exact State.rd_wr_same _ _ _ (by decide) (by decide)

/-! ## `MAP` (R162, R489) -/

/-- A word of the map that has been written, with good parity. -/
def State.putMapWord (e w : Nat) (v : Word) : State :=
  { s with map := SMap.set 0 s.map (e * 4 + w) v, mapBad := parityAfter s.mapBad (e * 4 + w) false }

theorem State.mapWord_putMapWord_same (e w : Nat) (v : Word) : (s.putMapWord e w v).mapWord e w = v := SMap.get_set_same ..

theorem State.mapWord_putMapWord_other {e e' w w' : Nat} (v : Word) (hw : w < 4) (hw' : w' < 4) (h : e' ≠ e ∨ w' ≠ w) :
    (s.putMapWord e w v).mapWord e' w' = s.mapWord e' w' :=
  SMap.get_set_other _ _ _ (by omega)

theorem not_mem_parityAfter (bad : List Nat) (k : Nat) : k ∉ parityAfter bad k false := by simp [parityAfter]

/-- `MAP_DATA_WRITE` with the page's parity good, the share's district not under reset and no injection armed (R162, R489). -/
theorem exec_mapDataWrite {n : Fin 4} {v : Word} (ho : s.opens (0x06100 + 4 * n.val) = true) (hpar : s.pageBad 6 = false)
    (hres : (s.dist (s.rd Fld.mapIndexIndex / 512)).inReset = false) (harm : s.armed Fld.mapInjectTbl = false) :
    exec (.mapDataWrite n v) s = .next (s.putMapWord (s.rd Fld.mapIndexIndex) n.val v).bumpEpoch := by
  have hrun : s.halted .map = false := by simp [State.halted, PageKind.first, hpar]
  change execMapDataWrite n v s = _
  simp [execMapDataWrite, State.guardWrite_opens _ _ _ ho, s.parityCheck_good hpar, hrun, hres, harm, State.putMapWord]

/-! ## `TEN` (R490) -/

/-- A word of the tenant table that has been written, with good parity. -/
def State.putTenWord (t i : Nat) (v : Word) : State :=
  { s with ten := tenSet s.ten t i v, tenBad := parityAfter s.tenBad (t * 32 + i) false }

theorem State.tenWord_putTenWord_same (t i : Nat) (v : Word) : (s.putTenWord t i v).tenWord t i = v := by
  change (SMap.find (tenSet s.ten t i v) (t * 32 + i)).getD _ = v
  unfold tenSet
  by_cases hv : v = if i = 0 then 0x100 else 0
  · rw [if_pos hv, SMap.find_del_same, Option.getD_none, hv]
  · rw [if_neg hv, SMap.find_put_same, Option.getD_some]

theorem State.tenWord_putTenWord_other {t t' i i' : Nat} (v : Word) (hi : i < 32) (hi' : i' < 32) (h : t' ≠ t ∨ i' ≠ i) :
    (s.putTenWord t i v).tenWord t' i' = s.tenWord t' i' := by
  have hkey : t' * 32 + i' ≠ t * 32 + i := by omega
  have hfind : SMap.find (s.putTenWord t i v).ten (t' * 32 + i') = SMap.find s.ten (t' * 32 + i') := by
    change SMap.find (tenSet s.ten t i v) _ = _
    unfold tenSet
    by_cases hv : v = if i = 0 then 0x100 else 0
    · rw [if_pos hv, SMap.find_del_other _ hkey]
    · rw [if_neg hv, SMap.find_put_other _ _ hkey]
  rw [State.tenWord, State.tenWord, hfind]

/-- `TEN_DATA_WRITE` with the page's parity good and no injection armed (R490). -/
theorem exec_tenDataWrite {n : Fin 32} {v : Word} (ho : s.opens (0x05100 + 4 * n.val) = true) (hpar : s.pageBad 5 = false)
    (harm : s.armed Fld.tenInjectTbl = false) : exec (.tenDataWrite n v) s = .next (s.putTenWord (s.rd Fld.tenIndexIndex) n.val v) := by
  have hrun : s.halted .ten = false := by simp [State.halted, PageKind.first, hpar]
  change execTenDataWrite n v s = _
  simp [execTenDataWrite, State.guardWrite_opens _ _ _ ho, s.parityCheck_good hpar, hrun, harm, State.putTenWord]

/-! ## `MAP_HASH_IN` and `MAP_HASH_OUT` (R156) -/

@[simp] theorem State.parityWrite_dists (off : Nat) : (s.parityWrite off).dists = s.dists := by
  unfold State.parityWrite
  dsimp only
  split
  · rfl
  · split <;> rfl

/-- A lot's owner depends on the open districts alone. -/
theorem State.lotOwner_congr {s t : State} (h : t.dists = s.dists) (l : Nat) : t.lotOwner l = s.lotOwner l := by
  have hopen : t.isOpen = s.isOpen := by funext d; rw [State.isOpen, State.isOpen, State.dist, State.dist, h]
  rw [State.lotOwner, State.lotOwner, hopen]

theorem mapHashIn_rw : (regAt 0x06044).rw = fieldMask 23 0 := by decide

/-- `MAP_HASH_IN` takes the identity written to it, and no district changes. -/
theorem State.hostSet_mapHashIn (v : Word) (harm : s.armed ⟨0x06010, 31, 31⟩ = false) :
    (s.hostSet 0x06044 v).rd Fld.mapHashInTid = v.toNat % 2 ^ 24 ∧ (s.hostSet 0x06044 v).dists = s.dists := by
  have hset : s.hostSet 0x06044 v = (s.setReg 0x06044 ((s.reg 0x06044 &&& ~~~fieldMask 23 0) ||| (v &&& fieldMask 23 0))).parityWrite 0x06044 := by
    have hne : (regAt 0x06044).rw ≠ 0 := by decide
    have hpage : pageOf (offPage 0x06044) = some (.map, 0) := rfl
    simp only [State.hostSet, hne, if_false, hpage]
    rw [mapHashIn_rw]
  have harm' (w : Word) : (s.setReg 0x06044 w).armed ⟨offPage 0x06044 * 0x1000 + 0x010, 31, 31⟩ = false := by
    rwa [State.armed, State.flag, State.rd, State.reg_setReg_other _ _ _ _ (by decide)]
  rw [hset]
  constructor
  · rw [State.rd_congr (State.parityWrite_regs _ (harm' _)), State.rd, Fld.mapHashInTid, State.reg_setReg_same,
      field_written _ _ (Nat.le_refl 23) (Nat.le_refl 0) (by decide)]
    simp [field, bits]
  · rw [State.parityWrite_dists, State.setReg_dists]

/-- `MAP_HASH` (R156): the identity is taken, and its hash answered. -/
theorem exec_mapHash {v : Word} (ho : s.opens 0x06044 = true) :
    exec (.mapHash v) s = .next ((s.hostSet 0x06044 v).answerRead (s.hostSet 0x06044 v).hashOut) :=
  congrArg Host.Outcome.next (State.guardWrite_opens _ _ _ ho)

end

/-- Settles O17, one lemma for each command. -/
theorem tableWindowsComplete : Obligations.TableWindowsComplete := by
  intro s
  refine ⟨?map, ?ten, ?hash⟩
  case map =>
    intro n v ho hpar hres harm
    refine ⟨_, exec_mapDataWrite s ho hpar hres harm, ?_, fun e m hne hm => ?_, State.rd_bumpEpoch _, not_mem_parityAfter _ _⟩
    · exact s.mapWord_putMapWord_same _ _ v
    · exact s.mapWord_putMapWord_other v n.isLt hm hne
  case ten =>
    intro n v ho hpar harm
    exact ⟨_, exec_tenDataWrite s ho hpar harm, s.tenWord_putTenWord_same _ _ v, fun e m hne hm => s.tenWord_putTenWord_other v n.isLt hm hne,
      not_mem_parityAfter _ _, rfl⟩
  case hash =>
    intro v ho harm
    obtain ⟨htid, hdists⟩ := s.hostSet_mapHashIn v harm
    refine ⟨_, exec_mapHash s ho, htid, ?_⟩
    simp only [State.answerRead, State.hashOut, htid, State.lotOwner_congr hdists]

end Sys2Proof.Machine
end

section
/-! PROOFS. Squares and plots (R167, R172, R195): load decisions, finished loads and slots that drain. -/

namespace Sys2Proof.Machine

section
variable (s : State)

/-- `LOAD_DECISION` of an open district that works (R167). -/
theorem exec_loadDecision {d : Dist} (hwalk : s.walking d.val = true) (hopen : s.isOpen d.val = true) :
    exec (.loadDecision d) s = .next (s.loadDecision d.val) := by
  change execLoadDecision d s = _
  simp [execLoadDecision, hwalk, hopen]

/-- `PLOT_LOAD_COMPLETE` of the load that a channel of an open district is carrying out (R172). -/
theorem exec_plotLoadComplete {d : Dist} {ch : Fin 2} {k : Nat} {p : PlotSlot} (hwalk : s.walking d.val = true) (hopen : s.isOpen d.val = true)
    (hload : (s.dist d.val).plot.find? (fun p => decide (p.2.st = .loading) && (decide (p.2.ch = some ch.val)
      || (decide (ch.val = 0) && decide (p.2.ch = none)))) = some (k, p)) :
    exec (.plotLoadComplete d ch) s = .next (s.finishLoad d.val ch.val k p) := by
  change execPlotLoadComplete d ch s = _
  simp only [execPlotLoadComplete, hwalk, hopen, hload, Bool.and_self, Bool.not_true, Bool.false_eq_true, if_false]

/-- `COPY_DRAIN_END` of a copy that drains (R195): its slot is free, and the top entries' copies may take it. -/
theorem exec_copyDrainEnd {d : Dist} {slot : Fin 16} {p : PlotSlot} (hfind : SMap.find (s.dist d.val).plot slot.val = some p)
    (hst : p.st = .draining) : exec (.copyDrainEnd d slot) s = .next ((s.freeSlot d.val slot.val).topLoads d.val) := by
  change execCopyDrainEnd d slot s = _
  simp [execCopyDrainEnd, hfind, hst]

theorem State.plot_freeSlot_same (d k : Nat) : SMap.find ((s.freeSlot d k).dist d).plot k = none := by simp [State.freeSlot]

theorem State.topLoads_of_none (d : Nat) (h : s.house.top = []) : s.topLoads d = s := by simp [State.topLoads, h]

end

/-- Settles O22, one lemma for each command. -/
theorem plotCommandsComplete : Obligations.PlotCommandsComplete := by
  intro d s
  refine ⟨exec_loadDecision s, fun ch k p => exec_plotLoadComplete s, fun slot p hfind hst => ?drained⟩
  case drained =>
    refine ⟨exec_copyDrainEnd s hfind hst, s.plot_freeSlot_same _ _, fun htop => ?_⟩
    rw [exec_copyDrainEnd s hfind hst, State.topLoads_of_none _ _ (show (s.freeSlot d.val slot.val).house.top = [] from htop)]

end Sys2Proof.Machine
end

section
/-! PROOFS. Results (R190, R303, R311, R319, R322): walkers' own writes, packed blocks, runs flushed, contributions to slots and done notices. -/

namespace Sys2Proof.Machine

section
variable (s : State) (ha : s.active = true)
include ha

/-- `RESULT_WRITE` (R190, R303): the first walker whose write or acknowledgement changes anything. -/
theorem exec_resultWrite (d : Dist) : exec (.resultWrite d) s = .next (s.firstMoved (fun w => match s.batch w.bid with
    | none => s.ackWalker w 0
    | some x => s.writeOne x w) (s.doneAt d.val s.ownWrite)) :=
  congrArg Host.Outcome.next (if_neg (by simp [ha]))

/-- `PACK_WRITE` of the oldest walker with a block to pack (R311). -/
theorem exec_packWrite {d : Dist} {w : Walker} {rest : List Walker} {x : Batch} (hnext : s.doneAt d.val s.packReady = w :: rest)
    (hx : s.batch w.bid = some x) : exec (.packWrite d) s = .next (s.packOne x w) := by
  change execPackWrite d s = _
  simp only [execPackWrite, ha, hnext, hx, Bool.not_true, Bool.false_eq_true, if_false]

/-- `RUN_FLUSH` of a batch's next run, all of whose walkers are done, where its staged blocks can be read and written out (R311). -/
theorem exec_runFlush {b : Bid} {x : Batch} {l : LedgerRun} {t : State} (hx : s.batch b = some x)
    (hrun : s.house.ledger.find? (fun l => decide (l.bid = b) && decide (l.run = x.nextRun)) = some l) (hpacks : x.desc.packs = true)
    (hst : x.status = none) (hstop : x.stop = false) (hclosed : l.done = l.dealt) (hmay : s.mayWrite b = true)
    (hget : (s.recordGet streamPack (s.packAt l.place) 1024).2 = false)
    (hflush : (s.recordGet streamPack (s.packAt l.place) 1024).1.flushWrites x l = some t) :
    exec (.runFlush b) s = .next (t.updBatch b (fun y => { y with nextRun := y.nextRun + 1, cursor := y.cursor + maskCount l.hit })) := by
  change execRunFlush b s = _
  simp [execRunFlush, ha, hx, hrun, hpacks, hst, hstop, hclosed, hmay, hget, hflush]

/-- `CONTRIBUTION` to a slot that no program holds locked (R319). -/
theorem exec_contribution {pick : Nat} {c : Contrib} {x : Batch} {t : State} (hc : s.contribs[pick]? = some c) (hx : s.batch c.bid = some x)
    (hmay : s.mayWrite c.bid = true) (hfree : ∀ l ∈ s.locks, ¬ (l.bid = c.bid ∧ l.slot = c.slot))
    (hadd : State.addSlot { s with contribs := s.contribs.eraseIdx pick } x c.slot c.words (.result c.bid c.idx 0) = some t) :
    exec (.contribution pick) s = .next t := by
  have hlock : s.locks.any (fun l => decide (l.bid = c.bid) && decide (l.slot = c.slot)) = false := by simpa using hfree
  change execContribution pick s = _
  simp only [execContribution, ha, hc, hx, hmay, hlock, hadd, Bool.not_true, Bool.or_false, Bool.false_eq_true, if_false]

/-- `DONE_NOTICE` of the acknowledged walkers of the oldest one's run, with the energy its district reports (R190, R380). -/
theorem exec_doneNotice {r : DoneReport} {w : Walker} {rest : List Walker}
    (hnext : s.doneAt r.dist.val (fun w => decide (w.stage = .acked)) = w :: rest) : exec (.doneNotice r) s = .next
      (let t := r.charges.foldl (fun u c => u.meter (.district r.dist) c.1 c.2) s
       ((((w :: rest.filter (fun y => decide (y.bid = w.bid) && decide (y.run = w.run))).foldl (fun u y => u.noticeOne y) t).ledgerUpd w.bid w.run
          id).noticeTwin w.bid).refreshDrained r.dist.val) := by
  change execDoneNotice r s = _
  simp only [execDoneNotice, ha, hnext, Bool.not_true, Bool.false_eq_true, if_false]

end

/-- Settles O24, one lemma for each command. -/
theorem resultCommandsComplete : Obligations.ResultCommandsComplete := by
  intro s ha
  refine ⟨exec_resultWrite s ha, fun d w rest x => exec_packWrite s ha, ?flush, fun pick c x t => exec_contribution s ha,
    fun r w rest => exec_doneNotice s ha⟩
  case flush =>
    intro b x l t hx hrun hpacks hst hstop hclosed hmay hget hflush
    exact exec_runFlush s ha hx hrun hpacks hst hstop hclosed hmay hget hflush

end Sys2Proof.Machine
end

section
/-! PROOFS. Closing and opening districts (R162, R188, R189, R191, R192). A change of the open districts discards every memo (R163);
`State.noMemos` does so entry by entry, so where the table lists a district twice the entry behind comes to stand for it, with its own reasons.
The statements speak of every state, and fail on such a table. Setting an entry keeps a table in order (`SMap.sorted_set`), and in a table in
order what they say of a district's reasons and of the route epoch holds: the second half of this part. -/

namespace Sys2Proof.Machine

/-! ## A district listed twice -/

/-- The block up, its table of districts listing district 0 twice, open both times; the entry behind has a memo. -/
def State.listedTwice : State :=
  { State.reset with phase := .up, dists := [(0, { District.reset with reasons := 0 }),
    (0, { District.reset with reasons := 0, memo := [{ tid := 0, entry := none }] })] }

/-- Refutes O29: in `State.listedTwice` the host may close district 0, and `HOST` is then clear in its reasons. -/
theorem not_districtCommandsComplete : ¬ Obligations.DistrictCommandsComplete := by
  intro h
  have hopens : State.listedTwice.opens (pageReg .dst 0 0x040) = true := by decide
  have hclear : (((State.listedTwice.hostSet (pageReg .dst 0 0x040) 1).setReason 0 rsHost true).dist 0).reasons.getLsbD rsHost = false := by decide
  obtain ⟨hclose, -⟩ := h 0 State.listedTwice
  exact Bool.false_ne_true (hclear.symm.trans (hclose hopens).2)

/-- Refutes O56: in `State.listedTwice` district 0 is open, and still open once `HOST` is set in its reasons. -/
theorem not_routeEpoch : ¬ Obligations.RouteEpoch := by
  intro h
  have hopen : State.listedTwice.isOpen 0 = true := by decide
  have hstill : (State.listedTwice.setReason 0 rsHost true).isOpen 0 = true := by decide
  obtain ⟨-, hclose, -⟩ := h State.listedTwice
  exact Bool.false_ne_true ((hclose 0 rsHost (by decide) (by decide) hopen).1.symm.trans hstill)

/-! ## A table in order -/

theorem SMap.sorted_set {α : Type} [DecidableEq α] (d : α) (m : SMap α) (n : Nat) (v : α) (h : SMap.sorted m = true) :
    SMap.sorted (SMap.set d m n v) = true := by
  unfold SMap.set
  split
  · exact SMap.sorted_del _ _ h
  · exact SMap.sorted_put _ _ _ h

/-- A table in order lists a key once. -/
theorem SMap.find_of_mem_sorted {α : Type} {m : SMap α} {n : Nat} {v : α} (hs : SMap.sorted m = true) (h : (n, v) ∈ m) : SMap.find m n = some v := by
  induction m with
  | nil => cases h
  | cons p t ih =>
    obtain ⟨k, w⟩ := p
    simp only [SMap.sorted, Bool.and_eq_true, List.all_eq_true, decide_eq_true_eq] at hs
    rcases List.mem_cons.mp h with heq | hmem
    · cases heq
      simp [SMap.find]
    · have hne : n ≠ k := Nat.ne_of_gt (hs.1 _ hmem)
      simp [SMap.find, hne, ih hs.2 hmem]

theorem State.dist_congr {s t : State} (h : t.dists = s.dists) (d : Nat) : t.dist d = s.dist d := by rw [State.dist, State.dist, h]

/-- The entry that a table in order lists for a district is what the district is. -/
theorem State.dist_of_mem_sorted {s : State} {p : Nat × District} (hs : SMap.sorted s.dists = true) (h : p ∈ s.dists) : s.dist p.1 = p.2 := by
  rw [State.dist, SMap.get, SMap.find_of_mem_sorted hs h, Option.getD_some]

theorem State.isOpen_of_reason {s : State} {d bit : Nat} (h : (s.dist d).reasons.getLsbD bit = true) : s.isOpen d = false := by
  have hne : (s.dist d).reasons ≠ 0 := fun h0 => by simp [h0] at h
  exact decide_eq_false hne

/-- From one state to another the route epoch has stayed, a table of districts in order has stayed in order, and in it a reason of a district has stayed. -/
structure State.ReasonKept (d bit : Nat) (s t : State) : Prop where
  epoch : t.rd Fld.chRouteEpochEpoch = s.rd Fld.chRouteEpochEpoch
  sorted : SMap.sorted s.dists = true → SMap.sorted t.dists = true
  reason : SMap.sorted s.dists = true → (t.dist d).reasons.getLsbD bit = (s.dist d).reasons.getLsbD bit

namespace State.ReasonKept

variable {d bit : Nat}

theorem refl (s : State) : State.ReasonKept d bit s s := ⟨rfl, id, fun _ => rfl⟩

theorem trans {s t u : State} (h : State.ReasonKept d bit s t) (h' : State.ReasonKept d bit t u) : State.ReasonKept d bit s u :=
  ⟨h'.epoch.trans h.epoch, h'.sorted ∘ h.sorted, fun hs => (h'.reason (h.sorted hs)).trans (h.reason hs)⟩

theorem foldl {α : Type} {s : State} (l : List α) (f : State → α → State) (h : ∀ (t : State) x, State.ReasonKept d bit t (f t x)) :
    State.ReasonKept d bit s (l.foldl f s) :=
  List.foldlRecOn (motive := fun t => State.ReasonKept d bit s t) l f (refl s) fun t ht x _ => ht.trans (h t x)

theorem ite {s t u : State} {c : Prop} [Decidable c] (ht : State.ReasonKept d bit s t) (hu : State.ReasonKept d bit s u) :
    State.ReasonKept d bit s (if c then t else u) := by
  split
  · exact ht
  · exact hu

variable (s : State)

/-- What leaves the table of districts and the epoch's register alone. -/
theorem of_eq {t : State} (hd : t.dists = s.dists) (he : t.rd Fld.chRouteEpochEpoch = s.rd Fld.chRouteEpochEpoch) : State.ReasonKept d bit s t :=
  ⟨he, fun hs => hd ▸ hs, fun _ => by rw [State.dist_congr hd]⟩

/-- The status of a page from `DST` up stands elsewhere than the route epoch. -/
theorem status_dst (e n : Nat) : State.ReasonKept d bit s (s.status (0x40 + e) n) := by
  have hne : Fld.chRouteEpochEpoch.off ≠ (Fld.status (0x40 + e) n).off := by simp only [Fld.chRouteEpochEpoch, Fld.status]; omega
  exact of_eq s (State.status_dists ..) (by rw [State.rd, State.status, State.reg_setBit_other _ _ _ _ hne, State.rd])

theorem updDist (e : Nat) (f : District → District) (h : d = e → (f (s.dist e)).reasons.getLsbD bit = (s.dist e).reasons.getLsbD bit) :
    State.ReasonKept d bit s (s.updDist e f) := by
  refine ⟨rfl, SMap.sorted_set _ _ _ _, fun _ => ?_⟩
  by_cases he : d = e
  · rw [he, State.dist_updDist_same, h he]
  · rw [State.dist_updDist_other _ _ _ _ he]

theorem refreshDrained (e : Nat) : State.ReasonKept d bit s (s.refreshDrained e) := by
  have hset (b : Bool) : State.ReasonKept d bit s (s.updDist e (fun x => { x with drained := b })) := updDist s e _ fun _ => rfl
  exact ite (refl s) (ite ((hset _).trans (status_dst _ e 6)) (hset _))

end State.ReasonKept

/-- The reasons of a district with one of them set or cleared (R188, R189). -/
def withReason (r : BitVec 6) (bit : Nat) (on : Bool) : BitVec 6 := if on then r ||| BitVec.ofNat 6 (2 ^ bit) else r &&& ~~~BitVec.ofNat 6 (2 ^ bit)

theorem getLsbD_reasonBit {bit : Nat} (h : bit < 6) (i : Nat) : (BitVec.ofNat 6 (2 ^ bit)).getLsbD i = decide (i = bit) := by
  rw [BitVec.getLsbD_ofNat, Nat.testBit_two_pow]
  by_cases hi : i = bit
  · simp [hi, h]
  · simp [hi, Ne.symm hi]

theorem getLsbD_withReason (r : BitVec 6) {bit i : Nat} (on : Bool) (h : bit < 6) :
    (withReason r bit on).getLsbD i = if i = bit then on else r.getLsbD i := by
  cases on with
  | true =>
    rw [withReason, if_pos rfl, BitVec.getLsbD_or, getLsbD_reasonBit h]
    by_cases hi : i = bit <;> simp [hi]
  | false =>
    rw [withReason, if_neg Bool.false_ne_true, BitVec.getLsbD_and, BitVec.getLsbD_not, getLsbD_reasonBit h]
    by_cases hi : i = bit
    · simp [hi]
    · simpa [hi] using fun hr => BitVec.lt_of_getLsbD hr

section
variable (s : State)

/-- A reason set or cleared, before `DRAINED` follows (R188, R189). -/
theorem State.reasonRaw_eq (d bit : Nat) (on : Bool) : ∃ (t : State) (x : District), s.reasonRaw d bit on = t.refreshDrained d
    ∧ t.dists = SMap.set District.reset s.dists d x ∧ x.reasons = withReason (s.dist d).reasons bit on
    ∧ t.rd Fld.chRouteEpochEpoch = s.rd Fld.chRouteEpochEpoch := by
  unfold State.reasonRaw
  extract_lets x r was now s1 out s2
  have hstatus := State.ReasonKept.status_dst (d := d) (bit := bit) s2 d 0
  have hs2 : s2.dists = s1.dists ∧ s2.regs = s.regs := by
    dsimp only [s2]
    split <;> exact ⟨rfl, rfl⟩
  have hd : (if now = was then s2 else s2.status (0x40 + d) 0).dists = s1.dists := by
    split
    · exact hs2.1
    · rw [State.status_dists, hs2.1]
  have he : (if now = was then s2 else s2.status (0x40 + d) 0).rd Fld.chRouteEpochEpoch = s2.rd Fld.chRouteEpochEpoch := by
    split
    · rfl
    · exact hstatus.epoch
  exact ⟨_, _, rfl, hd, rfl, he.trans (State.rd_congr hs2.2 _)⟩

theorem State.reasons_reasonRaw (hs : SMap.sorted s.dists = true) (d bit : Nat) (on : Bool) :
    ((s.reasonRaw d bit on).dist d).reasons = withReason (s.dist d).reasons bit on := by
  obtain ⟨t, x, ht, hd, hx, -⟩ := s.reasonRaw_eq d bit on
  have hsort : SMap.sorted t.dists = true := hd ▸ SMap.sorted_set _ _ _ _ hs
  have hdist : t.dist d = x := by rw [State.dist, hd, SMap.get_set_same]
  rw [ht, ← hx, ← hdist]
  exact BitVec.eq_of_getLsbD_eq fun i _ => (State.ReasonKept.refreshDrained (d := d) (bit := i) t d).reason hsort

end

namespace State.ReasonKept

variable {d bit : Nat} (s : State)

/-- A reason set or cleared leaves every other reason. -/
theorem reasonRaw {e b : Nat} (on : Bool) (hb : b < 6) (h : d = e → bit ≠ b) : State.ReasonKept d bit s (s.reasonRaw e b on) := by
  obtain ⟨t, x, ht, hd, hx, he⟩ := s.reasonRaw_eq e b on
  have hput : State.ReasonKept d bit s t := by
    refine ⟨he, fun hs => hd ▸ SMap.sorted_set _ _ _ _ hs, fun _ => ?_⟩
    rw [State.dist, hd]
    by_cases hde : d = e
    · rw [hde, SMap.get_set_same, hx, getLsbD_withReason _ on hb, if_neg (h hde)]
    · rw [SMap.get_set_other _ _ _ hde, State.dist]
  exact ht ▸ hput.trans (refreshDrained t e)

/-- Each entry of a table in order is rewritten with the reasons of its own district (R163). -/
theorem noMemos : State.ReasonKept d bit s s.noMemos := by
  refine ⟨rfl, fun hs => ?_, fun hs => ?_⟩
  · refine List.foldlRecOn (motive := fun m => SMap.sorted m = true) _ _ hs fun m hm p _ => ?_
    dsimp only
    split
    · exact hm
    · exact SMap.sorted_set _ _ _ _ hm
  · refine List.foldlRecOn (motive := fun m => (SMap.get District.reset m d).reasons.getLsbD bit = _) _ _ rfl fun m hm p hp => ?_
    dsimp only
    split
    · exact hm
    · by_cases hd : d = p.1
      · rw [hd, SMap.get_set_same, State.dist_of_mem_sorted hs hp]
      · rw [SMap.get_set_other _ _ _ hd, hm]

theorem isolate (h : bit ≠ rsIsolated) : State.ReasonKept d bit s s.isolate :=
  ite (refl s) (foldl _ _ fun t _ => ite (refl t) (reasonRaw t _ (by decide) fun _ => h))

end State.ReasonKept

/-! ## What follows a change of the open districts (R162, R189) -/

section
variable (s : State)

theorem State.rd_epoch_reroute : s.reroute.rd Fld.chRouteEpochEpoch = (s.rd Fld.chRouteEpochEpoch + 1) % 65536 := by
  have hisolate := State.ReasonKept.isolate (d := 0) (bit := rsHost) s (by decide)
  rw [← hisolate.epoch, ← State.rd_bumpEpoch]
  exact State.rd_congr rfl _

/-- Rerouting leaves the reasons but `ISOLATED`. -/
theorem State.reason_reroute {d bit : Nat} (hs : SMap.sorted s.dists = true) (h : bit ≠ rsIsolated) :
    SMap.sorted s.reroute.dists = true ∧ (s.reroute.dist d).reasons.getLsbD bit = (s.dist d).reasons.getLsbD bit := by
  have hisolate := State.ReasonKept.isolate (d := d) (bit := bit) s h
  have hmemos := State.ReasonKept.noMemos (d := d) (bit := bit) (s.isolate.wr Fld.chRouteEpochEpoch (s.isolate.rd Fld.chRouteEpochEpoch + 1))
  exact ⟨hmemos.sorted (hisolate.sorted hs), (hmemos.reason (hisolate.sorted hs)).trans (hisolate.reason hs)⟩

/-- In a table in order a reason that is not the avenues' own reads as it has been set (R188). -/
theorem State.reason_setReason {d bit : Nat} (on : Bool) (hs : SMap.sorted s.dists = true) (hbit : bit < 5) :
    SMap.sorted (s.setReason d bit on).dists = true ∧ ((s.setReason d bit on).dist d).reasons.getLsbD bit = on := by
  have hraw : SMap.sorted (s.reasonRaw d bit on).dists = true := by
    obtain ⟨t, x, ht, hd, -⟩ := s.reasonRaw_eq d bit on
    exact ht ▸ (State.ReasonKept.refreshDrained (d := d) (bit := bit) t d).sorted (hd ▸ SMap.sorted_set _ _ _ _ hs)
  have hset : ((s.reasonRaw d bit on).dist d).reasons.getLsbD bit = on := by
    rw [State.reasons_reasonRaw _ hs, getLsbD_withReason _ on (by omega), if_pos rfl]
  unfold State.setReason
  split
  · next h => exact ⟨hs, h⟩
  · dsimp only
    split
    · exact ⟨hraw, hset⟩
    · have hne : bit ≠ rsIsolated := Nat.ne_of_lt hbit
      obtain ⟨hsort, hreason⟩ := State.reason_reroute _ (d := d) hraw hne
      exact ⟨hsort, hreason.trans hset⟩

/-- A reason that closes or opens its district advances the route epoch by one (R162). -/
theorem State.rd_epoch_setReason {d bit : Nat} {on : Bool} (hnew : (s.dist d).reasons.getLsbD bit ≠ on)
    (hopen : (s.reasonRaw d bit on).isOpen d ≠ s.isOpen d) :
    (s.setReason d bit on).rd Fld.chRouteEpochEpoch = (s.rd Fld.chRouteEpochEpoch + 1) % 65536 := by
  obtain ⟨t, x, ht, -, -, he⟩ := s.reasonRaw_eq d bit on
  have hraw := (State.ReasonKept.refreshDrained (d := d) (bit := bit) t d).epoch.trans he
  rw [State.setReason, if_neg hnew, if_neg hopen, State.rd_epoch_reroute, ht, hraw]

/-- What O56 says of a closing district holds in a table in order. -/
theorem State.setReason_closes {d bit : Nat} (hs : SMap.sorted s.dists = true) (hbit : bit < 5) (hopen : s.isOpen d = true) :
    (s.setReason d bit true).isOpen d = false
    ∧ (s.setReason d bit true).rd Fld.chRouteEpochEpoch = (s.rd Fld.chRouteEpochEpoch + 1) % 65536 := by
  have hzero : (s.dist d).reasons = 0 := of_decide_eq_true hopen
  have hraw : (s.reasonRaw d bit true).isOpen d = false := by
    apply State.isOpen_of_reason (bit := bit)
    rw [State.reasons_reasonRaw _ hs, getLsbD_withReason _ _ (by omega), if_pos rfl]
  exact ⟨State.isOpen_of_reason (s.reason_setReason true hs hbit).2, s.rd_epoch_setReason (by simp [hzero]) (by simp [hraw, hopen])⟩

/-- What O56 says of an opening district holds in a table in order. -/
theorem State.setReason_opens {d bit : Nat} (hs : SMap.sorted s.dists = true) (hbit : bit < 6)
    (hlast : (s.dist d).reasons = BitVec.ofNat 6 (2 ^ bit)) :
    (s.setReason d bit false).rd Fld.chRouteEpochEpoch = (s.rd Fld.chRouteEpochEpoch + 1) % 65536 := by
  have hset : (s.dist d).reasons.getLsbD bit = true := by rw [hlast, getLsbD_reasonBit hbit, decide_eq_true rfl]
  have hraw : (s.reasonRaw d bit false).isOpen d = true := by
    apply decide_eq_true
    rw [State.reasons_reasonRaw _ hs, hlast]
    exact BitVec.and_not_self _
  exact s.rd_epoch_setReason (by simp [hset]) (by simp [hraw, State.isOpen_of_reason hset])

/-! ## The host's commands (R188, R189, R191) -/

theorem State.sorted_hostSet (off : Nat) (v : Word) (hs : SMap.sorted s.dists = true) : SMap.sorted (s.hostSet off v).dists = true := by
  have hcheck (t : State) (d : Nat) (ht : SMap.sorted t.dists = true) : SMap.sorted (t.crcCheck d).dists = true := by
    have hclose (u : State) (hu : u.dists = t.dists) : SMap.sorted (u.faultClose d).dists = true :=
      (State.reason_setReason _ (d := d) _ (SMap.sorted_set _ _ _ _ (hu ▸ ht)) (show rsFault < 5 by decide)).1
    unfold State.crcCheck
    split
    · extract_lets arm u
      have hu : u.dists = t.dists := by
        dsimp only [u]
        split <;> rfl
      split
      · exact hclose _ ((State.report_dists ..).trans hu)
      · exact hu ▸ ht
    · exact ht
  unfold State.hostSet
  dsimp only
  split
  · exact hs
  · split
    · exact hcheck _ _ hs
    · rw [State.parityWrite_dists]
      exact hs
    · exact hs

/-- `DST_CLOSE` in a table in order: `HOST` is set (R188). -/
theorem exec_dstClose {d : Dist} (hs : SMap.sorted s.dists = true) (ho : s.opens (pageReg .dst d.val 0x040) = true) :
    exec (.dstClose d) s = .next ((s.hostSet (pageReg .dst d.val 0x040) 1).setReason d.val rsHost true)
    ∧ (((s.hostSet (pageReg .dst d.val 0x040) 1).setReason d.val rsHost true).dist d.val).reasons.getLsbD rsHost = true :=
  ⟨congrArg Host.Outcome.next (State.guardWrite_opens _ _ _ ho), (State.reason_setReason _ _ (s.sorted_hostSet _ _ hs) (by decide)).2⟩

/-- `DST_OPEN` in a table in order: `HOST` is clear (R189). -/
theorem exec_dstOpen {d : Dist} (hs : SMap.sorted s.dists = true) (ho : s.opens (pageReg .dst d.val 0x040) = true) :
    exec (.dstOpen d) s = .next ((s.hostSet (pageReg .dst d.val 0x040) 0).setReason d.val rsHost false)
    ∧ (((s.hostSet (pageReg .dst d.val 0x040) 0).setReason d.val rsHost false).dist d.val).reasons.getLsbD rsHost = false :=
  ⟨congrArg Host.Outcome.next (State.guardWrite_opens _ _ _ ho), (State.reason_setReason _ _ (s.sorted_hostSet _ _ hs) (by decide)).2⟩

/-- `DST_REOPEN` of a district that has passed its reset, in a table in order: `FAULT` is clear (R191). -/
theorem exec_dstReopen {d : Dist} (hs : SMap.sorted s.dists = true) (ho : s.opens (pageReg .dst d.val 0x040) = true)
    (hnew : (s.dist d.val).renewed = true) (hpass : (s.dist d.val).testFail = false) :
    exec (.dstReopen d) s = .next (s.setReason d.val rsFault false)
    ∧ ((s.setReason d.val rsFault false).dist d.val).reasons.getLsbD rsFault = false := by
  refine ⟨congrArg Host.Outcome.next ((State.guardWrite_opens _ _ _ ho).trans (if_pos ?_)), (s.reason_setReason _ hs (by decide)).2⟩
  simp [hnew, hpass]

end

end Sys2Proof.Machine
end

section
/-! PROOFS. The words of core instructions (R235, R237): a word is its class, its operation and its fields, and the table of operations
reads both ways. -/

namespace Sys2Proof.Machine

/-! ## The layout of a word (R235) -/

theorem b2n_getLsbD (w : BitVec 64) (i : Nat) : b2n (w.getLsbD i) = w.toNat / 2 ^ i % 2 := by
  rw [BitVec.getLsbD, Nat.testBit_eq_decide_div_mod_eq, b2n]
  have := Nat.mod_two_eq_zero_or_one (w.toNat / 2 ^ i)
  split <;> simp_all

theorem b2n_lt (b : Bool) : b2n b < 2 := by cases b <;> decide

theorem b2n_injective {a b : Bool} (h : b2n a = b2n b) : a = b := by cases a <;> cases b <;> simp_all [b2n]

theorem toNat_extractLsb' (w : BitVec 64) (lo n : Nat) : (w.extractLsb' lo n).toNat = w.toNat / 2 ^ lo % 2 ^ n := by
  rw [BitVec.extractLsb'_toNat, Nat.shiftRight_eq_div_pow]

section
variable {c o : Nat} (f : Fields)

/-- A class of 4 bits, an operation of 6 and the fields fill the word without a carry. -/
theorem toNat_insWord (hc : c < 16) (ho : o < 64) : (insWord c o f).toNat = f.imm.toNat + 2 ^ 16 * f.sc.toNat + 2 ^ 24 * f.sb.toNat
    + 2 ^ 32 * f.sa.toNat + 2 ^ 40 * f.dst.toNat + 2 ^ 48 * b2n f.ud + 2 ^ 49 * b2n f.ib + 2 ^ 50 * b2n f.ua + 2 ^ 51 * f.typ.toNat
    + 2 ^ 54 * o + 2 ^ 60 * c := by
  rw [insWord, BitVec.toNat_ofNat, Nat.mod_eq_of_lt]
  have := b2n_lt f.ud
  have := b2n_lt f.ib
  have := b2n_lt f.ua
  omega

theorem wordClass_insWord (hc : c < 16) (ho : o < 64) : wordClass (insWord c o f) = c := by
  rw [wordClass, toNat_insWord f hc ho]
  have := b2n_lt f.ud
  have := b2n_lt f.ib
  have := b2n_lt f.ua
  omega

theorem wordOp_insWord (hc : c < 16) (ho : o < 64) : wordOp (insWord c o f) = o := by
  rw [wordOp, toNat_insWord f hc ho]
  have := b2n_lt f.ud
  have := b2n_lt f.ib
  have := b2n_lt f.ua
  omega

theorem wordFields_insWord (hc : c < 16) (ho : o < 64) : wordFields (insWord c o f) = f := by
  obtain ⟨typ, ua, ib, ud, dst, sa, sb, sc, imm⟩ := f
  have hw := toNat_insWord ⟨typ, ua, ib, ud, dst, sa, sb, sc, imm⟩ hc ho
  have := b2n_lt ud
  have := b2n_lt ib
  have := b2n_lt ua
  dsimp only at hw
  simp only [wordFields, Fields.mk.injEq]
  refine ⟨?_, b2n_injective ?_, b2n_injective ?_, b2n_injective ?_, ?_, ?_, ?_, ?_, ?_⟩
  any_goals apply BitVec.eq_of_toNat_eq
  all_goals
    simp only [toNat_extractLsb', b2n_getLsbD, hw]
    omega

end

/-- A word is made of its class, its operation and its fields, no bit dropped. -/
theorem insWord_wordFields (w : BitVec 64) : insWord (wordClass w) (wordOp w) (wordFields w) = w := by
  apply BitVec.eq_of_toNat_eq
  have hlt := w.isLt
  rw [toNat_insWord _ (by rw [wordClass]; omega) (by rw [wordOp]; omega)]
  simp only [wordFields, wordClass, wordOp, toNat_extractLsb', b2n_getLsbD]
  omega

/-! ## The table of operations (R237) -/

/-- The table of operations gives an instruction exactly where its class lists the operation. -/
theorem classOp_isSome (c o : Nat) (g : GRef) (f : Fields) : (classOp c o g f).isSome = knownOp c o := by
  unfold classOp
  split
  case h_11 =>
    unfold knownOp
    split <;> simp_all
  all_goals
    simp only [knownOp, intOp, fltOp, cvtOp, cmpOp, ctlOp, memOp, mtxOp, msgOp, wlkOp, spcOp]
    grind

/-- The command that the table gives for a class and an operation is coded by them. -/
theorem coreCode_of_classOp {c o : Nat} {g : GRef} {f : Fields} {i : Instr} (h : classOp c o g f = some i) : coreCode i = some (g, c, o, f) := by
  unfold classOp at h
  split at h
  case h_11 => cases h
  all_goals
    simp only [intOp, fltOp, cvtOp, cmpOp, ctlOp, memOp, mtxOp, msgOp, wlkOp, spcOp] at h
    split at h <;> cases h <;> rfl

/-- The table has every core instruction at its class and its operation. -/
theorem classOp_of_coreCode {c o : Nat} {g : GRef} {f : Fields} {i : Instr} (h : coreCode i = some (g, c, o, f)) : classOp c o g f = some i := by
  unfold coreCode at h
  split at h <;> cases h <;> rfl

/-- A class stands in 4 bits of the word and an operation in 6. -/
theorem code_bounds_of_known {c o : Nat} (h : knownOp c o = true) : c < 16 ∧ o < 64 := by
  unfold knownOp at h
  split at h <;> simp at h <;> omega

/-- Settles O58: the word's class, operation and fields are those encoded, and the table has the instruction at them. -/
theorem decodeEncode : Obligations.DecodeEncode := by
  intro i g w h
  unfold encodeCore at h
  split at h
  case h_2 => cases h
  case h_1 _ c o f hcode =>
    cases h
    have htable := classOp_of_coreCode hcode
    obtain ⟨hc, ho⟩ := code_bounds_of_known ((classOp_isSome c o g f).symm.trans (by rw [htable]; rfl))
    rwa [decodeCore, wordClass_insWord f hc ho, wordOp_insWord f hc ho, wordFields_insWord f hc ho]

/-- Settles O59: the table gives one instruction for a word's class, operation and fields, and these make up the word. -/
theorem encodeDecode : Obligations.EncodeDecode := by
  refine fun g w => ⟨classOp_isSome .., fun i h => ?_⟩
  rw [encodeCore, coreCode_of_classOp h, ← insWord_wordFields w]
  simp only [insWord_wordFields]

/-- Settles O39: each word evaluated. -/
theorem coreWordsDecode : Obligations.CoreWordsDecode :=
  fun _ => ⟨rfl, rfl, rfl, rfl, rfl, rfl, rfl, rfl, rfl, rfl, rfl, rfl⟩

end Sys2Proof.Machine
end

section
/-! PROOFS. The registers of a group and the state once it has run an instruction (R220, R230, R236, R237, R239). -/

namespace Sys2Proof.Machine

/-! ## Predicates (R220, R236, R237) -/

section
variable (g : Group)

theorem Group.pred_low_bits (p : Nat) : g.pred p = g.pred (p % 8) := by rw [Group.pred, Group.pred, Nat.mod_mod]

theorem Group.setPred_discards {p : Nat} (v : Mask) (h : p % 8 = 7) : g.setPred p v = g := if_pos h

theorem Group.pred_setPred_same {p : Nat} (v : Mask) (h : p % 8 ≠ 7) :
    (g.setPred p v).pred p = (g.pred p &&& ~~~g.active) ||| (v &&& g.active) := by
  simp only [Group.setPred, if_neg h]
  rw [Group.pred, if_neg h, SMap.find_put_same]

theorem Group.pred_setPred_other {p q : Nat} (v : Mask) (h : q % 8 ≠ p % 8) : (g.setPred p v).pred q = g.pred q := by
  unfold Group.setPred
  split
  · rfl
  · simp only [Group.pred, SMap.find_put_other _ _ h]

/-- Settles O48. -/
theorem predicateRegisters : Obligations.PredicateRegisters := fun g p _ v =>
  ⟨rfl, g.pred_low_bits p, g.setPred_discards v, g.pred_setPred_same v, g.pred_setPred_other v⟩

/-! ## Thread and uniform registers (R220, R236) -/

theorem Group.vreg_setV (t : Nat) {r x : Nat} (w : Word) (j : Nat) (hr : r < 256) (hx : x < 256) :
    (g.setV t r w).vreg j x = if j = t ∧ x = r ∧ x ≠ 255 then w else g.vreg j x := by
  unfold Group.setV
  split
  next h255 => rw [if_neg (by omega)]
  next h255 =>
    split
    next h =>
      obtain ⟨rfl, rfl, -⟩ := h
      rw [Group.vreg, if_neg h255, SMap.find_put_same]
    next h =>
      simp only [Group.vreg]
      split
      · rfl
      · rw [SMap.find_put_other _ _ (by omega)]

/-- Words put into a thread's registers from `r` on: 255 discards its own (R236). -/
theorem Group.vreg_setVs (t : Nat) {r x : Nat} (ws : List Word) (j : Nat) (hr : r + ws.length ≤ 256) (hx : x < 256) :
    (g.setVs t r ws).vreg j x = if j = t ∧ r ≤ x ∧ x < r + ws.length ∧ x ≠ 255 then ws.getD (x - r) 0 else g.vreg j x := by
  induction ws generalizing g r with
  | nil => rw [Group.setVs, if_neg (by simp only [List.length_nil]; omega)]
  | cons w ws ih =>
    simp only [List.length_cons] at hr ⊢
    rw [Group.setVs, ih _ (by omega), g.vreg_setV _ _ _ (by omega) hx]
    by_cases h : j = t ∧ r ≤ x ∧ x < r + (ws.length + 1) ∧ x ≠ 255
    · obtain ⟨hj, hrx, hlen, h255⟩ := h
      obtain rfl | hlt := Nat.eq_or_lt_of_le hrx
      · rw [if_neg (by omega), if_pos ⟨hj, rfl, h255⟩, if_pos ⟨hj, hrx, hlen, h255⟩, Nat.sub_self, List.getD_cons_zero]
      · obtain ⟨k, rfl⟩ : ∃ k, x = r + 1 + k := ⟨x - (r + 1), by omega⟩
        rw [if_pos ⟨hj, hlt, by omega, h255⟩, if_pos ⟨hj, hrx, hlen, h255⟩, show r + 1 + k - r = k + 1 by omega, Nat.add_sub_cancel_left,
          List.getD_cons_succ]
    · rw [if_neg (by omega), if_neg (by omega), if_neg h]

/-- Words put into the registers of several threads: each of these threads has its own, the others none. -/
theorem Group.vreg_foldl_setVs (ts : List Nat) (val : Nat → List Word) {r x : Nat} (j : Nat) (hr : ∀ t, r + (val t).length ≤ 256)
    (hx : x < 256) : (ts.foldl (fun h t => h.setVs t r (val t)) g).vreg j x
      = if j ∈ ts ∧ r ≤ x ∧ x < r + (val j).length ∧ x ≠ 255 then (val j).getD (x - r) 0 else g.vreg j x := by
  induction ts generalizing g with
  | nil => simp
  | cons t ts ih =>
    rw [List.foldl_cons, ih, g.vreg_setVs _ _ _ (hr t) hx]
    by_cases hj : j = t
    · subst hj
      simp only [List.mem_cons, true_or, true_and]
      split <;> simp_all
    · simp [hj]

@[simp] theorem Group.ureg_setU_same (r : Nat) (w : Word) : (g.setU r w).ureg r = w := by
  simp only [Group.ureg, Group.setU, SMap.find_put_same]

theorem Group.ureg_setU_other {r x : Nat} (w : Word) (h : x % 64 ≠ r % 64) : (g.setU r w).ureg x = g.ureg x := by
  simp only [Group.ureg, Group.setU, SMap.find_put_other _ _ h]

/-- Uniform registers that none of the words put goes to. -/
theorem Group.ureg_setUs_outside {r x : Nat} (ws : List Word) (h : ∀ y < ws.length, (r + y) % 64 ≠ x % 64) :
    (g.setUs r ws).ureg x = g.ureg x := by
  induction ws generalizing g r with
  | nil => rfl
  | cons w ws ih =>
    simp only [List.length_cons] at h
    have h0 := h 0 (by omega)
    rw [Group.setUs, ih _ fun y hy => by have := h (y + 1) (by omega); rwa [show r + 1 + y = r + (y + 1) by omega]]
    exact g.ureg_setU_other w (by simpa using h0.symm)

/-- Up to 64 words put into uniform registers read back. -/
theorem Group.ureg_setUs_inside {r y : Nat} (ws : List Word) (hlen : ws.length ≤ 64) (hy : y < ws.length) :
    (g.setUs r ws).ureg (r + y) = ws.getD y 0 := by
  induction ws generalizing g r y with
  | nil => simp at hy
  | cons w ws ih =>
    simp only [List.length_cons] at hlen hy
    cases y with
    | zero =>
      rw [Group.setUs, Group.ureg_setUs_outside _ _ (fun y hy => by omega)]
      simp
    | succ y =>
      rw [Group.setUs, show r + (y + 1) = r + 1 + y by omega, ih _ (by omega) (by omega), List.getD_cons_succ]

end

/-! ## What leaves all of a group but its registers -/

/-- Two groups that agree on everything but their thread and uniform registers. -/
def Group.RegsOnly (g h : Group) : Prop := { h with vregs := g.vregs, uregs := g.uregs } = g

namespace Group.RegsOnly

theorem refl (g : Group) : g.RegsOnly g := rfl

theorem trans {g h k : Group} (hg : g.RegsOnly h) (hh : h.RegsOnly k) : g.RegsOnly k := by
  rw [Group.RegsOnly] at hg hh ⊢
  rw [← hg, ← hh]

theorem pc {g h : Group} (hg : g.RegsOnly h) : h.pc = g.pc := by
  have hpc := congrArg Group.pc hg
  exact hpc

theorem setV (g : Group) (t r : Nat) (w : Word) : g.RegsOnly (g.setV t r w) := by
  unfold Group.setV
  split
  · rfl
  · rfl

theorem setVs (g : Group) (t r : Nat) (ws : List Word) : g.RegsOnly (g.setVs t r ws) := by
  induction ws generalizing g r with
  | nil => rfl
  | cons w ws ih => exact (setV g t r w).trans (ih _ _)

theorem setUs (g : Group) (r : Nat) (ws : List Word) : g.RegsOnly (g.setUs r ws) := by
  induction ws generalizing g r with
  | nil => rfl
  | cons w ws ih => exact RegsOnly.trans (h := g.setU r w) rfl (ih _ _)

theorem foldl {α : Type} (l : List α) (f : Group → α → Group) (h : ∀ (k : Group) a, k.RegsOnly (f k a)) (g : Group) :
    g.RegsOnly (l.foldl f g) := by
  induction l generalizing g with
  | nil => rfl
  | cons a l ih => exact (h g a).trans (ih _)

theorem putLanes (g : Group) (f : Fields) (val : Nat → List Word) : g.RegsOnly (g.putLanes f val) := by
  unfold Group.putLanes
  split
  · split
    · rfl
    · exact setUs ..
  · exact foldl _ _ (fun k t => setVs k t _ _) g

end Group.RegsOnly

section
variable (g : Group)

/-- Thread registers are the same in groups of one launch with the same ones put. -/
theorem Group.vreg_congr {g h : Group} (hv : h.vregs = g.vregs) (hs : h.seed = g.seed) (j x : Nat) : h.vreg j x = g.vreg j x := by
  simp [Group.vreg, hv, hs]

theorem Group.ureg_congr {g h : Group} (hu : h.uregs = g.uregs) (hs : h.seed = g.seed) (x : Nat) : h.ureg x = g.ureg x := by
  simp [Group.ureg, hu, hs]

@[simp] theorem Group.vreg_setU (r : Nat) (w : Word) (j x : Nat) : (g.setU r w).vreg j x = g.vreg j x := rfl

@[simp] theorem Group.vreg_setUs (r : Nat) (ws : List Word) (j x : Nat) : (g.setUs r ws).vreg j x = g.vreg j x := by
  induction ws generalizing g r with
  | nil => rfl
  | cons w ws ih => exact (ih _ _).trans (Group.vreg_setU ..)

@[simp] theorem Group.ureg_setV (t r : Nat) (w : Word) (x : Nat) : (g.setV t r w).ureg x = g.ureg x := by
  unfold Group.setV
  split <;> rfl

@[simp] theorem Group.ureg_setVs (t r : Nat) (ws : List Word) (x : Nat) : (g.setVs t r ws).ureg x = g.ureg x := by
  induction ws generalizing g r with
  | nil => rfl
  | cons w ws ih => exact (ih _ _).trans (Group.ureg_setV ..)

theorem Group.ureg_foldl_setVs {α : Type} (l : List α) (t r : α → Nat) (ws : α → List Word) (x : Nat) :
    (l.foldl (fun h a => h.setVs (t a) (r a) (ws a)) g).ureg x = g.ureg x := by
  induction l generalizing g with
  | nil => rfl
  | cons a l ih => exact (ih _).trans (Group.ureg_setVs ..)

theorem Group.threads_of_idle (h : g.active = 0) : g.threads = [] := by simp [Group.threads, maskBits, h]

/-- With no thread active nothing is written (R239). -/
theorem Group.putLanes_of_idle (f : Fields) (val : Nat → List Word) (h : g.active = 0) : g.putLanes f val = g := by
  simp [Group.putLanes, h, g.threads_of_idle h]

@[simp] theorem Group.vreg_putLanes_ud {f : Fields} (val : Nat → List Word) (hu : f.ud = true) (j x : Nat) :
    (g.putLanes f val).vreg j x = g.vreg j x := by
  rw [Group.putLanes, if_pos hu]
  split <;> simp

theorem Group.vreg_putLanes {f : Fields} (val : Nat → List Word) {x : Nat} (j : Nat) (hu : f.ud = false)
    (hval : ∀ t, f.dst.toNat + (val t).length ≤ 256) (hx : x < 256) : (g.putLanes f val).vreg j x
      = if j ∈ g.threads ∧ f.dst.toNat ≤ x ∧ x < f.dst.toNat + (val j).length ∧ x ≠ 255 then (val j).getD (x - f.dst.toNat) 0
        else g.vreg j x := by
  rw [Group.putLanes, if_neg (by simp [hu]), g.vreg_foldl_setVs _ _ _ hval hx]

theorem Group.ureg_putLanes_lanes {f : Fields} (val : Nat → List Word) (hu : f.ud = false) (x : Nat) :
    (g.putLanes f val).ureg x = g.ureg x := by
  rw [Group.putLanes, if_neg (by simp [hu])]
  exact g.ureg_foldl_setVs _ _ _ _ _

theorem Group.putLanes_ud {f : Fields} (val : Nat → List Word) (hu : f.ud = true) (hact : g.active ≠ 0) :
    g.putLanes f val = g.setUs f.dst.toNat (val g.lowest) := by rw [Group.putLanes, if_pos hu, if_neg hact]

end

/-! ## Groups in their slots -/

section
variable (s : State)

@[simp] theorem State.group_putGroup_same (d k : Nat) (g : Group) : (s.putGroup d k g).group d k = some g := by
  simp [State.group, State.putGroup, State.updCore, SMap.find_put_same]

theorem State.group_putGroup_other {d k e n : Nat} (g : Group) (h : e ≠ d ∨ n ≠ k) : (s.putGroup d k g).group e n = s.group e n := by
  by_cases he : e = d
  · subst he
    have hn : n ≠ k := by simpa using h
    simp [State.group, State.putGroup, State.updCore, SMap.find_put_other _ _ hn]
  · simp [State.group, State.putGroup, State.updCore, State.dist_updDist_other _ _ _ _ he]

/-- A district changed in its core's groups alone. -/
theorem State.dist_putGroup (d k e : Nat) (g : Group) :
    { (s.putGroup d k g).dist e with core := { ((s.putGroup d k g).dist e).core with groups := (s.dist e).core.groups } } = s.dist e := by
  by_cases he : e = d
  · subst he
    simp [State.putGroup, State.updCore]
  · simp [State.putGroup, State.updCore, State.dist_updDist_other _ _ _ _ he]

theorem State.group_congr {s t : State} (h : t.dists = s.dists) (d k : Nat) : t.group d k = s.group d k := by
  rw [State.group, State.group, State.dist_congr h]

/-! ## The state once a group has run its instruction -/

theorem State.ran_eq (r : GRef) (g : Group) : s.ran r g
    = (s.putGroup r.dist.val r.slot.val { g with ir := none, parked := none, replay := false, settled := false }).count r.dist.val 4 1 := rfl

theorem State.group_ran_same (r : GRef) (g : Group) :
    (s.ran r g).group r.dist.val r.slot.val = some { g with ir := none, parked := none, replay := false, settled := false } := by
  rw [s.ran_eq, State.group_congr (State.count_dists ..), State.group_putGroup_same]

theorem State.group_ran_other {r : GRef} (g : Group) {e k : Nat} (h : e ≠ r.dist.val ∨ k ≠ r.slot.val) :
    (s.ran r g).group e k = s.group e k := by
  rw [s.ran_eq, State.group_congr (State.count_dists ..), State.group_putGroup_other _ _ h]

theorem State.dist_ran (r : GRef) (g : Group) (e : Nat) :
    { (s.ran r g).dist e with core := { ((s.ran r g).dist e).core with groups := (s.dist e).core.groups } } = s.dist e := by
  rw [s.ran_eq, State.dist_congr (State.count_dists ..)]
  exact s.dist_putGroup ..

theorem State.live_ran (r : GRef) (g : Group) (k : Nat) : SMap.get 0 (s.ran r g).live k
    = if k = r.dist.val * 256 + 4 then SMap.get 0 s.live k + 1 else SMap.get 0 s.live k := by
  rw [s.ran_eq]
  split
  next h => rw [h, State.live_count_same]; rfl
  next h => rw [State.live_count_other _ _ _ _ _ h]; rfl

theorem State.coreFrame_ran (r : GRef) (g : Group) : s.coreFrame (s.ran r g) := by
  simp only [State.coreFrame, State.ran_eq, State.count, State.putGroup, State.updCore, State.updDist, State.setDist]

theorem State.ran_regs (r : GRef) (g : Group) : (s.ran r g).regs = s.regs := rfl

/-- Settles O47: the group is put back and the instruction counted. -/
theorem groupInstructionsFrame : Obligations.GroupInstructionsFrame := fun r s g =>
  ⟨s.group_ran_same r g, fun _ _ => s.group_ran_other g, s.dist_ran r g, s.live_ran r g, s.coreFrame_ran r g, s.ran_regs r g⟩

/-! ## Lane results -/

/-- With the `RF` arm clear an instruction retires with its group but for the marks of the register words it wrote (R504). -/
theorem State.retireIns_unarmed (r : GRef) (g : Group) (keys : List Nat) (h : s.rd (Fld.dstInjectRf r.dist.val) = 0) :
    ∃ e, s.retireIns r.dist.val r.slot.val g keys = s.ran r { g with rfErr := e } := by
  cases keys with
  | nil => exact ⟨g.rfErr, rfl⟩
  | cons k ks => exact ⟨g.rfErr.filter (fun e => decide (e.1 ∉ k :: ks)), by simp only [State.retireIns, State.ran, State.wroteRegs, h, if_true]⟩

/-- With no thread active a lane instruction only goes on (R239). -/
theorem State.laneNext_of_idle (r : GRef) {g : Group} (m : Form) (f : Fields) (val : Nat → List Word) (h : g.active = 0) :
    s.laneNext r g m f val = s.ran r g.next := by
  rw [State.laneNext, g.putLanes_of_idle f val h, Group.keys, g.threads_of_idle h]
  rfl

end

/-- Settles O46: the words are in the registers of `Group.putLanes`, the rest of the state is that after any instruction of a group. -/
theorem laneResults : Obligations.LaneResults := by
  intro r f s g m val hrf hval hlow
  obtain ⟨e, he⟩ := s.retireIns_unarmed r (g.putLanes f val).next (g.keys (m.writes f)) hrf
  have hkept : g.RegsOnly (g.putLanes f val) := .putLanes ..
  rw [State.laneNext, he]
  refine ⟨⟨_, s.group_ran_same .., ?pc, rfl, rfl, ?written, ?kept, ?uwritten, ?ukept, ?rest⟩, fun _ _ => s.group_ran_other _, s.dist_ran r _,
    s.live_ran r _, s.coreFrame_ran r _, s.ran_regs r _⟩
  case pc => exact congrArg (· + 8) hkept.pc
  case written =>
    intro j x hu hj hx h255
    refine (g.vreg_putLanes val j hu hval (by omega)).trans ?_
    rw [if_pos ⟨hj, by omega, by omega, by omega⟩, Nat.add_sub_cancel_left]
  case kept =>
    intro j x hx h
    cases hu : f.ud with
    | true => exact g.vreg_putLanes_ud val hu j x
    | false =>
      refine (g.vreg_putLanes val j hu hval hx).trans (if_neg ?_)
      rintro ⟨hj, hle, hlt, h255⟩
      rcases h with h | h | h | h | h
      · simp [hu] at h
      · exact h hj
      all_goals omega
  case uwritten =>
    intro x hu hact hx
    change (g.putLanes f val).ureg _ = _
    rw [g.putLanes_ud val hu hact, g.ureg_setUs_inside _ hlow hx]
  case ukept =>
    intro x h
    change (g.putLanes f val).ureg x = _
    by_cases hu : f.ud = true
    · by_cases hact : g.active = 0
      · rw [g.putLanes_of_idle f val hact]
      · rw [g.putLanes_ud val hu hact]
        refine g.ureg_setUs_outside _ (h.resolve_left (by simp [hu]) |>.resolve_left hact)
    · exact g.ureg_putLanes_lanes val (by simpa using hu) x
  case rest =>
    calc _ = { { (g.putLanes f val) with vregs := g.vregs, uregs := g.uregs } with
              rfErr := g.rfErr, pc := g.pc, ir := g.ir, parked := g.parked, replay := g.replay, settled := g.settled } := rfl
      _ = g := by rw [hkept]

end Sys2Proof.Machine
end

section
/-! PROOFS. Lane, special and control instructions at the front of their group (R225, R234, R237 to R245, R514). -/

namespace Sys2Proof.Machine

section
variable {s : State} {r : GRef} {cls op : Nat} {f : Fields} {g : Group}

/-! ## What an instruction at the front comes to -/

/-- A lane instruction that does not wait comes to its results; with no thread active it only goes on (R239). -/
theorem State.issue_lane {body : State → Group → Act} {m : Form} {val : Nat → List Word} (h : s.fronts r cls op f g)
    (hlane : laneOnly cls = true) (hw : s.opWaits g cls op f = false) (hb : body s g = laneDone s g m f val) :
    s.issue r cls op f body = s.laneNext r g m f val := by
  by_cases hact : g.active = 0
  · rw [State.issue_idle body h ⟨hlane, hact⟩, s.laneNext_of_idle r m f val hact]
    rfl
  · rw [State.issue_fronts body h (fun hn => hact hn.2) hw, hb]
    rfl

/-- An instruction that acts for threads alone, with some active, comes to what its body says. -/
theorem State.issue_active {body : State → Group → Act} {a : Act} (h : s.fronts r cls op f g) (hact : g.active ≠ 0)
    (hw : s.opWaits g cls op f = false) (hb : body s g = a) : s.issue r cls op f body = a.apply r.dist.val r.slot.val g := by
  rw [State.issue_fronts body h (fun hn => hact hn.2) hw, hb]

/-- An instruction that acts on its group whatever the mask (R239). -/
theorem State.issue_group {body : State → Group → Act} {a : Act} (h : s.fronts r cls op f g) (hlane : laneOnly cls = false)
    (hw : s.opWaits g cls op f = false) (hb : body s g = a) : s.issue r cls op f body = a.apply r.dist.val r.slot.val g := by
  rw [State.issue_fronts body h (fun hn => by simp [hlane] at hn) hw, hb]

/-- With no thread active an instruction that acts for threads alone only goes on (R239). -/
theorem State.issue_none_active {body : State → Group → Act} (hlane : laneOnly cls = true) (hact : g.active = 0)
    (h : s.fronts r cls op f g) : Host.Outcome.next (φ := Fault) (ρ := Refusal) (s.issue r cls op f body) = .next (s.ran r g.next) :=
  congrArg _ (State.issue_idle body h ⟨hlane, hact⟩)

/-! ## Classes INT and SPC -/

theorem State.intIns_fronts (val : Group → Nat → Word) (h : s.fronts r 0 op f g) :
    s.intIns r f op val = .next (s.laneNext r g (formInt op) f (fun j => [val g j])) :=
  congrArg _ (State.issue_lane h rfl rfl rfl)

theorem State.spcIns_fronts (val : Group → Nat → Word) (hw : s.opWaits g 9 op f = false) (h : s.fronts r 9 op f g) :
    s.spcIns r f op val = .next (s.laneNext r g (formSpc op) f (fun j => [val g j])) :=
  congrArg _ (State.issue_lane h rfl hw rfl)

theorem State.pairIns_fronts (val : Group → Mask) (hw : s.opWaits g 9 op f = false) (h : s.fronts r 9 op f g) (hact : g.active ≠ 0) :
    s.pairIns r f op val = .next (s.ran r (g.setUs f.dst.toNat (maskWords (val g))).next) :=
  congrArg _ (State.issue_active h hact hw rfl)

/-! ## Class CTL -/

section
variable {body : State → Group → Act} (h : s.fronts r 4 op f g) (hw : s.opWaits g 4 op f = false)
include h hw

/-- A control instruction that does not wait and is done. -/
theorem State.ctlIns_done {t : State} {k : Group} (hb : body s g = .done t k []) : s.ctlIns r f op body = .next (t.ran r k) :=
  congrArg _ (State.issue_group h rfl hw hb)

/-- A control instruction that does not wait and traps. -/
theorem State.ctlIns_trap {t : State} {c : Nat} {w : BitVec 16} {det : List Byte} (hb : body s g = .trap t c w det) :
    s.ctlIns r f op body = .next (t.raiseHere r.dist.val r.slot.val g c w det) :=
  congrArg _ (State.issue_group h rfl hw hb)

end

end

/-- Settles O1: every integer instruction is a lane instruction that never waits. -/
theorem integerInstructionsComplete : Obligations.IntegerInstructionsComplete := by
  intro r f s g
  and_intros
  all_goals exact State.intIns_fronts _

/-- Settles O5. -/
theorem specialInstructionsComplete : Obligations.SpecialInstructionsComplete := by
  intro r f s g
  refine ⟨State.spcIns_fronts _ rfl, State.spcIns_fronts _ rfl, State.spcIns_fronts _ rfl, fun h hact => ?_, State.pairIns_fronts _ rfl,
    State.pairIns_fronts _ rfl⟩
  exact congrArg _ (State.issue_active h hact rfl rfl)

/-- Settles O13: each is an instruction of a class that acts for threads alone. -/
theorem emptyMaskIsNoOp : Obligations.EmptyMaskIsNoOp := by
  intro r f s g hact
  and_intros
  all_goals exact State.issue_none_active rfl hact

/-- Settles O6: the branches that are taken on a condition are `Group.branch`, and the waits are passed where their condition holds. -/
theorem controlInstructionsComplete : Obligations.ControlInstructionsComplete := by
  intro r f s g
  refine ⟨fun h => State.ctlIns_done h rfl rfl, fun h => State.ctlIns_done h rfl rfl, fun h => State.ctlIns_done h rfl rfl,
    fun h => State.ctlIns_done h rfl rfl, fun h => State.ctlIns_done h rfl rfl, fun h ht => State.ctlIns_done h rfl ?callr,
    fun h ht => State.ctlIns_done h rfl ?ret, fun h hall hdone => State.ctlIns_done h ?held ?barAll,
    fun h hdone => State.ctlIns_done h hdone rfl, fun h hc => State.ctlIns_done h (decide_eq_false (Nat.not_lt.mpr hc)) rfl,
    fun h => State.ctlIns_done h rfl rfl, fun h => State.ctlIns_trap h rfl rfl⟩
  case callr | ret => exact if_neg (by simp [ht])
  case held => simp [State.opWaits, hdone]
  case barAll => exact if_neg (not_not.mpr hall)

/-- Settles O7. -/
theorem maskInstructionsComplete : Obligations.MaskInstructionsComplete := by
  intro r f s g
  refine ⟨fun h hroom => State.ctlIns_done h rfl (if_neg (Nat.not_le.mpr hroom)), fun e rest h hst => State.ctlIns_done h rfl ?_,
    fun h hn => State.ctlIns_done h rfl (if_neg (Nat.not_le.mpr hn)), fun e rest h hst => State.ctlIns_done h rfl ?_,
    fun e rest h hst => State.ctlIns_done h rfl ?_⟩
  all_goals simp only [hst]

end Sys2Proof.Machine
end

section
/-! PROOFS. Memory, message, slot and matrix instructions, `EXIT`, and the engines of a core (R226, R233, R237, R243, R246 to R260, R321,
R322). -/

namespace Sys2Proof.Machine

section
variable {s : State} {r : GRef} {op : Nat} {f : Fields} {g : Group}

/-! ## Local store read and guarded -/

/-- Local store read where no word of it is in error. -/
theorem State.readLocal_good (d : Nat) {touch : Nat × Nat → Bool} (h : g.badLocal touch = []) : s.readLocal d g touch = (s, some g) := by
  simp [State.readLocal, h]

/-- No thread's access fails a check that all of them pass. -/
theorem Group.none_outside {p : Nat → Bool} (h : ∀ j ∈ g.threads, p j = true) : g.threads.any (fun j => !p j) = false := by
  simpa using h

theorem Group.none_waits {p : Nat → Bool} (h : ∀ j ∈ g.threads, p j = false) : g.threads.any p = false := by simpa using h

/-! ## Class MEM -/

section
variable (hact : g.active ≠ 0)
include hact

/-- `LD.L` within the allocation, of bytes that nothing outstanding writes and that are free of error (R246, R256). -/
theorem exec_ldL (h : s.fronts r 5 0x00 f g)
    (hin : ∀ j ∈ g.threads, g.inside (g.localAt f j) (memBytes f.typ.toNat) (memBytes f.typ.toNat) = true)
    (hfree : ∀ j ∈ g.threads, g.readWaits ((g.localAt f j).toNat, memBytes f.typ.toNat) = false)
    (hgood : g.badLocal (overlaps (g.threads.map (fun j => ((g.localAt f j).toNat, memBytes f.typ.toNat)))) = []) :
    exec (.ldL r f) s = .next (s.laneNext r g (formLoad f 1) f
      (fun j => loadWords (g.lbytes (g.localAt f j).toNat (memBytes f.typ.toNat)))) := by
  refine congrArg _ (State.issue_active (a := laneDone s g (formLoad f 1) f _) h hact ?_ ?_)
  · simp [State.opWaits, Group.none_waits hfree]
  · simp only [Group.none_outside hin, Bool.false_eq_true, if_false, State.readLocal_good _ hgood]

/-- `ST.L` within the allocation, of bytes that nothing outstanding reads or writes (R246, R256). -/
theorem exec_stL {t : State} {k : Group} (h : s.fronts r 5 0x01 f g)
    (hin : ∀ j ∈ g.threads, g.inside (g.localAt f j) (memBytes f.typ.toNat) (memBytes f.typ.toNat) = true)
    (hfree : ∀ j ∈ g.threads, g.writeWaits ((g.localAt f j).toNat, memBytes f.typ.toNat) = false)
    (hput : g.threads.foldl (fun p j => p.1.writeLocal r.dist.val p.2 (g.localAt f j).toNat (g.storeBytes f j)) (s, g) = (t, k)) :
    exec (.stL r f) s = .next (t.ran r k.next) := by
  refine congrArg _ (State.issue_active (a := .done t k.next []) h hact ?_ ?_)
  · simp [State.opWaits, Group.none_waits hfree]
  · simp only [Group.none_outside hin, Bool.false_eq_true, if_false, hput]

/-- `LD.S` of accesses that the checks let pass or deny, and whose data is good (R247). -/
theorem exec_ldS {t u : State} {no : List Nat} {l : List (Nat × List Byte)} (h : s.fronts r 5 0x02 f g)
    (hcheck : s.checkThreads r.dist.val r.slot.val g (memBytes f.typ.toNat)
      (g.threads.map (fun j => (j, g.sceneAt f j (memBytes f.typ.toNat) f.imm.toInt))) = (t, some no))
    (hload : t.loadThreads r.dist.val g.bid (memBytes f.typ.toNat) no
      (g.threads.map (fun j => (j, g.sceneAt f j (memBytes f.typ.toNat) f.imm.toInt))) = (u, some l)) :
    exec (.ldS r f) s = .next (u.laneNext r (g.denied no) (formLoad f 2) f (fun j => loadWords (threadBytes l j))) := by
  refine congrArg _ (State.issue_active (a := laneDone u (g.denied no) (formLoad f 2) f _) h hact rfl ?_)
  simp only [hcheck, hload]

/-- `FILL.L` into local store that is free, with room in its wait counter, of accesses that the checks let pass or deny (R248, R251, R256). -/
theorem exec_fillL {t : State} {no : List Nat} (h : s.fronts r 5 0x03 f g)
    (hin : ∀ j ∈ g.threads, g.inside ((g.srcB f j).toNat : Nat) f.imm.toNat 64 = true) (hctr : g.counter (f.dst.toNat % 4) < 63)
    (hfree : ∀ j ∈ g.threads, g.writeWaits ((g.srcB f j).toNat, f.imm.toNat) = false)
    (hcheck : s.checkThreads r.dist.val r.slot.val g f.imm.toNat (g.threads.map (fun j => (j, g.sceneAt f j 64 0))) = (t, some no)) :
    exec (.fillL r f) s = .next (t.ran r { ((g.denied no).bumpCtr (f.dst.toNat % 4) true).next with
      fills := g.fills ++ [{ copies := g.threads.map (fun j => (g.sceneAt f j 64 0, (g.srcB f j).toNat, decide (j ∈ no))),
                             size := f.imm.toNat, ctr := f.dst.toNat % 4 }] }) := by
  refine congrArg _ (State.issue_active (a := .done t _ []) h hact ?_ ?_)
  · simp only [State.opWaits, Group.fillTo, Group.none_waits hfree, decide_eq_false (Nat.not_le.mpr hctr), Bool.or_self, Bool.and_false]
  · simp only [Group.fillTo, Group.none_outside hin, Bool.false_eq_true, if_false, hcheck, List.map_map, Function.comp_def]

/-- `LD.H` of addresses that translate (R249). -/
theorem exec_ldH {t : State} {l : List (Nat × List Byte)} (h : s.fronts r 5 0x04 f g)
    (hload : s.hostLoads r.dist.val r.slot.val g (memBytes f.typ.toNat) (g.threads.map (fun j => (j, g.hostAt f j (memBytes f.typ.toNat))))
      = (t, some l)) :
    exec (.ldH r f) s = .next (t.laneNext r g (formLoad f 2) f (fun j => loadWords (threadBytes l j))) := by
  refine congrArg _ (State.issue_active (a := laneDone t g (formLoad f 2) f _) h hact rfl ?_)
  simp only [hload]

/-- `ST.H` to addresses that translate, while the engine may write (R249, R427). -/
theorem exec_stH {t : State} {l : List (List (Nat × Nat) × List Byte)} (h : s.fronts r 5 0x05 f g) (hmay : s.mayWrite g.bid = true)
    (hpieces : s.hostPieces r.dist.val r.slot.val g f (memBytes f.typ.toNat)
      (g.threads.map (fun j => (j, g.hostAt f j (memBytes f.typ.toNat)))) = (t, some l)) :
    exec (.stH r f) s = .next ((l.foldl (fun v p => v.hostWriteParts p.1 p.2 (.store g.bid g.seed r.dist.val)) t).ran r g.next) := by
  refine congrArg _ (State.issue_active (a := .done _ g.next []) h hact (by simp [State.opWaits, hmay]) ?_)
  simp only [hpieces]

/-! ## Classes MSG and WLK -/

/-- `SEND` never waits for its messages (R258). -/
theorem exec_send (h : s.fronts r 7 0x00 f g) : exec (.send r f) s
    = .next ((s.sendAll r.dist.val g f).ran r { g.next with sends := g.sends ++ g.threads.map (fun j => (j, g.statusReg f j)) }) :=
  congrArg _ (State.issue_active h hact rfl rfl)

/-- `RECV` once the registers it may write wait for no status (R226, R260). -/
theorem exec_recv (h : s.fronts r 7 0x01 f g) (hfree : g.recvWaits f = false) : exec (.recv r f) s
    = .next ((s.updCore r.dist.val (fun c => { c with
        inbox := (takeInbox g.bid f.imm g.threads.length (s.dist r.dist.val).core.inbox).2 })).retireIns r.dist.val r.slot.val
        (g.recvAll f (takeInbox g.bid f.imm g.threads.length (s.dist r.dist.val).core.inbox).1).next
        (g.recvKeys f (takeInbox g.bid f.imm g.threads.length (s.dist r.dist.val).core.inbox).1)) :=
  congrArg _ (State.issue_active h hact hfree rfl)

/-- `SLOT.LOCK` of slots whose interlocks can all be had (R321, R322). -/
theorem exec_slotLock {t : State} (h : s.fronts r 8 0x00 f g) (hall : s.lockAll g = (t, true)) :
    exec (.slotLock r f) s = .next (t.ran r g.next) := by
  refine congrArg _ (State.issue_active (a := .done t g.next []) h hact (by simp [State.opWaits, hall]) ?_)
  simp only [hall]

/-- `SLOT.LD` of slots whose stamps all stand (R321, R377). -/
theorem exec_slotLd (h : s.fronts r 8 0x01 f g) (hread : ∀ j ∈ g.threads, (s.slotRead g f j).isSome = true) : exec (.slotLd r f) s
    = .next ({ s.countSlotReads r.dist.val g f with freeCtr := (s.countSlotReads r.dist.val g f).freeCtr + 1 }.laneNext r g (formWlk 1 f) f
        (fun j => (s.slotRead g f j).getD [])) :=
  congrArg _ (State.issue_active h hact (Group.none_waits fun j hj => by rw [← Option.not_isSome, hread j hj]; rfl) rfl)

/-- `SLOT.ST` of words that may all be written now (R321, R427). -/
theorem exec_slotSt {t : State} (h : s.fronts r 8 0x02 f g) (hput : s.slotWrites g f g.threads = some t) :
    exec (.slotSt r f) s = .next ((t.slotTrips r.dist.val g).ran r g.next) := by
  refine congrArg _ (State.issue_active (a := .done _ g.next []) h hact (by simp [State.opWaits, hput]) ?_)
  simp only [hput]

end

/-- The interlocks that the active threads of a group hold by their slots (R321). -/
def State.holdsLock (s : State) (g : Group) (l : SlotLock) : Bool :=
  g.threads.any (fun j => match s.slotOf g j with
    | some (_, w) => decide (l.bid = w.bid) && decide (l.slot = w.ray.slot.toNat) && decide (l.idx = w.idx)
    | none => false)

theorem State.holdsLock_iff {l : SlotLock} : s.holdsLock g l = true
    ↔ ∃ j ∈ g.threads, ∃ x w, s.slotOf g j = some (x, w) ∧ l.bid = w.bid ∧ l.slot = w.ray.slot.toNat ∧ l.idx = w.idx := by
  simp only [State.holdsLock, List.any_eq_true]
  refine exists_congr fun j => and_congr_right fun _ => ?_
  split
  next x w h => simp [h, and_assoc]
  next h => simp [h]

/-- `SLOT.UNLOCK` lets go of the interlocks that its threads hold, and nothing else changes but the group (R321). -/
theorem exec_slotUnlock (h : s.fronts r 8 0x03 f g) (hact : g.active ≠ 0) :
    exec (.slotUnlock r f) s = .next (State.ran { s with locks := s.locks.filter (fun l => !s.holdsLock g l) } r g.next) :=
  congrArg _ (State.issue_active h hact rfl rfl)

end

/-- Settles O8, one lemma for each instruction. -/
theorem memoryInstructionsComplete : Obligations.MemoryInstructionsComplete := fun _ _ _ _ hact =>
  ⟨exec_ldL hact, fun _ _ => exec_stL hact, fun _ _ _ _ => exec_ldS hact, fun _ _ => exec_fillL hact, fun _ _ => exec_ldH hact,
    fun _ _ => exec_stH hact⟩

/-- Settles O9, one lemma for each instruction. -/
theorem messageAndSlotInstructionsComplete : Obligations.MessageAndSlotInstructionsComplete := by
  intro r f s g hact
  refine ⟨exec_send hact, exec_recv hact, fun _ => exec_slotLock hact, exec_slotLd hact, fun _ => exec_slotSt hact,
    fun h => ⟨_, exec_slotUnlock h hact, rfl, fun l => ?_⟩⟩
  rw [← State.holdsLock_iff, List.mem_filter]
  simp

/-! ## Class MTX -/

section
variable {s : State} {r : GRef} {f : Fields} {g : Group} {op : Nat}

/-- A matrix instruction with no thread active does nothing (R257). -/
theorem mtxIssue_idle (d : Nat) (hact : g.active = 0) : mtxIssue s d g f op = .done s g.next [] := if_pos hact

theorem Group.mtxWaits_idle (hact : g.active = 0) : g.mtxWaits op f = false := by simp [Group.mtxWaits, hact]

section
variable {off : Nat} {raw : List Byte} (hin : g.inside (localOff (g.srcA f g.lowest) f.imm) 64 1 = true)
  (hoff : off = (localOff (g.srcA f g.lowest) f.imm).toNat) (hraw : raw = g.lbytes off 64)
include hoff hraw

/-- A descriptor that nothing outstanding writes, with room for one more, and ranges that no outstanding one shares (R251, R256). -/
theorem Group.mtxWaits_free (hdesc : g.readWaits (off, 64) = false) (hctr : g.counter (f.dst.toNat % 4) < 63) (hroom : g.mtx.length < 8)
    (hinputs : (mtxInputs op (mdescOf raw)).any g.readWaits = false) (houtputs : (mtxOutputs op (mdescOf raw)).any g.writeWaits = false) :
    g.mtxWaits op f = false := by
  subst hoff hraw
  simp only [Group.mtxWaits, hdesc, decide_eq_false (Nat.not_le.mpr hctr), decide_eq_false (Nat.not_le.mpr hroom), hinputs, houtputs,
    Bool.or_self, Bool.and_false]

include hin

/-- A good descriptor of something to compute joins the outstanding ones (R251 to R253, R255). -/
theorem mtxIssue_good (d : Nat) (hact : g.active ≠ 0) (hgood : g.badLocal (overlap (off, 64)) = []) (hsome : (mdescOf raw).empty op = false)
    (hok : mdescBad op raw (mdescOf raw) g.room = false) :
    mtxIssue s d g f op = .done (if g.active = g.launch then s else s.count d 7 1).tick { (g.bumpCtr (f.dst.toNat % 4) true).next with
        mtx := g.mtx ++ [{ op := op, typ := f.typ.toNat, desc := raw, off := off, pc := g.pc, ctr := f.dst.toNat % 4, ord := s.clock }] } [] := by
  subst hoff hraw
  have hclock : (if g.active = g.launch then s else s.count d 7 1).clock = s.clock := by split <;> rfl
  simp only [mtxIssue, if_neg hact, hin, State.readLocal_good _ hgood, hsome, hok, Bool.not_true, Bool.false_eq_true, if_false, ne_eq, ite_not,
    hclock]

end

/-- The three matrix instructions issue alike, each with its operation (R251 to R257). -/
theorem exec_mtx {i : Instr} (hi : (i, op) = (.mma r f, 0) ∨ (i, op) = (.msmax r f, 1) ∨ (i, op) = (.mred r f, 2)) :
    exec i s = .next (s.issue r 6 op f (fun t g => mtxIssue t r.dist.val g f op)) := by
  rcases hi with hi | hi | hi <;> cases hi <;> rfl

end

/-- Settles O10: what `mtxIssue` comes to with threads active and without. -/
theorem matrixInstructionsIssue : Obligations.MatrixInstructionsIssue := by
  intro r f s g i op hi h
  rw [exec_mtx hi]
  refine ⟨fun hact => ?_, fun hact hin hdesc hctr hroom hgood raw hraw hsome hok hinputs houtputs => ?_⟩
  · exact congrArg _ (State.issue_group (a := .done s g.next []) h rfl (Group.mtxWaits_idle hact) (mtxIssue_idle _ hact))
  · exact congrArg _ (State.issue_group (a := .done _ _ []) h rfl (Group.mtxWaits_free rfl hraw hdesc hctr hroom hinputs houtputs)
      (mtxIssue_good hin rfl hraw _ hact hgood hsome hok))

/-! ## The engines of a core -/

section
variable {s : State} {r : GRef} {g : Group} (hon : s.coreOn r.dist.val = true) (hg : s.group r.dist.val r.slot.val = some g)
include hon hg

/-- `INSTRUCTION_FETCH` of a word that a class lists, within the code and the region that the program may run from (R83, R237). -/
theorem exec_instructionFetch_known {t : State} {bs : List Byte} (hfree : s.heldGroup r.dist.val g = false) (hir : g.ir = none)
    (hnan : g.nanPend = []) (hpc : g.pc < g.codeLen) (hreg : regionsAllow (s.regionsOf g.bid) Region.program (g.img + 64 + g.pc) 8 = true)
    (hread : s.deskBytes r.dist.val (g.img + 64 + g.pc) 8 = (t, bs, false))
    (hknown : knownOp (wordClass (BitVec.ofNat 64 (leNat bs))) (wordOp (BitVec.ofNat 64 (leNat bs))) = true) :
    exec (.instructionFetch r) s = .next (t.putGroup r.dist.val r.slot.val
      { g with ir := some (BitVec.ofNat 64 (leNat bs)), parked := none, replay := false, settled := false }) := by
  change execInstructionFetch r s = _
  simp [execInstructionFetch, hon, hg, hfree, hir, hnan, Nat.not_le.mpr hpc, hreg, hread, State.takeWord, hknown]

/-- `FILL_COMPLETE` of an outstanding fill whose data is good (R248). -/
theorem exec_fillComplete {n : Nat} {o : FillOp} {t : State} {k : Group} (ho : g.fills[n]? = some o)
    (hcopy : s.fillCopies r.dist.val g o.size o.copies = (t, some k)) :
    exec (.fillComplete r n) s = .next (t.putGroup r.dist.val r.slot.val { k.bumpCtr o.ctr false with fills := k.fills.eraseIdx n }) := by
  change execFillComplete r n s = _
  simp [execFillComplete, hon, hg, ho, hcopy]

/-- `MTX_COMPLETE` of the instruction that comes first in the queue of a working tile, with the `TILE` arm clear (R251, R255). -/
theorem exec_mtxComplete {n : Nat} {o : MtxOp} {tl : Nat} (ho : g.mtx[n]? = some o) (htile : (s.dist r.dist.val).tile = some tl)
    (hfirst : s.tileFirst r.dist.val (tileKey g.cls o.ord) = true) (harm : s.armed (Fld.dstInjectTile r.dist.val) = false) :
    exec (.mtxComplete r n) s = .next (s.mtxFinish r.dist.val r.slot.val g n o) := by
  change execMtxComplete r n s = _
  simp [execMtxComplete, hon, hg, ho, htile, hfirst, harm]

end

/-- Settles O11, one lemma for each engine. -/
theorem coreEnginesComplete : Obligations.CoreEnginesComplete := fun _ _ _ hon hg =>
  ⟨fun _ _ => exec_instructionFetch_known hon hg, fun _ _ _ _ => exec_fillComplete hon hg, fun _ _ _ => exec_mtxComplete hon hg⟩

/-! ## `EXIT` -/

/-- Settles O12: an `EXIT` that does not wait, by whether a thread is left and whether the group still stands in its slot. -/
theorem exitCompletes : Obligations.ExitCompletes := by
  intro r f s g h hwait hstall
  have hw : s.opWaits g 4 0x18 f = false := by simp [State.opWaits, hwait, hstall]
  refine ⟨fun hend => congrArg _ (State.issue_group (a := .gone _) h rfl hw (if_pos hend)), fun hlive hstays => ?_⟩
  refine State.ctlIns_done h hw ((if_neg hlive).trans (if_neg ?_))
  rw [Option.isNone_iff_eq_none]
  exact Option.isSome_iff_ne_none.mp hstays

end Sys2Proof.Machine
end

section
/-! PROOFS. Traps (R236, R241, R245, R246, R261, R262, R265, R328): where instructions trap, the record of a trap, and what becomes of the
group and its batch. -/

namespace Sys2Proof.Machine

/-! ## What a report leaves -/

/-- From one state to another only what reports and entries of the tally change has changed: registers, counters, the gate, the tally and the
twin link. -/
structure State.ReportKept (s t : State) : Prop where
  frame : { t with regs := s.regs, live := s.live, gate := s.gate, tally := s.tally, tallyErr := s.tallyErr, tallyStop := s.tallyStop,
                   twin := s.twin } = s

namespace State.ReportKept

theorem refl (s : State) : s.ReportKept s := ⟨rfl⟩

theorem trans {s t u : State} (h : s.ReportKept t) (h' : t.ReportKept u) : s.ReportKept u := by
  constructor
  calc { u with regs := s.regs, live := s.live, gate := s.gate, tally := s.tally, tallyErr := s.tallyErr, tallyStop := s.tallyStop, twin := s.twin }
      = { ({ u with regs := t.regs, live := t.live, gate := t.gate, tally := t.tally, tallyErr := t.tallyErr, tallyStop := t.tallyStop,
                    twin := t.twin } : State) with
          regs := s.regs, live := s.live, gate := s.gate, tally := s.tally, tallyErr := s.tallyErr, tallyStop := s.tallyStop, twin := s.twin } := rfl
    _ = s := by rw [h'.frame, h.frame]

theorem ite {s t u : State} {c : Prop} [Decidable c] (ht : s.ReportKept t) (hu : s.ReportKept u) : s.ReportKept (if c then t else u) := by
  split
  · exact ht
  · exact hu

section
variable {s t : State} (h : s.ReportKept t)
include h

theorem host : t.host = s.host := by
  have hf := congrArg State.host h.frame
  exact hf

theorem scene : t.scene = s.scene := by
  have hf := congrArg State.scene h.frame
  exact hf

theorem pending : t.pending = s.pending := by
  have hf := congrArg State.pending h.frame
  exact hf

theorem dists : t.dists = s.dists := by
  have hf := congrArg State.dists h.frame
  exact hf

theorem faults : t.faults = s.faults := by
  have hf := congrArg State.faults h.frame
  exact hf

theorem batch (b : Bid) : t.batch b = s.batch b := by
  have hf := congrArg State.batches h.frame
  exact congrArg (List.find? _) hf

end

variable (s : State)

/-! ## Registers, counters and reports -/

theorem count (u i n : Nat) : s.ReportKept (s.count u i n) := ⟨rfl⟩

theorem wr (f : Fld) (v : Nat) : s.ReportKept (s.wr f v) := ⟨rfl⟩

theorem setBit (f : Fld) (pg : Nat) : s.ReportKept (s.setBit f pg) := ite ⟨rfl⟩ (wr ..)

theorem errBit (n u : Nat) : s.ReportKept (s.errBit n u) :=
  have h := setBit s ⟨0x0E040, n, n⟩ 14
  ite (((h.trans (wr ..)).trans (wr ..)).trans (wr ..)) h

theorem report (page : Option (Nat × Nat)) (err : Option Nat) (u : Nat) (ctr : Option Nat) : s.ReportKept (s.report page err u ctr) := by
  have hpage (t : State) : t.ReportKept (match page with | some (pg, n) => t.status pg n | none => t) := by
    cases page with
    | none => exact refl t
    | some p => exact setBit t _ p.1
  have herr (t : State) : t.ReportKept (match err with | some n => t.errBit n u | none => t) := by
    cases err with
    | none => exact refl t
    | some n => exact errBit t n u
  refine ((hpage s).trans (herr _)).trans ?_
  cases ctr with
  | none => exact refl _
  | some i => exact count _ u i 1

/-! ## A batch's entry in the tally (R423, R436, R504) -/

theorem tallyWordRead (i j : Nat) : s.ReportKept (s.tallyWordRead i j).1 := by
  have hclear (p : Nat × Nat) (e c : Nat) :
      s.ReportKept (State.report { s with tallyErr := SMap.del s.tallyErr (i * 4 + j) } (some p) (some e) unitTly (some c)) :=
    (⟨rfl⟩ : s.ReportKept { s with tallyErr := SMap.del s.tallyErr (i * 4 + j) }).trans (report ..)
  unfold State.tallyWordRead
  dsimp only
  split
  · exact refl s
  · exact refl s
  · dsimp only
    exact hclear _ _ _
  · dsimp only
    exact hclear _ _ _
  all_goals
    split <;> dsimp only
    · exact hclear _ _ _
    · exact report ..

theorem tallyEntryRead (i : Nat) : s.ReportKept (s.tallyEntryRead i).1 :=
  List.foldlRecOn (motive := fun r : State × Bool => s.ReportKept r.1) (List.range 4) _ (refl s)
    fun r hr j _ => hr.trans (tallyWordRead r.1 i j)

theorem tallyPut (i : Nat) (bs : List Byte) : s.ReportKept (s.tallyPut i bs) := by
  unfold State.tallyPut
  dsimp only
  split <;> exact ⟨rfl⟩

theorem headerPut (x : Batch) : s.ReportKept (s.headerPut x) :=
  have hread := tallyEntryRead s x.tly
  ite (refl s) (ite (hread.trans (tallyPut _ _ _)) (hread.trans ⟨rfl⟩))

theorem twinSend (m : TwinMsg) : s.ReportKept (s.twinSend m) := ite (ite ⟨rfl⟩ ⟨rfl⟩) (refl s)

end State.ReportKept

section
variable (s : State)

/-- A batch changed with its entry in the tally is changed, and all else is kept. -/
theorem State.updTally_kept {b : Bid} {x : Batch} (f : Batch → Batch) (h : s.batch b = some x) : (s.updBatch b f).ReportKept (s.updTally b f) := by
  have hput : (s.updBatch b f).ReportKept (if b.held then s.updBatch b f else (s.updBatch b f).headerPut (f x)) :=
    .ite (.refl _) (.headerPut _ _)
  simp only [State.updTally, h]
  exact .ite hput (hput.trans (.twinSend _ _))

/-- A batch that parks is changed to parked, and all else is kept (R72, R73). -/
theorem State.park_kept {b : Bid} {x : Batch} (stage : ParkStage) (h : s.batch b = some x) :
    ∃ f : Batch → Batch, (f x).bid = x.bid ∧ (f x).st = .parked ∧ (f x).traps = x.traps ∧ (s.updBatch b f).ReportKept (s.park b stage) := by
  simp only [State.park, h]
  exact ⟨_, rfl, rfl, rfl, (s.updTally_kept _ h).trans (.setBit ..)⟩

theorem State.park_absent {b : Bid} (stage : ParkStage) (h : s.batch b = none) : s.park b stage = s := by simp only [State.park, h]

theorem State.park_dists (b : Bid) (stage : ParkStage) : (s.park b stage).dists = s.dists := by
  cases h : s.batch b with
  | none => rw [s.park_absent stage h]
  | some x =>
    obtain ⟨_, -, -, -, hkept⟩ := s.park_kept stage h
    exact hkept.dists

theorem State.park_faults (b : Bid) (stage : ParkStage) : (s.park b stage).faults = s.faults := by
  cases h : s.batch b with
  | none => rw [s.park_absent stage h]
  | some x =>
    obtain ⟨_, -, -, -, hkept⟩ := s.park_kept stage h
    exact hkept.faults

theorem State.bid_of_batch {b : Bid} {x : Batch} (h : s.batch b = some x) : x.bid = b := by simpa using List.find?_some h

theorem State.trapReport_kept (d : Nat) (c : Byte) : s.ReportKept (s.trapReport d c) := .ite (.report ..) (.setBit ..)

/-! ## How a group ends (R243, R265) -/

/-- From one state to another only the walkers and the order of events have changed. -/
structure State.WalkersOnly (s t : State) : Prop where
  frame : { t with walkers := s.walkers, clock := s.clock } = s

theorem State.WalkersOnly.dropInv (d : Nat) (i : Invocation) : s.WalkersOnly (s.dropInv d i) := by
  unfold State.dropInv
  split <;> split <;> exact ⟨rfl⟩

theorem State.WalkersOnly.foldl {α : Type} (l : List α) (f : State → α → State) (h : ∀ (t : State) x, t.WalkersOnly (f t x)) :
    s.WalkersOnly (l.foldl f s) :=
  List.foldlRecOn (motive := fun t => s.WalkersOnly t) l f ⟨rfl⟩ fun t ht x _ => ⟨by
    calc { f t x with walkers := s.walkers, clock := s.clock }
        = { ({ f t x with walkers := t.walkers, clock := t.clock } : State) with walkers := s.walkers, clock := s.clock } := rfl
      _ = s := by rw [(h t x).frame, ht.frame]⟩

theorem State.killGroup_kept (d k : Nat) (g : Group) : (s.freeGroup d k g).WalkersOnly (s.killGroup d k g) :=
  .foldl _ _ _ fun t i => .dropInv t d i

@[simp] theorem State.group_dropGroup_same (d k : Nat) : (s.dropGroup d k).group d k = none := by
  simp [State.group, State.dropGroup, State.updCore]

/-- A group killed is no longer in its slot. -/
theorem State.group_killGroup (d k : Nat) (g : Group) : (s.killGroup d k g).group d k = none := by
  have hd := congrArg State.dists (s.killGroup_kept d k g).frame
  exact (State.group_congr hd d k).trans (s.group_dropGroup_same d k)

theorem State.killGroup_faults (d k : Nat) (g : Group) : (s.killGroup d k g).faults = s.faults := by
  have hf := congrArg State.faults (s.killGroup_kept d k g).frame
  exact hf

theorem State.killGroup_batch (d k : Nat) (g : Group) (b : Bid) : (s.killGroup d k g).batch b = s.batch b := by
  have hb := congrArg State.batches (s.killGroup_kept d k g).frame
  exact congrArg (List.find? _) hb

end

/-! ## A trap raised (R261, R265) -/

section
variable (s : State) (d k : Nat) {g : Group} (t : TrapInfo)

section
variable (hpark : g.parkTrap = true)
include hpark

theorem State.raise_parks : s.raise d k g t = ((s.trapReport d t.cause).putGroup d k
    { g with parked := some .trap, replay := false, settled := false, trap := some t, nanPend := [], ir := none }).park g.bid .walking := if_pos hpark

/-- With `PARK_ON_TRAP` the group stays where it is, parked. -/
theorem State.group_raise_parks : (s.raise d k g t).group d k
    = some { g with parked := some .trap, replay := false, settled := false, trap := some t, nanPend := [], ir := none } := by
  rw [s.raise_parks d k t hpark, State.group_congr (State.park_dists ..), State.group_putGroup_same]

theorem State.raise_parks_faults : (s.raise d k g t).faults = s.faults := by
  rw [s.raise_parks d k t hpark, State.park_faults]
  exact (s.trapReport_kept d t.cause).faults

theorem State.batch_raise_parks {x : Batch} (hx : s.batch g.bid = some x) :
    ∃ y, (s.raise d k g t).batch g.bid = some y ∧ y.st = .parked ∧ y.traps = x.traps := by
  have hx' := (s.trapReport_kept d t.cause).batch g.bid |>.trans hx
  rw [s.raise_parks d k t hpark]
  obtain ⟨f, hbid, hst, htraps, hkept⟩ := State.park_kept ((s.trapReport d t.cause).putGroup d k _) .walking hx'
  exact ⟨f x, (hkept.batch _).trans (State.batch_updBatch_same _ _ f x hx' (hbid.trans (s.bid_of_batch hx))), hst, htraps⟩

end

section
variable (hpark : g.parkTrap = false)
include hpark

theorem State.raise_ends : s.raise d k g t
    = (((s.trapReport d t.cause).trapRecord d g t 0x7F).killGroup d k g).trapBatch g.bid := if_neg (by simp [hpark])

/-- Without `PARK_ON_TRAP` the group ends. -/
theorem State.group_raise_ends : (s.raise d k g t).group d k = none := by
  rw [s.raise_ends d k t hpark]
  exact State.group_killGroup ..

theorem State.raise_ends_faults : (s.raise d k g t).faults
    = s.faults ++ [{ bytes := (s.trapReport d t.cause).trapBytes d g t 0x7F, bid := g.bid, gate := false, key := 0 }] := by
  rw [s.raise_ends d k t hpark]
  exact (State.killGroup_faults _ d k g).trans (congrArg (· ++ _) (s.trapReport_kept d t.cause).faults)

theorem State.batch_raise_ends {x : Batch} (hx : s.batch g.bid = some x) :
    (s.raise d k g t).batch g.bid = some { x with trapped := true } := by
  rw [s.raise_ends d k t hpark]
  have hx' : (((s.trapReport d t.cause).trapRecord d g t 0x7F).killGroup d k g).batch g.bid = some x :=
    (State.killGroup_batch ..).trans (((s.trapReport_kept d t.cause).batch g.bid).trans hx)
  have hbid : x.bid = g.bid := s.bid_of_batch hx
  exact State.batch_updBatch_same _ _ (fun y => { y with trapped := true }) x hx' hbid

end

end

/-! ## The record of a trap (R262) -/

@[simp] theorem leBytes_length (n v : Nat) : (leBytes n v).length = n := by
  induction n generalizing v with
  | zero => rfl
  | succ n ih => simp [leBytes, ih]

theorem leNat_leBytes {n v : Nat} (h : v < 256 ^ n) : leNat (leBytes n v) = v := by
  induction n generalizing v with
  | zero => simp at h; simp [leBytes, leNat, h]
  | succ n ih =>
    have hdiv : v / 256 < 256 ^ n := Nat.div_lt_of_lt_mul (by rwa [Nat.pow_succ, Nat.mul_comm] at h)
    rw [leBytes, leNat, ih hdiv, BitVec.toNat_ofNat]
    exact Nat.mod_add_div v (2 ^ 8)

/-- Bytes behind a part of a record. -/
theorem bytesLe_behind {p q : List Byte} {o n : Nat} (h : p.length ≤ o) : bytesLe (p ++ q) o n = bytesLe q (o - p.length) n := by
  rw [bytesLe, bytesLe, List.drop_append, List.drop_eq_nil_of_le h, List.nil_append]

/-- A number put into a record reads back. -/
theorem bytesLe_leBytes {n v : Nat} (q : List Byte) (h : v < 256 ^ n) : bytesLe (leBytes n v ++ q) 0 n = v := by
  rw [bytesLe, List.drop_zero, List.take_left' (leBytes_length n v), leNat_leBytes h]

/-- The layout of R262: 8 bytes that hold queue, entry, program and tenant stand between the sequence number and the address. -/
theorem State.trapBytes_eq (s : State) (d : Nat) (g : Group) (t : TrapInfo) (h : Nat) : ∃ who : List Byte, who.length = 8 ∧ s.trapBytes d g t h =
    [3, t.cause, BitVec.ofNat 8 d, BitVec.ofNat 8 h] ++ (leBytes 4 g.bid.seq.toNat ++ (who ++ (leBytes 4 t.pc ++ (leBytes 4 t.tword.toNat
    ++ (leBytes 8 g.active.toNat ++ (leBytes 8 g.launch.toNat ++ (t.detail ++ (zeroBytes (16 - t.detail.length) ++ zeroBytes 8)))))))) := by
  unfold State.trapBytes
  extract_lets ten
  refine ⟨[BitVec.ofNat 8 (g.bid.que.val + 64 * s.sideOf g.bid), BitVec.ofNat 8 g.entry] ++ (leBytes 2 g.prog ++ (leBytes 2 ten ++ zeroBytes 2)), ?_, ?_⟩
  · simp [zeroBytes]
  · simp only [List.append_assoc]

/-- Settles O50: what becomes of the group, its batch and the fault ring with and without `PARK_ON_TRAP`, and the record's parts read at
their places. -/
theorem trapsTaken : Obligations.TrapsTaken := by
  intro r s g x c w det hx hc8 hc hdet hpc
  refine ⟨?batch, fun hp => ⟨State.group_raise_parks _ _ _ _ hp, State.raise_parks_faults _ _ _ _ hp⟩,
    fun hp => ⟨State.group_raise_ends _ _ _ _ hp, _, State.raise_ends_faults _ _ _ _ hp, rfl, ?record⟩⟩
  case batch =>
    cases hp : g.parkTrap with
    | true =>
      obtain ⟨y, hy, hst, htraps⟩ := State.batch_raise_parks s r.dist.val r.slot.val
        { cause := BitVec.ofNat 8 c, pc := g.pc, tword := w, detail := det } hp hx
      exact ⟨y, hy, htraps, fun _ => hst, nofun⟩
    | false => exact ⟨_, State.batch_raise_ends _ _ _ _ hp hx, rfl, nofun, fun _ => ⟨rfl, rfl⟩⟩
  case record =>
    obtain ⟨who, hwho, hbytes⟩ := (s.trapReport r.dist.val (BitVec.ofNat 8 c)).trapBytes_eq r.dist.val g
      { cause := BitVec.ofNat 8 c, pc := g.pc, tword := w, detail := det } 0x7F
    have hd := r.dist.isLt
    have hw : w.toNat < 2 ^ 16 := w.isLt
    simp only [hbytes]
    refine ⟨?len, ?cause, ?dist, ?handle, ?seq, ?pc, ?tword, ?active, ?launch, ?detail⟩
    case len =>
      simp [hwho, zeroBytes]
      omega
    case cause =>
      simp [bytesLe, leNat]
      omega
    case dist =>
      simp [bytesLe, leNat]
      omega
    case handle => rfl
    case detail => simp (disch := simp [hwho]) [hwho, List.drop_append, List.drop_eq_nil_of_le]
    all_goals simp (disch := simp [hwho]) only [bytesLe_behind, leBytes_length, List.length_cons, List.length_nil, hwho, Nat.reduceAdd, Nat.reduceSub]
    case seq => exact bytesLe_leBytes _ g.bid.seq.isLt
    case pc => exact bytesLe_leBytes _ hpc
    case tword => exact bytesLe_leBytes _ (by omega)
    case active => exact bytesLe_leBytes _ g.active.isLt
    case launch => exact bytesLe_leBytes _ g.launch.isLt

/-! ## Where instructions trap (R236, R241, R245, R246, R261) -/

/-- Settles O49: each trap is the body's own case, and a trap leaves the stack of a group that goes on existing. -/
theorem maskStackTraps : Obligations.MaskStackTraps := by
  intro r f s g
  refine ⟨fun h hfull => State.ctlIns_trap h rfl (if_pos hfull), fun h hst => State.ctlIns_trap h rfl ?_, fun h hst => State.ctlIns_trap h rfl ?_,
    fun h hst => State.ctlIns_trap h rfl ?_, fun h hn => State.ctlIns_trap h rfl (if_pos hn), fun c k hk => ?_⟩
  iterate 3 simp only [hst]
  rw [State.raiseHere] at hk
  cases hp : g.parkTrap with
  | true =>
    rw [State.group_raise_parks _ _ _ _ hp] at hk
    cases hk
    rfl
  | false =>
    rw [State.group_raise_ends _ _ _ _ hp] at hk
    cases hk

section
variable {s : State} {r : GRef} {f : Fields} {g : Group}

/-- Every core instruction is issued by its class, its operation and its fields. -/
theorem exec_of_coreCode {i : Instr} {c o : Nat} (h : coreCode i = some (r, c, o, f)) :
    ∃ body, ∀ s, exec i s = .next (s.issue r c o f body) := by
  have htable := classOp_of_coreCode h
  unfold classOp at htable
  split at htable
  case h_11 => cases htable
  all_goals
    simp only [intOp, fltOp, cvtOp, cmpOp, ctlOp, memOp, mtxOp, msgOp, wlkOp, spcOp] at htable
    split at htable <;> cases htable <;> exact ⟨_, fun _ => rfl⟩

section
variable {c o : Nat} (body : State → Group → Act) (hon : s.coreOn r.dist.val = true) (hg : s.group r.dist.val r.slot.val = some g)
  (hfree : s.heldGroup r.dist.val g = false) (harm : s.armed (Fld.dstInjectCore r.dist.val) = false) (hnan : g.nanPend = [])
  (hlead : s.leads r.dist.val r.slot.val c g = true) (hir : g.ir = none ∨ g.ir = some (insWord c o f))
include hon hg hfree harm hnan hlead hir

/-- At or above `CODE_LEN` an instruction traps with cause `FETCH` (R237, R261). -/
theorem State.issue_beyond_code (hpc : g.codeLen ≤ g.pc) : s.issue r c o f body = s.raiseHere r.dist.val r.slot.val g 2 0 [] := by
  unfold State.issue
  rcases hir with hir | hir <;> simp [hon, hg, hfree, harm, hnan, hlead, hir, hpc]

/-- An encoding that is not legal traps with cause `ILLEGAL` (R236, R261). -/
theorem State.issue_illegal (hpc : g.pc < g.codeLen) (hpend : g.pendingReg c o f = false) (hill : g.legal c o f = false) :
    s.issue r c o f body = s.raiseHere r.dist.val r.slot.val g 1 0 [] := by
  unfold State.issue
  rcases hir with hir | hir <;> simp [hon, hg, hfree, harm, hnan, hlead, hir, Nat.not_le.mpr hpc, hpend, hill]

end

theorem Group.active_ne_zero_of_mem {j : Nat} (h : j ∈ g.threads) : g.active ≠ 0 := fun h0 => by simp [g.threads_of_idle h0] at h

/-- A thread whose access fails a check is found. -/
theorem Group.some_outside {p : Nat → Bool} {j : Nat} (hj : j ∈ g.threads) (h : p j = false) : g.threads.any (fun j => !p j) = true :=
  List.any_eq_true.mpr ⟨j, hj, by simp [h]⟩

theorem Group.not_all_inside {p : Nat → Bool} {j : Nat} (hj : j ∈ g.threads) (h : p j = false) : g.threads.all p = false := by
  simpa using ⟨j, hj, h⟩

/-- `LD.L` outside the allocation or misaligned traps with cause `LOCAL_RANGE`, before it waits for anything (R246, R261). -/
theorem exec_ldL_outside {j : Nat} (h : s.fronts r 5 0x00 f g) (hj : j ∈ g.threads)
    (hout : g.inside (g.localAt f j) (memBytes f.typ.toNat) (memBytes f.typ.toNat) = false) :
    exec (.ldL r f) s = .next (s.raiseHere r.dist.val r.slot.val g 6 0 []) := by
  have hall : g.threads.all (fun j => g.inside (g.localAt f j) (memBytes f.typ.toNat) (memBytes f.typ.toNat)) = false :=
    Group.not_all_inside hj hout
  refine congrArg _ (State.issue_active (a := .trap s 6 0 []) h (Group.active_ne_zero_of_mem hj) ?_ (if_pos (Group.some_outside hj hout)))
  simp only [State.opWaits, hall, Bool.false_and]

/-- `ST.L` likewise. -/
theorem exec_stL_outside {j : Nat} (h : s.fronts r 5 0x01 f g) (hj : j ∈ g.threads)
    (hout : g.inside (g.localAt f j) (memBytes f.typ.toNat) (memBytes f.typ.toNat) = false) :
    exec (.stL r f) s = .next (s.raiseHere r.dist.val r.slot.val g 6 0 []) := by
  have hall : g.threads.all (fun j => g.inside (g.localAt f j) (memBytes f.typ.toNat) (memBytes f.typ.toNat)) = false :=
    Group.not_all_inside hj hout
  refine congrArg _ (State.issue_active (a := .trap s 6 0 []) h (Group.active_ne_zero_of_mem hj) ?_ (if_pos (Group.some_outside hj hout)))
  simp only [State.opWaits, hall, Bool.false_and]

end

/-- Settles O51: a fetch and an issue beyond the code, an illegal encoding, and the traps of single instructions. -/
theorem instructionTraps : Obligations.InstructionTraps := by
  intro r f s g hon hg hfree harm hnan
  refine ⟨?fetch, ?beyond, ?illegal, fun h ht => State.ctlIns_trap h rfl (if_pos ht), fun h ht => State.ctlIns_trap h rfl (if_pos ht),
    fun h hsplit => State.ctlIns_trap h ?_ (if_pos hsplit), fun _ => exec_ldL_outside, fun _ => exec_stL_outside⟩
  case fetch =>
    intro hir hpc
    change execInstructionFetch r s = _
    simp [execInstructionFetch, hon, hg, hfree, hir, hnan, hpc]
  case beyond =>
    intro i c o hi hlead hir hpc
    obtain ⟨body, hbody⟩ := exec_of_coreCode hi
    rw [hbody, State.issue_beyond_code body hon hg hfree harm hnan hlead hir hpc]
  case illegal =>
    intro i c o hi hlead hir hpc hpend hill
    obtain ⟨body, hbody⟩ := exec_of_coreCode hi
    rw [hbody, State.issue_illegal body hon hg hfree harm hnan hlead hir hpc hpend hill]
  simp [State.opWaits, hsplit]

end Sys2Proof.Machine
end

section
/-! PROOFS. No lane, compare, control (but `EXIT`) or special instruction changes memory or the queue (R236, R237, R239): their bodies keep the
state, and so does every other way that issue can come out. -/

namespace Sys2Proof.Machine

/-- Host memory, scene memory and the queue are kept. -/
structure State.MemoryKept (s t : State) : Prop where
  host : t.host = s.host
  scene : t.scene = s.scene
  pending : t.pending = s.pending

namespace State.MemoryKept

theorem refl (s : State) : s.MemoryKept s := ⟨rfl, rfl, rfl⟩

theorem trans {s t u : State} (h : s.MemoryKept t) (h' : t.MemoryKept u) : s.MemoryKept u :=
  ⟨h'.host.trans h.host, h'.scene.trans h.scene, h'.pending.trans h.pending⟩

theorem foldl {α : Type} {s : State} (l : List α) (f : State → α → State) (h : ∀ (t : State) x, t.MemoryKept (f t x)) :
    s.MemoryKept (l.foldl f s) :=
  List.foldlRecOn (motive := fun t => s.MemoryKept t) l f (refl s) fun t ht x _ => ht.trans (h t x)

theorem of_reportKept {s t : State} (h : s.ReportKept t) : s.MemoryKept t := ⟨h.host, h.scene, h.pending⟩

theorem ite {s t u : State} {c : Prop} [Decidable c] (ht : s.MemoryKept t) (hu : s.MemoryKept u) : s.MemoryKept (if c then t else u) := by
  split <;> assumption

variable (s : State)

theorem putGroup (d k : Nat) (g : Group) : s.MemoryKept (s.putGroup d k g) := ⟨rfl, rfl, rfl⟩

theorem report (page : Option (Nat × Nat)) (err : Option Nat) (u : Nat) (ctr : Option Nat) : s.MemoryKept (s.report page err u ctr) :=
  of_reportKept (.report ..)

/-! ## Failed cores (R438, R505) -/

theorem failCore (d : Nat) : s.MemoryKept (s.failCore d) := by
  have hinvoke (t : State) (i : Invocation) : t.MemoryKept (t.invoke d i) := ⟨rfl, rfl, rfl⟩
  unfold State.failCore
  extract_lets ws t
  have hempty : s.MemoryKept t := ⟨rfl, rfl, rfl⟩
  exact ite (refl s) ((hempty.trans (foldl ws _ hinvoke)).trans ⟨rfl, rfl, rfl⟩)

theorem coreExpiry (d : Nat) : s.MemoryKept (s.coreExpiry d) := (report s _ _ _ _).trans (failCore _ d)

/-! ## Registers read and written (R34, R504, R508) -/

theorem dstCode (d : Nat) (c : CodeRes) : s.MemoryKept (s.dstCode d c) := by
  cases c with
  | good | missed => exact refl s
  | corrected | miscorrected => exact report s (some (0x40 + d, 4)) (some 6) d (some 0x1A)
  | uncorrectable => exact report s (some (0x40 + d, 5)) (some 7) d (some 0x1B)
  | nibble => exact report s (some (0x40 + d, 5)) (some 8) d (some 0x1B)

theorem readRegs (d : Nat) (g : Group) (rs : List Nat) : s.MemoryKept (s.readRegs d g rs).1 := by
  have hjudge : s.MemoryKept (s.judgeWords d (g.badRegs rs)).1 := foldl _ _ fun t e => dstCode t d (codeJudge e.2)
  unfold State.readRegs
  split
  · exact refl s
  · dsimp only
    split
    · exact hjudge
    · exact hjudge.trans (failCore _ d)

theorem retireIns (d k : Nat) (g : Group) (keys : List Nat) : s.MemoryKept (s.retireIns d k g keys) := by
  have hwrote : s.MemoryKept (s.wroteRegs d g keys).1 := by
    unfold State.wroteRegs
    split
    · exact refl s
    · dsimp only
      split <;> exact ⟨rfl, rfl, rfl⟩
  exact hwrote.trans ⟨rfl, rfl, rfl⟩

/-! ## Traps (R261, R265) -/

theorem park (b : Bid) (stage : ParkStage) : s.MemoryKept (s.park b stage) := by
  cases h : s.batch b with
  | none =>
    rw [s.park_absent stage h]
    exact refl s
  | some x =>
    obtain ⟨f, -, -, -, hkept⟩ := s.park_kept stage h
    exact trans (t := s.updBatch b f) ⟨rfl, rfl, rfl⟩ (of_reportKept hkept)

theorem killGroup (d k : Nat) (g : Group) : s.MemoryKept (s.killGroup d k g) := by
  have hframe := (s.killGroup_kept d k g).frame
  exact ⟨(congrArg State.host hframe :), (congrArg State.scene hframe :), (congrArg State.pending hframe :)⟩

theorem raise (d k : Nat) (g : Group) (t : TrapInfo) : s.MemoryKept (s.raise d k g t) := by
  have hrep : s.MemoryKept (s.trapReport d t.cause) := of_reportKept (s.trapReport_kept d t.cause)
  cases hp : g.parkTrap with
  | true =>
    rw [s.raise_parks d k t hp]
    exact (hrep.trans (putGroup _ d k _)).trans (park _ _ _)
  | false =>
    rw [s.raise_ends d k t hp]
    have hrec : s.MemoryKept ((s.trapReport d t.cause).trapRecord d g t 0x7F) := hrep.trans ⟨rfl, rfl, rfl⟩
    exact (hrec.trans (killGroup _ d k g)).trans ⟨rfl, rfl, rfl⟩

theorem raiseHere (d k : Nat) (g : Group) (c : Nat) (w : BitVec 16) (det : List Byte) : s.MemoryKept (s.raiseHere d k g c w det) :=
  raise s d k g _

end State.MemoryKept

/-! ## Issue -/

/-- The state that an instruction's body hands on. -/
def Act.state : Act → State
  | .done s _ _ => s
  | .trap s _ _ _ => s
  | .gone s => s

theorem Act.apply_keeps (a : Act) (d k : Nat) (g : Group) : a.state.MemoryKept (a.apply d k g) := by
  cases a with
  | done s h keys => exact .retireIns s d k h keys
  | trap s c w det => exact .raiseHere s d k g c w det
  | gone s => exact .refl s

/-- A body that keeps memory and the queue. -/
def KeepsMemory (body : State → Group → Act) : Prop := ∀ (s : State) (g : Group), s.MemoryKept (body s g).state

theorem State.waiting_of_class (s : State) (g : Group) {c : Nat} (o : Nat) (h : c ≠ 8) : s.waiting g c o = s := if_neg fun hc => h hc.1

/-- Whichever way issue comes out, memory and the queue are kept where the instruction's own body keeps them. -/
theorem State.issue_keeps (s : State) (r : GRef) {c : Nat} (o : Nat) (f : Fields) {body : State → Group → Act} (hc : c ≠ 8)
    (hbody : KeepsMemory body) : s.MemoryKept (s.issue r c o f body) := by
  unfold State.issue
  extract_lets d k
  split
  · exact .refl s
  split
  · exact .refl s
  next g _ =>
  refine .ite (.refl s) (.ite ?_ ?_)
  · exact (State.MemoryKept.of_reportKept (.wr s _ _)).trans (.coreExpiry _ d)
  split
  · exact .raise ..
  split
  · exact .raiseHere ..
  split
  · exact .refl s
  split
  · exact .raiseHere ..
  split
  · exact .retireIns ..
  split
  · rw [s.waiting_of_class g o hc]
    exact .refl s
  have hread := State.MemoryKept.readRegs s d g ((opForm c o f).reads f)
  split
  next t hregs => rwa [hregs] at hread
  next t h hregs =>
    rw [hregs] at hread
    exact (hread.trans (hbody t h)).trans (Act.apply_keeps ..)

/-! ## The bodies of each class -/

theorem floatDone_keeps (d : Nat) (m : Form) (f : Fields) (event : State → Group → Nat → Option Nat) (val : State → Group → Nat → List Word) :
    KeepsMemory (fun s g => floatDone s d g m f (event s g) (val s g)) := by
  intro s g
  dsimp only
  unfold floatDone
  split
  · split
    · exact .of_reportKept (.wr s _ _)
    · split <;> exact .refl s
  · exact .refl s

section
variable {o : Nat} {r : GRef} {f : Fields} {i : Instr}

/-- Every integer instruction is a lane instruction. -/
theorem exec_intOp (h : intOp o r f = some i) : ∃ body, KeepsMemory body ∧ ∀ s, exec i s = .next (s.issue r 0 o f body) := by
  have hlane : ∃ val, ∀ s, exec i s = s.intIns r f o val := by
    unfold intOp at h
    split at h <;> cases h <;> exact ⟨_, fun _ => rfl⟩
  obtain ⟨val, hval⟩ := hlane
  refine ⟨_, ?_, hval⟩
  exact fun s g => .refl s

theorem exec_fltOp (h : fltOp o r f = some i) : ∃ body, KeepsMemory body ∧ ∀ s, exec i s = .next (s.issue r 1 o f body) := by
  have hflt : ∃ op, ∀ s, exec i s = s.fltIns r f o op := by
    unfold fltOp at h
    split at h <;> cases h <;> exact ⟨_, fun _ => rfl⟩
  obtain ⟨op, hop⟩ := hflt
  exact ⟨_, floatDone_keeps _ _ _ _ _, hop⟩

/-- A conversion's source is floating, and may trap, or is not. -/
theorem exec_cvtOp (h : cvtOp o r f = some i) : ∃ body, KeepsMemory body ∧ ∀ s, exec i s = .next (s.issue r 2 o f body) := by
  have hcvt : (∃ nan val, ∀ s, exec i s = s.cvtIns r f o nan val) ∨ ∃ val, ∀ s, exec i s = s.cvtInt r f o val := by
    unfold cvtOp at h
    split at h <;> cases h
    case h_2 | h_14 | h_15 | h_16 | h_17 => exact .inr ⟨_, fun _ => rfl⟩
    all_goals exact .inl ⟨_, _, fun _ => rfl⟩
  rcases hcvt with ⟨nan, val, hval⟩ | ⟨val, hval⟩
  · exact ⟨_, floatDone_keeps _ _ _ _ _, hval⟩
  · refine ⟨_, ?_, hval⟩
    exact fun s g => .refl s

theorem exec_cmpOp (h : cmpOp o r f = some i) : ∃ body, KeepsMemory body ∧ ∀ s, exec i s = .next (s.issue r 3 o f body) := by
  unfold cmpOp at h
  split at h <;> cases h
  all_goals
    refine ⟨_, ?_, fun _ => rfl⟩
    exact fun s g => .refl s

theorem exec_spcOp (h : spcOp o r f = some i) : ∃ body, KeepsMemory body ∧ ∀ s, exec i s = .next (s.issue r 9 o f body) := by
  unfold spcOp at h
  split at h <;> cases h
  all_goals
    refine ⟨_, ?_, fun _ => rfl⟩
    exact fun s g => .refl s

/-- A control instruction but `EXIT` is done or traps, on a condition or by what stands on the mask stack. -/
theorem exec_ctlOp (h : ctlOp o r f = some i) (hexit : ∀ q e, i ≠ .exit q e) :
    ∃ body, KeepsMemory body ∧ ∀ s, exec i s = .next (s.issue r 4 o f body) := by
  unfold ctlOp at h
  split at h <;> cases h
  case h_16 => exact absurd rfl (hexit r f)
  all_goals
    refine ⟨_, ?_, fun _ => rfl⟩
    intro s g
  case h_6 | h_7 | h_8 | h_9 | h_10 | h_11 | h_12 | h_13 =>
    dsimp only
    split <;> exact .refl s
  all_goals exact .refl s

end

/-- Settles O54: by class, the instruction is issued with a body that keeps memory and the queue. -/
theorem laneInstructionsKeepMemory : Obligations.LaneInstructionsKeepMemory := by
  intro i r c o f s t hcode hclass hexit hrun
  have htable := classOp_of_coreCode hcode
  have hissue : ∃ body, KeepsMemory body ∧ ∀ s, exec i s = .next (s.issue r c o f body) := by
    unfold classOp at htable
    split at htable
    · exact exec_intOp htable
    · exact exec_fltOp htable
    · exact exec_cvtOp htable
    · exact exec_cmpOp htable
    · exact exec_ctlOp htable hexit
    · omega
    · omega
    · omega
    · omega
    · exact exec_spcOp htable
    · cases htable
  obtain ⟨body, hbody, hexec⟩ := hissue
  rw [hexec] at hrun
  cases hrun
  obtain ⟨hhost, hscene, hpending⟩ := s.issue_keeps r o f (show c ≠ 8 by omega) hbody
  exact ⟨hhost, hscene, hpending⟩

end Sys2Proof.Machine
end

section
/-! PROOFS. The launch record (R230): what `u0` to `u15` of a launched group hold, through what a launch does to its slot (R232). -/

namespace Sys2Proof.Machine

/-! ## What a launched group holds (R230, R232) -/

section
variable (s : State) (d : Nat) (x : Batch) (m : Image) (p : Nat × Nat) (i : Invocation) (is taken : List Invocation)

/-- Bytes put into local store leave all else of a group. -/
theorem Group.lput_frame (g : Group) (a : Nat) (bs : List Byte) : { g.lput a bs with lstore := g.lstore } = g := by
  induction bs generalizing g a with
  | nil => rfl
  | cons b bs ih =>
    have hrest := congrArg (fun h : Group => { h with lstore := g.lstore }) (ih { g with lstore := SMap.put g.lstore a b } (a + 1))
    exact hrest

theorem State.rerankStore_frame (g : Group) : { s.rerankStore x g with lstore := g.lstore } = g := by
  unfold State.rerankStore
  split
  · refine List.foldlRecOn (motive := fun h : Group => { h with lstore := g.lstore } = g) _ _ rfl fun h hh j _ => ?_
    dsimp only
    split
    · exact hh
    · next w _ =>
      have hput := Group.lput_frame h j.hit.recA ((s.rerankData w).1.flatMap entryBytes ++ (s.rerankData w).2.query)
      rw [← hh]
      exact congrArg (fun k : Group => { k with lstore := g.lstore }) hput
  · rfl

/-- A group given a launch record in its uniform registers, its threads' inputs and its reranks. -/
theorem State.launched_of_record (g : Group) (record : List Word) (hlen : record.length = 16) (inputs : List (Nat × Invocation)) :
    let h := s.rerankStore x (inputs.foldl (fun h q => h.setVs q.1 0 (s.inputsOf x q.2)) (g.setUs 0 record))
    h.launch = g.launch ∧ h.localK = g.localK ∧ ∀ n < 16, h.ureg n = record.getD n 0 := by
  have hregs : g.RegsOnly (inputs.foldl (fun h q => h.setVs q.1 0 (s.inputsOf x q.2)) (g.setUs 0 record)) :=
    (Group.RegsOnly.setUs g 0 _).trans (.foldl _ _ (fun h (q : Nat × Invocation) => .setVs h q.1 0 _) _)
  have hword (n : Nat) (hn : n < 16) : (inputs.foldl (fun h q => h.setVs q.1 0 (s.inputsOf x q.2)) (g.setUs 0 record)).ureg n
      = record.getD n 0 := by
    have hput := g.ureg_setUs_inside (r := 0) (y := n) record (by omega) (by omega)
    rw [Nat.zero_add] at hput
    exact (Group.ureg_foldl_setVs _ _ _ _ _ n).trans hput
  generalize inputs.foldl (fun h q => h.setVs q.1 0 (s.inputsOf x q.2)) (g.setUs 0 record) = g1 at hregs hword
  intro h
  have hstore : { h with lstore := g1.lstore } = g1 := s.rerankStore_frame x g1
  clear_value h
  rw [Group.RegsOnly] at hregs
  refine ⟨(congrArg Group.launch hstore).trans (congrArg Group.launch hregs :), (congrArg Group.localK hstore).trans (congrArg Group.localK hregs :),
    fun n hn => ?_⟩
  exact (Group.ureg_congr (g := g1) (h := h) (congrArg Group.uregs hstore :) (congrArg Group.seed hstore :) n).trans (hword n hn)

/-- What ends a launch leaves the group put into its slot. -/
theorem State.group_launchEnd (t : State) (k : Nat) (g : Group) :
    let u := (t.putGroup d k g).updCore d (fun c => { c with ages := c.ages + 1 })
    (State.count { u with freeCtr := u.freeCtr + 1 } d 5 1).group d k = some g := by
  intro u
  have hput : u.group d k = some g := by
    simp only [State.group, u, State.putGroup, State.updCore, State.dist_updDist_same, SMap.find_put_same]
  clear_value u
  exact (State.group_congr rfl d k).trans hput

/-- The group in a launch's slot: with its mask and its local store, given its record, its threads' inputs and its reranks. -/
theorem State.group_launch : ∃ g : Group, g.launch = BitVec.ofNat 64 (2 ^ is.length - 1) ∧ g.localK = m.localK
    ∧ (s.launch d x m p i is taken).group d p.1 = some (s.rerankStore x (((List.range is.length).zip is).foldl
        (fun h q => h.setVs q.1 0 (s.inputsOf x q.2)) (g.setUs 0 (s.launchRecord d x i m (BitVec.ofNat 64 (2 ^ is.length - 1)))))) := by
  unfold State.launch
  exact ⟨_, rfl, rfl, State.group_launchEnd d _ _ _⟩

end

/-! ## Words of the record -/

/-- Two words hold a number of 64 bits, its low half first. -/
theorem halves_ofNat {n : Nat} (h : n < 2 ^ 64) : (BitVec.ofNat 32 n).toNat + 2 ^ 32 * (BitVec.ofNat 32 (n / 2 ^ 32)).toNat = n := by
  simp only [BitVec.toNat_ofNat]
  omega

theorem Desc.refine_lt (e : Desc) : e.refine < 4 := Nat.mod_lt _ (by decide)

theorem Desc.passes_lt (e : Desc) : e.passes < 4 := Nat.mod_lt _ (by decide)

/-- The fields of a launch record's first word. -/
theorem record_flags {entry probe cls refine passes ordered : Nat} (he : entry < 8) (hp : probe < 2) (hc : cls < 4) (hr : refine < 4)
    (hpa : passes < 4) (ho : ordered < 2) :
    let w : Word := BitVec.ofNat 32 (entry + 8 * probe + 16 * cls + 64 * refine + 256 * passes + 1024 * ordered)
    field w 2 0 = entry ∧ field w 3 3 = probe ∧ field w 5 4 = cls ∧ field w 7 6 = refine ∧ field w 9 8 = passes
      ∧ field w 10 10 = ordered ∧ field w 31 11 = 0 := by
  simp only [field, bits, BitVec.toNat_ofNat]
  refine ⟨?_, ?_, ?_, ?_, ?_, ?_, ?_⟩ <;> omega

/-- The fields of its second. -/
theorem record_program {prog tenant : Nat} (hp : prog < 65536) (ht : tenant < 4096) :
    let w : Word := BitVec.ofNat 32 (prog + 2 ^ 16 * tenant)
    field w 15 0 = prog ∧ field w 27 16 = tenant ∧ field w 31 28 = 0 := by
  simp only [field, bits, BitVec.toNat_ofNat]
  refine ⟨?_, ?_, ?_⟩ <;> omega

/-- Settles O53: the group's first sixteen uniform registers are the launch record, read word by word. -/
theorem launchRecord : Obligations.LaunchRecord := by
  intro s d x m p i is taken n hn hentry hcls hprog htenant hparam hslot hout hd _
  obtain ⟨g0, hlaunch0, hlocal0, hgroup⟩ := s.group_launch d x m p i is taken
  obtain ⟨hlaunch, hlocal, hureg⟩ := s.launched_of_record x g0 (s.launchRecord d x i m (BitVec.ofNat 64 (2 ^ is.length - 1))) rfl
    ((List.range is.length).zip is)
  refine ⟨_, hgroup, hureg n hn, ?_⟩
  generalize s.rerankStore x _ = g at hlaunch hlocal hureg
  obtain ⟨f0, f1, f2, f3, f4, f5, f6⟩ := record_flags hentry (b2n_lt (decide (i.entry = 5) && x.desc.isProbe)) hcls x.desc.refine_lt x.desc.passes_lt
    (b2n_lt x.desc.ordered)
  obtain ⟨q0, q1, q2⟩ := record_program hprog htenant
  have hmask : g.launch = BitVec.ofNat 64 (2 ^ is.length - 1) := hlaunch.trans hlaunch0
  simp (disch := decide) only [hureg, hmask, hlocal, hlocal0]
  have hqueue : field (BitVec.ofNat 32 (x.bid.que.val + 64 * s.sideOf x.bid)) 5 0 = x.bid.que.val := by
    simp only [field, bits, BitVec.toNat_ofNat]
    omega
  have hdist : (BitVec.ofNat 32 d).toNat = d := by
    simp only [BitVec.toNat_ofNat]
    omega
  exact ⟨f0, f1, f2, f3, f4, f5, f6, q0, q1, q2, halves_ofNat hparam, rfl, hqueue, halves_ofNat (BitVec.isLt _), hdist, rfl, halves_ofNat hslot,
    halves_ofNat hout, rfl, rfl⟩

end Sys2Proof.Machine
end

section
/-! PROOFS. Groups launched, split, pre-empted, parked, restored, replayed and killed; messages and shootdowns (R218, R223, R258, R259, R263 to R268,
R377). -/

namespace Sys2Proof.Machine

section
variable (s : State) {d : Dist}

/-! ## Launch, split and pre-emption -/

section
variable (hgoes : s.coreGoes d.val = true)
include hgoes

/-- `GROUP_LAUNCH` of an invocation whose image reads. -/
theorem exec_groupLaunch {i : Invocation} {x : Batch} {m : Image} {t : State} (hhead : s.headOf d.val = some (.launch i))
    (hbatch : s.batch i.bid = some x) (himage : (s.tenParity x.tenant).imageOf d.val x i = (t, .ok m)) :
    exec (.groupLaunch d) s = .next (t.tryLaunch d.val x m i) := by
  change execGroupLaunch d s = _
  simp [execGroupLaunch, hgoes, hhead, hbatch, himage]

/-- `SPLIT_CHANGE` in a core without groups. -/
theorem exec_splitChange {sp : Nat} (hhead : s.headSplit d.val = some sp) (hother : sp ≠ (s.dist d.val).core.split)
    (hempty : (s.dist d.val).core.groups = []) :
    exec (.splitChange d) s = .next (s.updCore d.val (fun y => { y with split := sp, desk := [] })) := by
  change execSplitChange d s = _
  simp [execSplitChange, hgoes, hhead, hother, hempty]

/-- `PREEMPTION` for a waiting Express invocation whose image reads. -/
theorem exec_preemption {i : Invocation} {x : Batch} {m : Image} (hctl : s.flag (Fld.dstCoreCtlPreempt d.val) = true)
    (harea : s.flag (Fld.dstParkBaseEn d.val) = true) (hwaits : s.expressWaiting d.val = some i) (hbatch : s.batch i.bid = some x)
    (himage : (s.imageOf d.val x i).2 = .ok m) : exec (.preemption d) s = .next (s.preemptFor d.val m) := by
  change execPreemption d s = _
  simp [execPreemption, hgoes, hctl, harea, hwaits, hbatch, himage]

/-- `GROUP_RESTORE` into a free slot, the record read back good. -/
theorem exec_groupRestore {n k a : Nat} {g : Group} {t : State} (hhead : s.headOf d.val = some (.restore n g))
    (hsplit : g.split = (s.dist d.val).core.split) (hroom : s.roomFor d.val g.nreg g.localK = some (k, a))
    (hrecord : s.recordGet (streamSide d.val) (s.parkAddr d.val n) g.parkBytes = (t, false)) :
    exec (.groupRestore d) s = .next ((t.updCore d.val (fun c => { c with parks := SMap.del c.parks n })).putGroup d.val k
      { g with parked := none, replay := false, settled := false, lsBase := a }) := by
  change execGroupRestore d s = _
  unfold execGroupRestore
  rw [if_neg (by simp [hgoes]), hhead]
  dsimp only
  rw [if_neg (not_not.mpr hsplit), hroom]
  exact congrArg _ (by rw [hrecord])

end

/-! ## Parks -/

section
variable {k : Fin 32} {g : Group} (hon : s.coreOn d.val = true) (hgroup : s.group d.val k.val = some g) (hidle : g.busy = false)
include hon hgroup hidle

/-- `GROUP_PARK` of a group that a trap or a stop has parked. -/
theorem exec_groupPark_parked (hparked : g.parked.isSome = true) (hsettled : g.settled = false) (hreplay : g.replay = false) :
    exec (.groupPark { dist := d, slot := k }) s = .next (s.settlePark d.val k.val g) := by
  change execGroupPark _ s = _
  simp [execGroupPark, hon, hgroup, hidle, hparked, hsettled, hreplay]

/-- `GROUP_PARK` of a group chosen for pre-emption, with a park slot free. -/
theorem exec_groupPark_preempted {n : Nat} (hparked : g.parked = none) (hwant : g.preWant = true) (hslot : s.parkSlot d.val 0 = some n) :
    exec (.groupPark { dist := d, slot := k }) s
      = .next (s.toSlot d.val k.val n { g with parked := some .pre, settled := true, preWant := false, ir := none }) := by
  change execGroupPark _ s = _
  simp [execGroupPark, hon, hgroup, hidle, hparked, hwant, hslot]

end

/-! ## Replay and kill -/

section
variable {h : BitVec 7} {g : Group} (hopens : s.opens (pageReg .dst d.val 0x060) = true) (hhandle : s.handleGroup d.val h.toNat = some g)
include hopens hhandle

theorem exec_trapReplay (hparked : g.parked = some .trap) (hreplay : g.replay = false) :
    exec (.trapReplay d h) s = .next ((s.updHandle d.val h.toNat { g with replay := true }).trapsOver g.bid) := by
  change execTrapReplay d h s = _
  simp [execTrapReplay, State.guardWrite_opens _ _ _ hopens, hhandle, hparked, hreplay]

theorem exec_trapKill : exec (.trapKill d h) s = .next (((s.abandon g.bid).updBatch g.bid (fun y => { y with
    stop := true, parkAt := none, st := if y.st = .parked then (if y.admitOrd = 0 then .accepted else .admitted) else y.st })).fixStatus g.bid 0x41 0) := by
  change execTrapKill d h s = _
  simp [execTrapKill, State.guardWrite_opens _ _ _ hopens, hhandle]

end

/-! ## Messages between cores -/

section
variable {m : Msg} {grp th rg : Nat} (hactive : s.active = true)
include hactive

/-- `SEND_DELIVERY`: the message reaches the inbox. -/
theorem exec_sendDelivery {b : Bid} {tag : BitVec 16} {ws : List Word} (hm : s.gets d 6 m) (hbody : m.body = .send b tag ws grp th rg) :
    exec (.sendDelivery d) s
      = .next (((s.dropMsg m).wakeDist d.val).inboxPut d.val m.src { bid := b, tag := tag, src := m.src, words := ws } grp th rg) := by
  change execSendDelivery d s = _
  unfold execSendDelivery
  rw [s.nextMsg_of_gets hm fun y => by cases y <;> rfl]
  simp [hactive, hbody]

/-- `SEND_STATUS`: the status reaches the sender. -/
theorem exec_sendStatus {ok : Bool} (hm : s.gets d 7 m) (hbody : m.body = .sendStatus grp th rg ok) :
    exec (.sendStatus d) s = .next ((s.dropMsg m).statusIn d.val grp th rg ok) := by
  change execSendStatus d s = _
  unfold execSendStatus
  rw [s.nextMsg_of_gets hm fun y => by cases y <;> rfl]
  simp [hactive, hbody]

end

/-- `SHOOTDOWN_GO` while none is under way. -/
theorem exec_shootdownGo (hopens : s.opens 0x0106C = true) (hhalt : s.halted .lnk = false) (hfree : s.flag Fld.lnkShootCtlBusy = false) :
    exec .shootdownGo s = .next ((s.wr Fld.lnkShootCtlBusy 1).shootTick) := by
  change execShootdownGo s = _
  simp [execShootdownGo, State.guardWrite_opens _ _ _ hopens, hhalt, hfree]

end

/-- Settles O32, command by command. -/
theorem groupCommandsComplete : Obligations.GroupCommandsComplete := by
  intro d s
  refine ⟨?launch, ?split, ?preempt, ?settle, ?preSlot, ?restore, ?replay, ?kill, ?message, ?status, ?shoot⟩
  case launch => exact fun i x m t hgoes hhead hbatch himage => exec_groupLaunch s hgoes hhead hbatch himage
  case split => exact fun sp hgoes hhead hother hempty => exec_splitChange s hgoes hhead hother hempty
  case preempt => exact fun i x m hgoes hctl harea hwaits hbatch himage => exec_preemption s hgoes hctl harea hwaits hbatch himage
  case settle => exact fun k g hon hgroup hidle hparked hsettled hreplay => exec_groupPark_parked s hon hgroup hidle hparked hsettled hreplay
  case preSlot => exact fun k g n hon hgroup hidle hparked hwant hslot => exec_groupPark_preempted s hon hgroup hidle hparked hwant hslot
  case restore => exact fun n k a g t hgoes hhead hsplit hroom hrecord => exec_groupRestore s hgoes hhead hsplit hroom hrecord
  case replay => exact fun h g hopens hhandle hparked hreplay => exec_trapReplay s hopens hhandle hparked hreplay
  case kill => exact fun h g hopens hhandle => exec_trapKill s hopens hhandle
  case message => exact fun m b tag ws grp th rg hactive hm hbody => exec_sendDelivery s hactive hm hbody
  case status => exact fun m grp th rg ok hactive hm hbody => exec_sendStatus s hactive hm hbody
  case shoot => exact exec_shootdownGo s

end Sys2Proof.Machine
end

section
/-! PROOFS. Floating instructions, conversions and comparisons at the front of their group (R286 to R289, R513, R514), and the NaN traps of
lane instructions (R298, R300 to R302). -/

namespace Sys2Proof.Machine

/-! ## Which event a thread has (R298, R300) -/

/-- The event of the first source that is NaN, the sources numbered from `n`; with none, the event of a produced NaN. -/
def eventFrom (n : Nat) (res : Bool) : List Bool → Option Nat
  | [] => if res then some 0x18 else none
  | b :: bs => if b then some n else eventFrom (n + 1) res bs

theorem eventFrom_eq_findIdx (n : Nat) (res : Bool) (srcs : List Bool) :
    eventFrom n res srcs = (srcs.findIdx? id).elim (if res then some 0x18 else none) (fun i => some (n + i)) := by
  induction srcs generalizing n with
  | nil => rfl
  | cons b bs ih =>
    rw [eventFrom, List.findIdx?_cons, ih]
    cases b with
    | true => rfl
    | false => cases bs.findIdx? id <;> simp [Nat.add_assoc, Nat.add_comm 1]

/-- Operand A is event `0x10`, B `0x11`, C `0x12`. -/
theorem laneEvent_eq_eventFrom (srcs : List Bool) (res : Bool) : laneEvent srcs res = eventFrom 0x10 res srcs := by
  rw [laneEvent, eventFrom_eq_findIdx]
  cases srcs.findIdx? id <;> rfl

/-- Which sources of a floating instruction are NaN in a thread, in the order A, B, C. -/
def Group.fltNans (g : Group) (op : Nat) (f : Fields) (j : Nat) : List Bool :=
  [laneNan f.typ.toNat (g.srcA f j)] ++ (if (formFlt op).b = 1 then [laneNan f.typ.toNat (g.srcBF f j)] else [])
    ++ (if (formFlt op).c = 1 then [laneNan f.typ.toNat (g.srcC f j)] else [])

/-- The event of a thread at a floating instruction. -/
def Group.fltEvent (g : Group) (op : Nat) (f : Fields) (val : Fp → Fp → Fp → Word) (j : Nat) : Option Nat :=
  eventFrom 0x10 (laneNan f.typ.toNat (g.fltVal f val j)) (g.fltNans op f j)

/-! ## What a floating lane instruction comes to -/

/-- The state after a lane instruction under `NAN_TRAP`: the trap of the first event, the lowest active thread's, or else the results. -/
def State.nanOutcome (s : State) (r : GRef) (g : Group) (m : Form) (f : Fields) (event : Nat → Option Nat) (val : Nat → List Word) : State :=
  match g.firstEvent event with
  | some (e, j) => s.raiseHere r.dist.val r.slot.val g 8 0 (laneDetail e j)
  | none => s.laneNext r g m f val

section
variable {s : State} {r : GRef} {op : Nat} {f : Fields} {g : Group}

theorem floatDone_untrapped (d : Nat) (m : Form) (event : Nat → Option Nat) (val : Nat → List Word) (hnan : g.nanTrap = false) :
    floatDone s d g m f event val = laneDone s g m f val :=
  if_neg (by simp [hnan])

theorem floatDone_trapping (m : Form) (event : Nat → Option Nat) (val : Nat → List Word) (hnan : g.nanTrap = true)
    (harm : s.armed (Fld.dstInjectNan r.dist.val) = false) :
    (floatDone s r.dist.val g m f event val).apply r.dist.val r.slot.val g = s.nanOutcome r g m f event val := by
  rw [floatDone, if_pos hnan, if_neg (by simp [harm]), State.nanOutcome]
  cases g.firstEvent event <;> rfl

/-! ## Class FLT -/

theorem State.fltIns_untrapped (val : Fp → Fp → Fp → Word) (h : s.fronts r 1 op f g) (hnan : g.nanTrap = false) :
    s.fltIns r f op val = .next (s.laneNext r g (formFlt op) f (fun j => [g.fltVal f val j])) :=
  congrArg _ (State.issue_lane h rfl rfl (floatDone_untrapped _ _ _ _ hnan))

theorem State.fltIns_trapping (val : Fp → Fp → Fp → Word) (harm : s.armed (Fld.dstInjectNan r.dist.val) = false) (hnan : g.nanTrap = true)
    (hact : g.active ≠ 0) (h : s.fronts r 1 op f g) :
    s.fltIns r f op val = .next (s.nanOutcome r g (formFlt op) f (g.fltEvent op f val) (fun j => [g.fltVal f val j])) := by
  have hevent : g.fltEvent op f val = fun j => laneEvent (g.fltNans op f j) (laneNan f.typ.toNat (g.fltVal f val j)) :=
    funext fun j => (laneEvent_eq_eventFrom ..).symm
  rw [hevent, ← floatDone_trapping _ _ _ hnan harm]
  exact congrArg _ (State.issue_active h hact rfl rfl)

/-! ## Class CVT -/

theorem State.cvtIns_untrapped (nan : Group → Nat → Bool) (val : Group → Nat → List Word) (h : s.fronts r 2 op f g)
    (hnan : g.nanTrap = false) : s.cvtIns r f op nan val = .next (s.laneNext r g (formCvt op) f (val g)) :=
  congrArg _ (State.issue_lane h rfl rfl (floatDone_untrapped _ _ _ _ hnan))

/-- A conversion whose source is not floating has no event. -/
theorem State.cvtInt_fronts (val : Group → Nat → List Word) (h : s.fronts r 2 op f g) :
    s.cvtInt r f op val = .next (s.laneNext r g (formCvt op) f (val g)) :=
  congrArg _ (State.issue_lane h rfl rfl rfl)

/-! ## Class CMP -/

theorem State.cmpIns_fronts (test : Word → Word → Bool) (h : s.fronts r 3 op f g) (hact : g.active ≠ 0) :
    s.cmpIns r f op test = .next (s.ran r (g.setPred f.dst.toNat (laneMask (fun j => test (g.srcA f j) (g.srcB f j)))).next) :=
  congrArg _ (State.issue_active h hact rfl rfl)

theorem State.predIns_fronts (val : Mask → Mask → Mask) (h : s.fronts r 3 op f g) (hact : g.active ≠ 0) :
    s.predIns r f op val = .next (s.ran r (g.setPred f.dst.toNat (val (g.pred f.sa.toNat) (g.pred f.sb.toNat))).next) :=
  congrArg _ (State.issue_active h hact rfl rfl)

end

/-- Settles O2. -/
theorem floatingInstructionsComplete : Obligations.FloatingInstructionsComplete := by
  intro r f s g
  and_intros
  all_goals exact State.fltIns_untrapped _

/-- Settles O3: five conversions have no floating source, and so no condition on `NAN_TRAP`. -/
theorem conversionsComplete : Obligations.ConversionsComplete := by
  intro r f s g
  refine ⟨State.cvtIns_untrapped _ _, ?i2f, State.cvtIns_untrapped _ _, State.cvtIns_untrapped _ _, State.cvtIns_untrapped _ _,
    State.cvtIns_untrapped _ _, State.cvtIns_untrapped _ _, State.cvtIns_untrapped _ _, State.cvtIns_untrapped _ _,
    State.cvtIns_untrapped _ _, State.cvtIns_untrapped _ _, State.cvtIns_untrapped _ _, State.cvtIns_untrapped _ _, ?up8, ?upu8, ?up4,
    ?upu4, State.cvtIns_untrapped _ _⟩
  case i2f | up8 | upu8 | up4 | upu4 => exact State.cvtInt_fronts _

/-- Settles O4: three comparisons, then four operations on predicates. -/
theorem comparisonsComplete : Obligations.ComparisonsComplete := by
  intro r f s g
  exact ⟨State.cmpIns_fronts fun a b => intCond (condOf f) (decide (a = b)) (a.slt b),
    State.cmpIns_fronts fun a b => intCond (condOf f) (decide (a = b)) (a.ult b),
    State.cmpIns_fronts fun a b => fpCond (condOf f) (f32 a) (f32 b), State.predIns_fronts fun p q => p &&& q,
    State.predIns_fronts fun p q => p ||| q, State.predIns_fronts fun p q => p ^^^ q, State.predIns_fronts fun p _ => ~~~p⟩

/-- Settles O52: the sources' events of each statement are `eventFrom` run on the instruction's one, two or three sources. -/
theorem laneNanTraps : Obligations.LaneNanTraps := by
  intro r f s g harm hnan hact
  and_intros
  all_goals exact State.fltIns_trapping _ harm hnan hact

end Sys2Proof.Machine
end

section
/-! PROOFS. The port that serves a scene address (R343). -/

namespace Sys2Proof.Machine

variable (s : State)

/-- Sectors of 256 bytes go round the ports in use. -/
theorem State.portAt_installed (a : Nat) (hports : 0 < s.ports.length) : s.portAt a
    = some (s.ports[a / 256 % s.ports.length]'(Nat.mod_lt _ hports), a / 256 / s.ports.length * 256 + a % 256) := by
  simp [State.portAt, Nat.ne_of_gt hports, List.getElem?_eq_getElem (Nat.mod_lt _ hports)]

/-- Addresses between the same multiples of 256 go to one port. -/
theorem State.portAt_port_congr {a b : Nat} (h : b / 256 = a / 256) : (s.portAt b).map (·.1) = (s.portAt a).map (·.1) := by
  unfold State.portAt
  split
  · rfl
  · simp [h, Function.comp_def]

/-- Settles O41. -/
theorem servingPort : Obligations.ServingPort := by
  intro s a hports
  refine ⟨⟨_, List.getElem?_eq_getElem (Nat.mod_lt _ hports), s.portAt_installed a hports⟩, fun n i _ hcross hi => ?_⟩
  exact s.portAt_port_congr (by omega)

end Sys2Proof.Machine
end

section
/-! PROOFS. What a stack port at work leaves of the `BLK` page (R345 to R348, R353, R359, R505, R508): a sector read from or written to a stack
sets registers of the port's own page and of `ERR`, and no others. -/

namespace Sys2Proof.Machine

/-- From one state to another no register of the `BLK` page has changed. -/
structure State.BlkRegsKept (s t : State) : Prop where
  reg : ∀ j, offPage j = 0 → t.reg j = s.reg j

namespace State.BlkRegsKept

theorem refl (s : State) : s.BlkRegsKept s := ⟨fun _ _ => rfl⟩

theorem of_regs {s t : State} (h : t.regs = s.regs) : s.BlkRegsKept t := ⟨fun j _ => State.reg_congr h j⟩

theorem trans {s t u : State} (h : s.BlkRegsKept t) (h' : t.BlkRegsKept u) : s.BlkRegsKept u :=
  ⟨fun j hj => (h'.reg j hj).trans (h.reg j hj)⟩

theorem ite {s t u : State} {c : Prop} [Decidable c] (ht : s.BlkRegsKept t) (hu : s.BlkRegsKept u) : s.BlkRegsKept (if c then t else u) := by
  split
  · exact ht
  · exact hu

/-- A fold of which every step keeps them. -/
theorem foldl {α : Type} {s : State} (l : List α) (f : State → α → State) (h : ∀ (t : State) x, t.BlkRegsKept (f t x)) : s.BlkRegsKept (l.foldl f s) :=
  List.foldlRecOn (motive := fun t => s.BlkRegsKept t) l f (refl s) fun t ht x _ => ht.trans (h t x)

theorem rd {s t : State} (h : s.BlkRegsKept t) {f : Fld} (hf : offPage f.off = 0) : t.rd f = s.rd f :=
  congrArg (fun w => field w f.hi f.lo) (h.reg _ hf)

variable (s : State)

/-! ## Registers, counters and reports -/

theorem wr {f : Fld} (v : Nat) (hf : offPage f.off ≠ 0) : s.BlkRegsKept (s.wr f v) :=
  ⟨fun _ hj => State.reg_wr_other _ _ _ _ fun e => hf (e ▸ hj)⟩

theorem setBit {f : Fld} (pg : Nat) (hf : offPage f.off ≠ 0) : s.BlkRegsKept (s.setBit f pg) :=
  ⟨fun _ hj => State.reg_setBit_other _ _ _ _ fun e => hf (e ▸ hj)⟩

theorem updPort (p : Nat) (f : StackPort → StackPort) : s.BlkRegsKept (s.updPort p f) := of_regs rfl

theorem count (u i n : Nat) : s.BlkRegsKept (s.count u i n) := of_regs rfl

theorem errBit (n u : Nat) : s.BlkRegsKept (s.errBit n u) := ⟨fun _ hj => State.reg_errBit_outside _ _ _ (by omega)⟩

theorem offPage_port (p : Nat) {o : Nat} : offPage (0x08000 + p * 0x1000 + o) ≠ 0 := by
  simp only [offPage]
  omega

/-- A report of a port, on its page and in `ERR_STATUS` (R504). -/
theorem portReport (p n e u : Nat) (ctr : Option Nat) : s.BlkRegsKept (s.report (some (8 + p, n)) (some e) u ctr) := by
  have hpage : offPage (Fld.status (8 + p) n).off ≠ 0 := by
    simp only [offPage, Fld.status]
    omega
  have h : s.BlkRegsKept ((s.status (8 + p) n).errBit e u) := (setBit s (8 + p) hpage).trans (errBit ..)
  cases ctr with
  | none => exact h
  | some i => exact h.trans (count ..)

/-! ## Stacks -/

theorem codeReport (p a : Nat) (r : CodeRes) : s.BlkRegsKept (s.codeReport p a r) := by
  have huncorrectable (n e c : Nat) : s.BlkRegsKept (let t := s.report (some (8 + p, n)) (some e) (unitStk p) (some c)
      if t.flag (Fld.stkStatusUeValid p) then t else (t.wr (Fld.stkUeAddrAddr p) (a / 256)).wr (Fld.stkStatusUeValid p) 1) :=
    have h := portReport s p n e (unitStk p) (some c)
    ite h ((h.trans (wr _ _ (offPage_port p))).trans (wr _ _ (offPage_port p)))
  cases r with
  | good | missed => exact refl s
  | corrected | miscorrected => exact portReport s p 0 6 (unitStk p) (some 8)
  | uncorrectable => exact huncorrectable 1 7 9
  | nibble => exact huncorrectable 2 8 10

theorem stackArm (p w : Nat) : s.BlkRegsKept (s.stackArm p w) :=
  ite (refl s) ((wr s (f := Fld.stkInjectStack p) 0 (offPage_port p)).trans (of_regs rfl))

theorem stackReq (p : Nat) : s.BlkRegsKept (s.stackReq p) :=
  ite (((wr _ _ (offPage_port p)).trans (portReport ..)).trans (updPort ..)) (refl s)

theorem stackPut (p a : Nat) (data : List Byte) : s.BlkRegsKept (s.stackPut p a data) := by
  have hput (t : State) (c : SMap (BitVec 72)) (m : Memory) : t.BlkRegsKept (State.count { t with scene := m, codeErr := c } (unitStk p) 2 1) :=
    of_regs rfl
  exact ite (((stackReq s p).trans (hput _ _ _)).trans (stackArm ..)) (refl s)

/-! ## Eviction buffers -/

theorem lineBack (p : Nat) (l : SLine) : s.BlkRegsKept (s.lineBack p l) :=
  foldl _ _ fun t i => by
    have hlost : t.BlkRegsKept (t.dirtyLost p (l.addr + 64 * i)) := codeReport ..
    exact ite (ite hlost (stackPut ..)) (refl t)

theorem evictOldest (p : Nat) : s.BlkRegsKept (s.evictOldest p) := by
  unfold State.evictOldest
  split
  · exact refl s
  · exact (updPort ..).trans (lineBack ..)

theorem evictLine (p : Nat) (l : SLine) : s.BlkRegsKept (s.evictLine p l) :=
  have hroom : s.BlkRegsKept (s.evictRoom p) := ite (refl s) (evictOldest ..)
  ite ((hroom.trans (updPort ..)).trans (count ..)) (refl s)

theorem scDisable (p : Nat) : s.BlkRegsKept (s.scDisable p) := 
  (foldl (s.port p).lines (fun t l => t.evictLine p l) fun t l => evictLine t p l).trans (of_regs rfl)

end State.BlkRegsKept

end Sys2Proof.Machine
end

section
/-! PROOFS. The cache controls (R360 to R362) and maintenance through registers (R367). -/

namespace Sys2Proof.Machine

section
variable (s : State)

/-! ## Host writes to `BLK_CACHE_CTL` (R8, R463, R472) -/

theorem cacheCtl_rw : (regAt 0x00060).rw = fieldMask 7 0 := by decide

theorem cacheBit_le (c : CacheSel) : cacheBit c ≤ 7 := by
  cases c with
  | node | desk => decide
  | stack p => have := p.isLt; simp only [cacheBit]; omega

/-- The parity of a register written is kept with the registers; nothing else changes. -/
theorem State.parityWrite_frame (off : Nat) : { s.parityWrite off with regs := s.regs, parBad := s.parBad } = s := by
  unfold State.parityWrite
  dsimp only
  split
  · rfl
  · split <;> rfl

theorem State.hostSet_cacheCtl (v : Word) : s.hostSet 0x00060 v
    = (s.setReg 0x00060 ((s.reg 0x00060 &&& ~~~fieldMask 7 0) ||| (v &&& fieldMask 7 0))).parityWrite 0x00060 := by
  have hne : (regAt 0x00060).rw ≠ 0 := by decide
  have hpage : pageOf (offPage 0x00060) = some (.blk, 0) := rfl
  simp only [State.hostSet, hne, if_false, hpage]
  rw [cacheCtl_rw]

theorem State.hostSet_cacheCtl_frame (v : Word) : { s.hostSet 0x00060 v with regs := s.regs, parBad := s.parBad } = s := by
  rw [State.hostSet_cacheCtl]
  exact congrArg (fun t : State => { t with regs := s.regs }) (State.parityWrite_frame ..)

/-- The enable bits take the value written. -/
theorem State.rd_hostSet_cacheCtl (v : Word) {hi lo : Nat} (h : hi ≤ 7) : (s.hostSet 0x00060 v).rd ⟨0x00060, hi, lo⟩ = field v hi lo := by
  have hreg : (s.hostSet 0x00060 v).reg 0x00060 = (s.reg 0x00060 &&& ~~~fieldMask 7 0) ||| (v &&& fieldMask 7 0) := by
    rw [State.hostSet_cacheCtl, State.reg_parityWrite_other _ (by decide), State.reg_setReg_same]
  rw [State.rd, hreg]
  exact field_written _ _ h (Nat.zero_le lo) (Nat.lt_of_le_of_lt h (by decide))

/-- Other registers stay, the page's arms too while its `CFG` arm is clear. -/
theorem State.reg_hostSet_cacheCtl_other (v : Word) {j : Nat} (hj : j ≠ 0x00060) (harm : j = 0x00010 → s.armed ⟨0x00010, 31, 31⟩ = false) :
    (s.hostSet 0x00060 v).reg j = s.reg j := by
  rw [State.hostSet_cacheCtl]
  by_cases h10 : j = 0x00010
  · rw [State.reg_congr (State.parityWrite_regs _ ?clear), State.reg_setReg_other _ _ _ _ hj]
    case clear => rw [State.armed, State.flag, State.rd, State.reg_setReg_other _ _ _ _ (by decide)]; exact harm h10
  · rw [State.reg_parityWrite_other _ h10, State.reg_setReg_other _ _ _ _ hj]

/-- The state once a write of `BLK_CACHE_CTL` that keeps the enable bits is taken. -/
def State.ctlTaken : State := s.hostSet 0x00060 (s.reg 0x00060)

theorem State.cacheCtl_opens (f : State → State) (ho : s.opens 0x00060 = true) : s.cacheCtl f = f s.ctlTaken := State.guardWrite_opens _ _ _ ho

theorem State.ctlTaken_frame : { s.ctlTaken with regs := s.regs, parBad := s.parBad } = s := s.hostSet_cacheCtl_frame _

@[simp] theorem State.ctlTaken_gate : s.ctlTaken.gate = s.gate := by
  have h := congrArg State.gate s.ctlTaken_frame
  exact h

@[simp] theorem State.ctlTaken_port (p : Nat) : s.ctlTaken.port p = s.port p := by
  have h := congrArg (fun t : State => t.port p) s.ctlTaken_frame
  exact h

/-- `BLK_CACHE_CTL` itself is as before. -/
@[simp] theorem State.reg_ctlTaken_same : s.ctlTaken.reg 0x00060 = s.reg 0x00060 := by
  have hall : ~~~fieldMask 7 0 ||| fieldMask 7 0 = BitVec.allOnes 32 := by decide
  rw [State.ctlTaken, State.hostSet_cacheCtl, State.reg_parityWrite_other _ (by decide), State.reg_setReg_same,
    ← BitVec.and_or_distrib_left, hall, BitVec.and_allOnes]

@[simp] theorem State.rd_ctlTaken (hi lo : Nat) : s.ctlTaken.rd ⟨0x00060, hi, lo⟩ = s.rd ⟨0x00060, hi, lo⟩ := by
  simp [State.rd]

@[simp] theorem State.flag_ctlTaken (hi lo : Nat) : s.ctlTaken.flag ⟨0x00060, hi, lo⟩ = s.flag ⟨0x00060, hi, lo⟩ := by
  simp [State.flag]

/-- The arm of R510 that refuses an enable stands on the `ERR` page. -/
@[simp] theorem State.armed_ctlTaken_refused : s.ctlTaken.armed Fld.errInjectEnableRefused = s.armed Fld.errInjectEnableRefused := by
  have hreg : s.ctlTaken.reg Fld.errInjectEnableRefused.off = s.reg Fld.errInjectEnableRefused.off :=
    s.reg_hostSet_cacheCtl_other _ (by decide) fun h => absurd h (by decide)
  rw [State.armed, State.armed, State.flag, State.flag, State.rd, State.rd, hreg]

@[simp] theorem State.invalidated_ctlTaken (c : CacheSel) : s.ctlTaken.invalidated c = s.invalidated c := by
  cases c <;> simp [State.invalidated]

/-! ## Invalidate-all (R360) -/

theorem SMap.find_mapValues {α β : Type} (f : α → β) (m : SMap α) (n : Nat) :
    SMap.find (m.map fun x => (x.1, f x.2)) n = (SMap.find m n).map f := by
  induction m with
  | nil => rfl
  | cons x m ih =>
    obtain ⟨k, a⟩ := x
    simp only [List.map_cons, SMap.find, ih]
    split <;> rfl

/-- A table of districts changed throughout by a function that leaves a district at reset alone. -/
theorem State.dist_mapValues {t : State} (f : District → District) (hf : f District.reset = District.reset)
    (ht : t.dists = s.dists.map fun x => (x.1, f x.2)) (d : Nat) : t.dist d = f (s.dist d) := by
  simp only [State.dist, SMap.get, ht, SMap.find_mapValues]
  cases SMap.find s.dists d with
  | none => exact hf.symm
  | some x => rfl

theorem State.desk_dcInvalAll (d : Nat) : (s.dcInvalAll.dist d).core.desk = [] := by
  rw [s.dist_mapValues (fun x => { x with core := { x.core with desk := [] } }) rfl rfl]

theorem State.ncache_ncInvalAll (d : Nat) : (s.ncInvalAll.dist d).ncache = [] := by
  rw [s.dist_mapValues (fun x => { x with ncache := [] }) rfl rfl]

theorem exec_dcInv (ho : s.opens 0x00060 = true) : exec .dcInv s = .next s.ctlTaken.dcInvalAll :=
  congrArg Host.Outcome.next (s.cacheCtl_opens _ ho)

theorem exec_ncInv (ho : s.opens 0x00060 = true) : exec .ncInv s = .next s.ctlTaken.ncInvalAll :=
  congrArg Host.Outcome.next (s.cacheCtl_opens _ ho)

theorem exec_scInv (p : Port) (ho : s.opens 0x00060 = true) : exec (.scInv p) s = .next (s.ctlTaken.scInvalAll p.val) :=
  congrArg Host.Outcome.next (s.cacheCtl_opens _ ho)

/-! ## Enabling (R361) -/

section
variable {c : CacheSel} (ho : s.opens 0x00060 = true) (harm : s.armed Fld.errInjectEnableRefused = false)
  (hoff : s.flag ⟨0x00060, cacheBit c, cacheBit c⟩ = false)
include ho harm hoff

theorem exec_cacheEnable_invalidated (hinv : s.invalidated c = true) : exec (.cacheEnable c) s
    = .next (s.ctlTaken.hostSet 0x00060 (putField (s.reg 0x00060) (cacheBit c) (cacheBit c) 1)) := by
  change execCacheEnable c s = _
  simp [execCacheEnable, s.cacheCtl_opens _ ho, hoff, harm, hinv]

theorem exec_cacheEnable_refused (hinv : s.invalidated c = false) : exec (.cacheEnable c) s = .next s.ctlTaken.enableRefused := by
  change execCacheEnable c s = _
  simp [execCacheEnable, s.cacheCtl_opens _ ho, hoff, harm, hinv]

end

/-- An enable bit written by the host reads as written. -/
theorem State.rd_hostSet_enable (w : Word) (c : CacheSel) {v : Nat} (hv : v < 2) :
    (s.hostSet 0x00060 (putField w (cacheBit c) (cacheBit c) v)).rd ⟨0x00060, cacheBit c, cacheBit c⟩ = v := by
  have hbit := cacheBit_le c
  rw [s.rd_hostSet_cacheCtl _ hbit, field_putField _ _ _ _ (Nat.le_refl _) (by omega), Nat.add_sub_cancel_left]
  exact Nat.mod_eq_of_lt (by omega)

theorem State.reg_enableRefused_outside {j : Nat} (hj : offPage j ≠ 14) :
    s.enableRefused.reg j = (s.wr Fld.blkCacheCtlEnableRefused 1).reg j := State.reg_errBit_outside _ _ _ hj

/-- A refused enable leaves the enable bits, and is reported (R361). -/
theorem State.rd_enableRefused_bit (c : CacheSel) :
    s.enableRefused.rd ⟨0x00060, cacheBit c, cacheBit c⟩ = s.rd ⟨0x00060, cacheBit c, cacheBit c⟩ := by
  have hbit := cacheBit_le c
  rw [State.rd, s.reg_enableRefused_outside (show offPage 0x00060 ≠ 14 by decide)]
  exact State.rd_wr_beside _ Fld.blkCacheCtlEnableRefused ⟨0x00060, cacheBit c, cacheBit c⟩ 1 rfl (by simp only; omega)
    (.inl (by simp only [Fld.blkCacheCtlEnableRefused]; omega))

theorem State.rd_enableRefused_flag : s.enableRefused.rd Fld.blkCacheCtlEnableRefused = 1 := by
  rw [State.rd, s.reg_enableRefused_outside (by decide)]
  exact State.rd_wr_same _ _ 1 (Nat.le_refl _) (by decide)

theorem State.rd_enableRefused_status : s.enableRefused.rd ⟨0x0E040, 3, 3⟩ = 1 := State.rd_errBit_same _ _ (by decide)

theorem State.rd_of_flag_false {f : Fld} (h : s.flag f = false) : s.rd f = 0 := by simpa [State.flag] using h

/-! ## Disabling (R362) -/

/-- What a cache does once its enable bit has been cleared. -/
def State.disabled (c : CacheSel) : State :=
  match c with
  | .node => { s with gate := { s.gate with ncInv := false } }
  | .desk => { s with gate := { s.gate with dcInv := false } }
  | .stack p => s.scDisable p.val

theorem exec_cacheDisable {c : CacheSel} (ho : s.opens 0x00060 = true) (hon : s.flag ⟨0x00060, cacheBit c, cacheBit c⟩ = true) :
    exec (.cacheDisable c) s
      = .next ((s.ctlTaken.hostSet 0x00060 (putField (s.reg 0x00060) (cacheBit c) (cacheBit c) 0)).disabled c) := by
  change execCacheDisable c s = _
  cases c <;> simp [execCacheDisable, s.cacheCtl_opens _ ho, hon, State.disabled]

theorem State.BlkRegsKept.disabled (c : CacheSel) : s.BlkRegsKept (s.disabled c) := by
  cases c with
  | node | desk => exact of_regs rfl
  | stack p => exact scDisable s p.val

theorem State.invalidated_disabled (c : CacheSel) : (s.disabled c).invalidated c = false := by
  cases c with
  | node | desk => rfl
  | stack p => simp [State.disabled, State.invalidated, State.scDisable]

/-! ## The register path of maintenance (R367) -/

@[simp] theorem State.setBit_mop (f : Fld) (pg : Nat) : (s.setBit f pg).gate.mop = s.gate.mop := by
  unfold State.setBit
  dsimp only
  split <;> rfl

/-- The state with an operation of the register path under way. -/
def State.mopUnderWay (m : Nat × Nat × Nat × Nat) : State :=
  { s.wr Fld.blkMopCmdBusy 1 with gate := { (s.wr Fld.blkMopCmdBusy 1).gate with mop := some m } }

theorem State.rd_mopUnderWay_busy (m : Nat × Nat × Nat × Nat) : (s.mopUnderWay m).rd Fld.blkMopCmdBusy = 1 :=
  (State.rd_congr rfl _).trans (s.rd_wr_same Fld.blkMopCmdBusy 1 (Nat.le_refl _) (by decide))

theorem State.mopUnderWay_mop (m : Nat × Nat × Nat × Nat) : (s.mopUnderWay m).gate.mop = some m := rfl
theorem State.mopUnderWay_scene (m : Nat × Nat × Nat × Nat) : (s.mopUnderWay m).scene = s.scene := rfl
theorem State.mopUnderWay_stk (m : Nat × Nat × Nat × Nat) : (s.mopUnderWay m).stk = s.stk := rfl

/-- An operation taken makes `BUSY` read 1 and is what the Gate has under way; it acts at once. -/
theorem State.mop_opens {op : MaintOp} {code : Nat} {target : BitVec 4} {u : State} (hu : s.hostSet 0x00070 (BitVec.ofNat 32 (target.toNat * 256)) = u)
    (ho : s.opens 0x00070 = true) (hhalt : s.halted .blk = false) (hfree : s.flag Fld.blkMopCmdBusy = false) (hrange : u.mopRange.lo < u.mopRange.hi) :
    s.mop op code target = (u.maint op target.toNat u.mopRange).mopUnderWay (code, target.toNat, u.mopRange.lo, u.mopRange.hi) := by
  rw [State.mop, State.guardWrite_opens _ _ _ ho]
  simp only [hhalt, hfree, hu, Nat.not_le.mpr hrange, Bool.false_eq_true, if_false, State.mopUnderWay]

theorem exec_mopComplete (hbusy : s.flag Fld.blkMopCmdBusy = true) (hfree : s.resetHolds = false) :
    exec .mopComplete s = .next ((State.wr { s with gate := { s.gate with mop := none } } Fld.blkMopCmdBusy 0).status 0 1) := by
  change execMopComplete s = _
  simp [execMopComplete, hbusy, hfree]

end

end Sys2Proof.Machine
end

section
/-! PROOFS. Stack ports at work (R346 to R349, R352, R356, R359) and the scene aperture (R363). -/

namespace Sys2Proof.Machine

section
variable (s : State) {p : Port}

/-! ## Fills, evictions, prefetches, scrub reads -/

section
variable {st : Fin 1024} {addr : BitVec 40} (hup : s.phase = .up) (hport : (s.port p.val).inResetP = false)
  (hserves : (s.portAt (addr.toNat / 64 * 64)).map (·.1) = some p.val)
include hup hport hserves

theorem exec_stackFill_read (hmiss : (s.port p.val).misses.find? (fun m => decide (m.stream = st.val) && decide (m.addr = addr.toNat / 64 * 64)) = none) :
    exec (.stackFill p st addr) s = .next (s.sectorRead st.val (addr.toNat / 64 * 64)).1.apGo := by
  change execStackFill p st addr s = _
  simp only [execStackFill, hup, hport, hserves, hmiss, ne_eq, not_true_eq_false, decide_false, Bool.or_self, Bool.false_eq_true, if_false]

theorem exec_stackFill_pending {m : Miss}
    (hmiss : (s.port p.val).misses.find? (fun m => decide (m.stream = st.val) && decide (m.addr = addr.toNat / 64 * 64)) = some m) :
    exec (.stackFill p st addr) s = .next (s.fill p.val m).apGo := by
  change execStackFill p st addr s = _
  simp only [execStackFill, hup, hport, hserves, hmiss, ne_eq, not_true_eq_false, decide_false, Bool.or_self, Bool.false_eq_true, if_false]

end

theorem exec_evictionWrite (hport : (s.port p.val).inResetP = false) : exec (.evictionWrite p) s = .next (s.evictOldest p.val) := by
  change execEvictionWrite p s = _
  simp [execEvictionWrite, hport]

section
variable (hpar : s.parBad = []) (hactive : s.active = true) (hpresent : s.present p.val = true) (hport : (s.port p.val).inResetP = false)
include hpar hactive hpresent hport

theorem exec_prefetch (st : Fin 1024) (hon : s.scOn p.val = true) : exec (.prefetch p st) s = .next (s.prefetchStream p.val st.val) := by
  change execPrefetch p st s = _
  simp [execPrefetch, s.checkPages_of_clean hpar, s.halted_of_clean hpar, hactive, hpresent, hon, hport]

theorem exec_scrubRead (hdim : s.dimming = false) (hrate : (s.port p.val).scrubs < s.rd (Fld.stkScrubRate p.val)) :
    exec (.scrubRead p) s = .next (s.scrub p.val) := by
  change execScrubRead p s = _
  simp [execScrubRead, s.checkPages_of_clean hpar, s.halted_of_clean hpar, hactive, hpresent, hport, hdim, Nat.not_le.mpr hrate]

end

theorem exec_stackRefresh (hpresent : s.present p.val = true) :
    exec (.stackRefresh p) s = .next (s.updPort p.val (fun x => { x with scrubs := 0, refresh := x.refresh + 1 })) := by
  change execStackRefresh p s = _
  simp [execStackRefresh, hpresent]

/-! ## The aperture -/

theorem State.aperture_opens (f : State → State) (hup : s.phase = .up) (hrung : s.rd Fld.blkRungCurrent < 3) : s.aperture f = f s := by
  simp [State.aperture, hup, Nat.not_le.mpr hrung]

theorem State.apFinish_idle (f : ApRead → Bool) (fuel : Nat) (hidle : s.gate.apWait = []) : s.apFinish f fuel = s := by
  cases fuel with
  | zero => rfl
  | succ k => simp only [State.apFinish, hidle, List.filter_nil]

/-- A host read gone on from its next byte: returned with all its bytes, or waiting again. -/
def State.apResume (r : ApRead) : State :=
  let q := s.apStep r (r.len / 64 + 2)
  if q.2.addr + q.2.len ≤ q.2.next then q.1.apReturn q.2 else { q.1 with gate := { q.1.gate with apWait := q.1.gate.apWait ++ [q.2] } }

section
variable {r r' : ApRead} {t : State} (hstep : s.apStep r (r.len / 64 + 2) = (t, r'))
include hstep

theorem State.apResume_whole (hall : r'.addr + r'.len ≤ r'.next) : s.apResume r = t.apReturn r' := by
  simp only [State.apResume, hstep, hall, if_true]

theorem State.apResume_waits (hmore : r'.next < r'.addr + r'.len) :
    s.apResume r = { t with gate := { t.gate with apWait := t.gate.apWait ++ [r'] } } := by
  simp only [State.apResume, hstep, Nat.not_le.mpr hmore, if_false]

end

theorem State.apGo_single {r : ApRead} (hidle : s.gate.apWait = []) :
    State.apGo { s with gate := { s.gate with apWait := s.gate.apWait ++ [r] } } = s.apResume r := by
  have hgone : dropFirst (fun y => decide (y = r)) [r] = [] := by simp [dropFirst]
  have hback : ({ s with gate := { s.gate with apWait := [] } } : State) = s := by rw [← hidle]
  simp only [State.apGo, hidle, List.nil_append, List.foldl_cons, List.foldl_nil, hgone, hback, State.apResume]

section
variable {a : ApertureAt} (hup : s.phase = .up) (hrung : s.rd Fld.blkRungCurrent < 3) (hidle : s.gate.apWait = [])
include hup hrung hidle

theorem exec_apertureRead {len : Nat} (hin : a.addr.toNat + len ≤ s.installed) : exec (.apertureRead a len) s
    = .next (s.apResume { tag := a.tag, addr := a.addr.toNat, len := len, next := a.addr.toNat, got := [], poison := false }) := by
  change execApertureRead a len s = _
  simp only [execApertureRead, s.aperture_opens _ hup hrung, s.apFinish_idle _ _ hidle, if_false, s.apGo_single hidle, Nat.not_lt.mpr hin]

theorem exec_apertureWrite {data : List Byte} (hin : a.addr.toNat + data.length ≤ s.installed) :
    exec (.apertureWrite a data) s = .next (s.sceneWrite (streamHost a.tag) a.addr.toNat data) := by
  have hinside : min data.length (s.installed - a.addr.toNat) = data.length := by omega
  change execApertureWrite a data s = _
  simp only [execApertureWrite, s.aperture_opens _ hup hrung, s.apFinish_idle _ _ hidle, if_false, hinside, List.take_length, Nat.lt_irrefl]

end

end

/-- Settles O28, command by command. -/
theorem cacheCommandsComplete : Obligations.CacheCommandsComplete := by
  intro s
  refine ⟨?fill, ?evict, ?prefetch, ?scrub, ?refresh, ?apRead, ?apWrite, ?mop, ?mopDone, ?dcInv, ?ncInv, ?scInv, ?enable, ?refused, ?disable⟩
  case fill => exact fun p st addr hup hport hserves =>
    ⟨fun hmiss => exec_stackFill_read s hup hport hserves hmiss, fun m hmiss => exec_stackFill_pending s hup hport hserves hmiss⟩
  case evict => exact fun p hport => exec_evictionWrite s hport
  case prefetch => exact fun p st hpar hactive hpresent hon hport => exec_prefetch s hpar hactive hpresent hport st hon
  case scrub => exact fun p hpar hactive hpresent hport hdim hrate => exec_scrubRead s hpar hactive hpresent hport hdim hrate
  case refresh =>
    intro p hpresent
    refine ⟨_, exec_stackRefresh s hpresent, ?_, ?_, fun q hq => State.port_setPort_other _ _ _ _ hq, rfl⟩ <;> rw [State.port_updPort_same]
  case apRead =>
    intro a len t r hup hrung hin hidle hstep
    have hexec := exec_apertureRead s hup hrung hidle hin
    exact ⟨fun hall => hexec.trans (congrArg _ (s.apResume_whole hstep hall)), fun hmore => hexec.trans (congrArg _ (s.apResume_waits hstep hmore))⟩
  case apWrite => exact fun a data hup hrung hin hidle => exec_apertureWrite s hup hrung hidle hin
  case mop =>
    intro target i op code hi ho hhalt hfree hrange
    have hexec : exec i s = .next (s.mop op code target) := by
      rcases hi with hi | hi | hi | hi <;> cases hi <;> rfl
    exact ⟨_, hexec.trans (congrArg _ (s.mop_opens rfl ho hhalt hfree hrange)), State.rd_mopUnderWay_busy .., State.mopUnderWay_mop ..,
      State.mopUnderWay_scene .., State.mopUnderWay_stk ..⟩
  case mopDone =>
    intro hbusy hfree
    refine ⟨_, exec_mopComplete s hbusy hfree, ?_, State.setBit_mop .., State.rd_setBit_same _ _ _ rfl (by decide)⟩
    rw [State.rd, State.status, State.reg_setBit_other _ _ _ _ (by decide)]
    exact State.rd_wr_same _ Fld.blkMopCmdBusy 0 (Nat.le_refl _) (by decide)
  case dcInv => exact fun ho => ⟨_, exec_dcInv s ho, rfl, State.desk_dcInvalAll _⟩
  case ncInv => exact fun ho => ⟨_, exec_ncInv s ho, rfl, State.ncache_ncInvalAll _⟩
  case scInv =>
    intro p ho
    refine ⟨_, exec_scInv s p ho, ?_, ?_, ?_, fun q hq => (State.port_setPort_other _ _ _ _ hq).trans (s.ctlTaken_port q)⟩
    all_goals simp [State.scInvalAll]
  case enable =>
    intro c ho harm hcfg hoff hinv
    refine ⟨_, exec_cacheEnable_invalidated s ho harm hoff hinv, State.rd_hostSet_enable _ _ c (by decide), fun j hj => ?_⟩
    have hkept {k : Nat} (hk : k ≠ 0x00060) : s.ctlTaken.reg k = s.reg k := s.reg_hostSet_cacheCtl_other _ hk fun _ => hcfg
    rw [State.reg_hostSet_cacheCtl_other _ _ hj, hkept hj]
    intro _
    rwa [State.armed, State.flag, State.rd, hkept (by decide)]
  case refused =>
    intro c ho harm hoff hinv
    refine ⟨_, exec_cacheEnable_refused s ho harm hoff hinv, ?_, State.rd_enableRefused_flag _, State.rd_enableRefused_status _⟩
    rw [State.rd_enableRefused_bit, State.rd_ctlTaken, s.rd_of_flag_false hoff]
  case disable =>
    intro c ho hon
    refine ⟨_, exec_cacheDisable s ho hon, ?_, State.invalidated_disabled _ c⟩
    rw [(State.BlkRegsKept.disabled _ c).rd (show offPage 0x00060 = 0 by decide)]
    exact State.rd_hostSet_enable _ _ c (by decide)

end Sys2Proof.Machine
end

section
/-! PROOFS. Charges to the accounts (R379, R381, R382) and the voltage code requested (R399, R400). -/

namespace Sys2Proof.Machine

/-! ## What leaves the accounts alone -/

/-- A report leaves the Counting House. -/
theorem State.ReportKept.house {s t : State} (h : s.ReportKept t) : t.house = s.house := by
  have hf := congrArg State.house h.frame
  exact hf

theorem State.account_congr {s t : State} (h : t.house = s.house) (cls : Bool) (i : Nat) : t.account cls i = s.account cls i := by
  rw [State.account, State.account, h]

section
variable (s : State)

@[simp] theorem State.account_debtReport (cls : Bool) (i : Nat) : s.debtReport.account cls i = s.account cls i :=
  State.account_congr (State.ReportKept.report s _ _ _ _).house cls i

@[simp] theorem State.account_updTally (b : Bid) (f : Batch → Batch) (cls : Bool) (i : Nat) : (s.updTally b f).account cls i = s.account cls i := by
  cases hb : s.batch b with
  | none => simp only [State.updTally, hb]
  | some x => exact State.account_congr (s.updTally_kept f hb).house cls i

/-! ## Charges (R379, R381, R382) -/

/-- An account lowered by `n` whole beads, of which `left` at most were committed (R381, R382). -/
def Account.lowered (a : Account) (n left : Nat) : Account :=
  { bal := sat48 (a.bal - n), cmt := sat48 (a.cmt - (min n left : Nat)) }

/-- A charge to one account sets it, lowered; the report of a debt changes no account. -/
theorem State.account_chargeOne (cls : Bool) (i n left : Nat) (kind : Bool) (j : Nat) :
    (s.chargeOne cls i n left).account kind j = (s.setAccount cls i ((s.account cls i).lowered n left)).account kind j := by
  unfold State.chargeOne
  dsimp only
  split
  · exact State.account_debtReport ..
  · rfl

@[simp] theorem State.batch_chargeOne (cls : Bool) (i n left : Nat) (b : Bid) : (s.chargeOne cls i n left).batch b = s.batch b := by
  have hset (a : Account) : (s.setAccount cls i a).batch b = s.batch b := by cases cls <;> rfl
  unfold State.chargeOne
  dsimp only
  split
  · exact ((State.ReportKept.report _ _ _ _ _).batch b).trans (hset _)
  · exact hset _

/-- A charge of a batch in the tenants' accounts: the charge to the class account is not seen there. -/
theorem State.account_charge_tenants (x : Batch) (n j : Nat) : (s.charge x n).account false j
    = (s.setAccount false x.tenant ((s.account false x.tenant).lowered ((x.frac + n) / 256) x.cmtLeft)).account false j := by
  simp only [State.charge, State.account_updTally]
  rw [State.account_chargeOne _ true]
  exact (State.account_setAccount_kind _ true ..).trans (State.account_chargeOne ..)

/-- A charge of a batch in the classes' accounts: the charge to the tenant's account came before it and is not seen there. -/
theorem State.account_charge_classes (x : Batch) (n j : Nat) : (s.charge x n).account true j
    = (s.setAccount true x.cls ((s.account true x.cls).lowered ((x.frac + n) / 256) x.cmtLeft)).account true j := by
  have htenant (i : Nat) : (s.chargeOne false x.tenant ((x.frac + n) / 256) x.cmtLeft).account true i = s.account true i :=
    (State.account_chargeOne ..).trans (State.account_setAccount_kind _ false ..)
  simp only [State.charge, State.account_updTally]
  rw [State.account_chargeOne, htenant]
  by_cases hj : j = x.cls
  · rw [hj, State.account_setAccount_same, State.account_setAccount_same]
  · rw [State.account_setAccount_other _ _ _ hj, State.account_setAccount_other _ _ _ hj, htenant]

/-- The batch charged counts its beads, carries the part of a bead left and has less of its estimate to come. -/
theorem State.batch_charge {x : Batch} (n : Nat) (h : s.batch x.bid = some x) : (s.charge x n).batch x.bid
    = some { x with beads := x.beads + (x.frac + n) / 256, frac := (x.frac + n) % 256, cmtLeft := x.cmtLeft - (x.frac + n) / 256 } := by
  simp only [State.charge]
  rw [(State.updTally_kept _ _ (by simpa using h)).batch]
  exact State.batch_updBatch_same _ _ _ x (by simpa using h) rfl

end

/-- Settles O55, account by account. -/
theorem chargesLowerAccounts : Obligations.ChargesLowerAccounts := by
  rintro s x n k rfl
  refine ⟨?tenant, ?cls, fun j hj => ?otherTenants, fun j hj => ?otherClasses, fun hx => ⟨_, s.batch_charge n hx, rfl, rfl, rfl⟩⟩
  case tenant => exact (s.account_charge_tenants x n _).trans (State.account_setAccount_same ..)
  case cls => exact (s.account_charge_classes x n _).trans (State.account_setAccount_same ..)
  case otherTenants => exact (s.account_charge_tenants x n j).trans (State.account_setAccount_other _ _ _ hj)
  case otherClasses => exact (s.account_charge_classes x n j).trans (State.account_setAccount_other _ _ _ hj)

/-! ## The voltage code (R400) -/

/-- Settles O44: with no halted page and the codes at most 70 the model's cuts at 70 change nothing. -/
theorem voltageRequested : Obligations.VoltageRequested := by
  intro s dim hpage htarget hmin
  have hcode (hrung : s.rd Fld.blkRungCurrent ≤ 1) : s.voltCode dim
      = min (s.rd Fld.pwrVsetTarget) (max (s.rd Fld.pwrVsetVmin) (s.rd Fld.pwrVsetTarget - dim * s.rd Fld.pwrVsetStep)) := by
    simp only [State.voltCode, hpage, Bool.false_eq_true, if_false, Nat.not_le.mpr (Nat.lt_succ_of_le hrung), Nat.min_eq_right htarget, Nat.min_eq_right hmin]
  refine ⟨hcode, fun hrung => ?_, fun hrung => ?_⟩
  · simp [State.voltCode, hpage, hrung]
  · rw [hcode hrung]
    exact Nat.le_min.mpr ⟨Nat.min_le_left .., (Nat.min_le_right ..).trans (Nat.le_max_left ..)⟩

end Sys2Proof.Machine
end

section
/-! PROOFS. The rungs of the block and of its districts, and the states of the links (R408 to R413, R443, R448). -/

namespace Sys2Proof.Machine

section
variable (s : State)

/-! ## The block's rung (R409 to R411, R443) -/

theorem State.rungHeld_of_clean (h : s.parBad = []) : s.rungHeld = false := by
  simp [State.rungHeld, s.halted_of_clean h]

/-- `BLK_RUNG_WRITE` of a rung there is, while the rung does not hold (R409). -/
theorem exec_blkRungWrite {v : Word} (ho : s.opens 0x00050 = true) (hv : field v 2 0 ≤ 4) (hfree : (s.hostSet 0x00050 v).rungHeld = false) :
    exec (.blkRungWrite v) s = .next (let u := s.hostSet 0x00050 v
      if field v 2 0 < u.rd Fld.blkRungCurrent then u.wakeTo (field v 2 0)
      else if field v 2 0 = u.rd Fld.blkRungCurrent then u.wr Fld.blkRungWaiting 0
      else u.wr Fld.blkRungWaiting (b2n (decide (3 ≤ field v 2 0) && !u.dozeReady))) := by
  change execBlkRungWrite v s = _
  simp only [execBlkRungWrite, State.guardWrite_opens _ _ _ ho, Nat.not_lt.mpr hv, if_false, hfree, Bool.false_eq_true]

/-- `BLOCK_RUNG_ENTRY` of a block that is quiet (R410). -/
theorem exec_blockRungEntry (hpar : s.parBad = []) (hup : s.phase = .up) (hdeeper : s.rd Fld.blkRungCurrent < s.rd Fld.blkRungTarget)
    (hready : s.rd Fld.blkRungTarget < 3 ∨ s.dozeReady = true) (hquiet : s.quiesced = true) :
    exec .blockRungEntry s = .next (s.enterRung (s.rd Fld.blkRungTarget)) := by
  have hother : s.rd Fld.blkRungTarget ≠ s.rd Fld.blkRungCurrent := Nat.ne_of_gt hdeeper
  have hnot : ¬ (3 ≤ s.rd Fld.blkRungTarget ∧ s.dozeReady = false) := by
    rintro ⟨hdoze, hbusy⟩
    rcases hready with h | h
    · omega
    · simp [hbusy] at h
  change execBlockRungEntry s = _
  simp [execBlockRungEntry, s.checkPages_of_clean hpar, s.rungHeld_of_clean hpar, hup, hother, Nat.not_lt.mpr hdeeper.le, hnot, hquiet]

/-- `BLOCK_WAKE` that something has asked for (R411). -/
theorem exec_blockWake {w : Wake} (hpar : s.parBad = []) (hdown : s.rd Fld.blkRungCurrent ≠ 0) (hasked : s.wakeAsked w = true) :
    exec (.blockWake w) s = .next ((State.wr { s with gate := { s.gate with held := none } } Fld.blkRungTarget 0).wakeTo 0) := by
  change execBlockWake w s = _
  simp [execBlockWake, s.checkPages_of_clean hpar, s.rungHeld_of_clean hpar, hdown, hasked]

/-- `POK_MAIN_RISE` (R443): `POK_MAIN` is high, and a wake from Deep that waits for it goes on. -/
theorem exec_pokMainRise : exec .pokMainRise s = .next
    (if s.rd Fld.blkRungCurrent = 4 ∧ s.power.rungOut = 3 ∧ s.rungHeld = false
      then State.wakeTo { s with power := { s.power with pokMain := true } } (s.rd Fld.blkRungTarget)
      else { s with power := { s.power with pokMain := true } }) := rfl

/-! ## The links (R448) -/

/-- A change of `LSTATE` sets its status bit (R448, R482). -/
theorem State.setLink_changes {v : Nat} (hv : v < 8) (hnew : s.rd Fld.lnkLinkLstate ≠ v) :
    (s.setLink v).rd Fld.lnkLinkLstate = v ∧ (s.setLink v).rd (Fld.status 1 3) = 1 := by
  rw [State.setLink, if_neg hnew]
  refine ⟨?_, State.rd_setBit_same _ _ _ rfl (by decide)⟩
  rw [State.rd, State.status, State.reg_setBit_other _ _ _ _ (by decide)]
  exact (State.rd_wr_same _ Fld.lnkLinkLstate v (by decide) (by decide)).trans (Nat.mod_eq_of_lt hv)

/-- `HOST_LINK_L1_ENTRY` of an idle link in Nap. -/
theorem exec_hostLinkL1Entry (hnap : s.rd Fld.blkRungCurrent = 2) (hl0 : s.rd Fld.lnkLinkLstate = 2) (hidle : s.hostWr = []) :
    exec .hostLinkL1Entry s = .next (s.setLink 3) := congrArg Host.Outcome.next (if_pos ⟨hnap, hl0, hidle⟩)

/-- `LINK_STATE_EXIT` of the host link. -/
theorem exec_linkStateExit_host (hlow : s.rd Fld.lnkLinkLstate = 3 ∨ s.rd Fld.lnkLinkLstate = 4) :
    exec (.linkStateExit false) s = .next (s.setLink 2) := congrArg Host.Outcome.next (if_pos hlow)

/-- `LINK_STATE_EXIT` of the twin link. -/
theorem exec_linkStateExit_twin (hlow : s.twin.lstate = 3 ∨ s.twin.lstate = 4) :
    exec (.linkStateExit true) s = .next { s with twin := { s.twin with lstate := 2 } } := congrArg Host.Outcome.next (if_pos hlow)

/-! ## A district's own rung (R413) -/

/-- `DST_RUNG_WRITE` served (R413). -/
theorem exec_dstRungWrite {d : Dist} {v : Word} (ho : s.opens (pageReg .dst d.val 0x068) = true) : exec (.dstRungWrite d v) s
    = .next (let u := s.hostSet (pageReg .dst d.val 0x068) v
             let c := u.rd (Fld.dstRungCurrent d.val)
             State.setReason (if field v 1 0 < c then (u.leaveRung d.val c).wr (Fld.dstRungCurrent d.val) (if field v 1 0 = 2 then 2 else 0) else u)
               d.val rsRung (decide (2 ≤ field v 1 0))) := congrArg Host.Outcome.next (State.guardWrite_opens _ _ _ ho)

/-- `DISTRICT_RUNG_ENTRY` into Nap of a district drained, its heap and its core empty. -/
theorem exec_districtRungEntry_nap {d : Dist} (hup : s.phase = .up) (hrun : (s.dist d.val).inReset = false) (hnap : s.rd (Fld.dstRungTarget d.val) = 2)
    (hdeeper : s.rd (Fld.dstRungCurrent d.val) < 2) (hdrained : (s.dist d.val).drained = true) (hheap : s.heapUsed d.val = 0)
    (hcore : (s.dist d.val).core.groups = []) : exec (.districtRungEntry d) s = .next (s.wr (Fld.dstRungCurrent d.val) 2) := by
  change execDistrictRungEntry d s = _
  simp [execDistrictRungEntry, hup, hrun, hnap, hdeeper, hdrained, hheap, hcore]

/-- `DISTRICT_RUNG_ENTRY` into Quiet of an idle district. -/
theorem exec_districtRungEntry_quiet {d : Dist} (hup : s.phase = .up) (hrun : (s.dist d.val).inReset = false) (hquiet : s.rd (Fld.dstRungTarget d.val) = 1)
    (hready : s.rd (Fld.dstRungCurrent d.val) = 0) (hidle : s.distIdle d.val = true) :
    exec (.districtRungEntry d) s = .next (s.wr (Fld.dstRungCurrent d.val) 1) := by
  change execDistrictRungEntry d s = _
  simp [execDistrictRungEntry, hup, hrun, hquiet, hready, hidle]

/-- `DISTRICT_QUIET_WAKE` for a message that has come to a district in Quiet. -/
theorem exec_districtQuietWake {d : Dist} {m : Msg} (hm : m ∈ s.msgs) (hdst : m.dst = d.val) (hhere : m.here = d.val)
    (hquiet : s.rd (Fld.dstRungCurrent d.val) = 1) : exec (.districtQuietWake d) s = .next (s.wr (Fld.dstRungCurrent d.val) 0) := by
  have hcome : s.msgs.any (fun m => decide (m.dst = d.val) && decide (m.here = d.val)) = true := List.any_eq_true.mpr ⟨m, hm, by simp [hdst, hhere]⟩
  change execDistrictQuietWake d s = _
  simp [execDistrictQuietWake, hcome, State.wakeDist, hquiet]

end

/-- Settles O31, one lemma for each command. -/
theorem rungCommandsComplete : Obligations.RungCommandsComplete := by
  intro s
  refine ⟨fun v => exec_blkRungWrite s, exec_blockRungEntry s, fun w => exec_blockWake s, ⟨_, exec_pokMainRise s, fun h => if_neg h, fun h => if_pos h⟩,
    ?l1, ?l0, exec_linkStateExit_twin s, fun d v => exec_dstRungWrite s, fun d => exec_districtRungEntry_nap s, fun d => exec_districtRungEntry_quiet s, ?wake⟩
  case l1 => exact fun hnap hl0 hidle => ⟨_, exec_hostLinkL1Entry s hnap hl0 hidle, s.setLink_changes (by decide) (by omega)⟩
  case l0 => exact fun hlow => ⟨_, exec_linkStateExit_host s hlow, s.setLink_changes (by decide) (by omega)⟩
  case wake =>
    exact fun d m hm hdst hhere hquiet => ⟨_, exec_districtQuietWake s hm hdst hhere hquiet,
      State.rd_wr_same _ (Fld.dstRungCurrent d.val) 0 (show 4 ≤ 5 by decide) (show 5 < 32 by decide), fun j hj => State.reg_wr_other _ _ _ _ hj⟩

end Sys2Proof.Machine
end

section
/-! PROOFS. The voltage handshake, heat and the watch rings (R399, R402 to R405, R505, R27, R29). The statement speaks of every state, and its
clause of the step ring fails where the table of districts lists a district twice: the memos that a closure discards (R163) put the entry
behind in the place of the one that was closed. In a table in order that clause holds (`State.stepRing_closes`); the other clauses hold in
every state, one lemma for each command. -/

namespace Sys2Proof.Machine

/-! ## A district listed twice -/

/-- Refutes O30: in `State.listedTwice` the step ring of district 0 expires, and `FAULT` is then clear in its reasons. -/
theorem not_powerCommandsComplete : ¬ Obligations.PowerCommandsComplete := by
  intro h
  have hwalk : State.listedTwice.walking 0 = true := by decide
  have hrung : State.listedTwice.rd (Fld.dstRungCurrent 0) = 0 := by decide
  have hring : 16 ≤ State.listedTwice.rd (Fld.dstWatchStep 0) := by decide
  have hclear : ((State.listedTwice.stepRing 0).dist 0).reasons.getLsbD rsFault = false := by decide
  obtain ⟨-, -, -, -, -, -, hstep, -⟩ := h State.listedTwice
  obtain ⟨-, hset⟩ := hstep 0 hwalk hrung hring
  exact Bool.false_ne_true (hclear.symm.trans (hset (by decide)).1)

section
variable (s : State)

/-! ## The supply voltage (R399) -/

/-- A code presented and the request raised, no arm set (R399 step 1). -/
def State.voltRaised : State :=
  ((State.count { s with power := { s.power with vreq := true } } unitPwr 0 1).wr Fld.pwrVstatusRequest (s.voltCode (s.rd Fld.pwrVstatusDim))).wr
    Fld.pwrVstatusPending 1

theorem State.voltRequest_unarmed (harm : s.armed Fld.pwrInjectVack = false) : s.voltRequest = s.voltRaised := by
  refine if_neg (Bool.eq_false_iff.mp ?_)
  rw [State.armed, State.flag, State.rd_wr_other _ _ _ _ (by decide), State.rd_wr_other _ _ _ _ (by decide)]
  exact harm

theorem State.rd_voltRaised_request : s.voltRaised.rd Fld.pwrVstatusRequest = s.voltCode (s.rd Fld.pwrVstatusDim) % 128 :=
  (State.rd_wr_beside _ Fld.pwrVstatusPending Fld.pwrVstatusRequest _ rfl (by decide) (by decide)).trans
    (State.rd_wr_same _ Fld.pwrVstatusRequest _ (by decide) (by decide))

/-- `VOLTAGE_REQUEST` while both lines are low and the `VACK` arm is clear (R399 step 1). -/
theorem exec_voltageRequest (hpar : s.parBad = []) (hreq : s.power.vreq = false) (hack : s.power.vack = false)
    (harm : s.armed Fld.pwrInjectVack = false) : ∃ t, exec .voltageRequest s = .next t ∧ t.power = { s.power with vreq := true }
    ∧ t.rd Fld.pwrVstatusRequest = s.voltCode (s.rd Fld.pwrVstatusDim) % 128 ∧ t.rd Fld.pwrVstatusPending = 1 := by
  refine ⟨s.voltRaised, ?_, rfl, s.rd_voltRaised_request, State.rd_wr_same _ Fld.pwrVstatusPending 1 (by decide) (by decide)⟩
  change execVoltageRequest s = _
  simp [execVoltageRequest, s.checkPages_of_clean hpar, s.halted_of_clean hpar, hreq, hack, s.voltRequest_unarmed harm]

/-- `VOLTAGE_ACK` of a request (R399 steps 2 and 3). -/
theorem exec_voltageAck (hreq : s.power.vreq = true) (hack : s.power.vack = false) : exec .voltageAck s = .next (State.dimAck
    (State.wr (State.wr { s with power := { s.power with vreq := false, vack := true } } Fld.pwrVstatusAcked (s.rd Fld.pwrVstatusRequest))
      Fld.pwrVstatusPending 0)) := congrArg Host.Outcome.next (if_pos (by simp [hreq, hack]))

/-- `VOLTAGE_ACK_FALL` once the request has fallen (R399 step 4). -/
theorem exec_voltageAckFall (hack : s.power.vack = true) (hreq : s.power.vreq = false) :
    exec .voltageAckFall s = .next { s with power := { s.power with vack := false, stuck := false } } :=
  congrArg Host.Outcome.next (if_pos (by simp [hreq, hack]))

/-! ## Watch rings that are on (R505) -/

theorem State.ringOn_of_le {f : Fld} (h : 16 ≤ s.rd f) : s.ringOn f = true := decide_eq_true h

theorem State.ringOn_of_lt {f : Fld} (h : s.rd f < 16) : s.ringOn f = false := decide_eq_false (Nat.not_le.mpr h)

/-- A report sets the bit of its page and that of `ERR_STATUS` (R502). -/
theorem State.rd_report {pg n e : Nat} (u : Nat) (hpg : pg ≠ 14) (hn : n < 32) (he : e < 32) :
    (s.report (some (pg, n)) (some e) u none).rd (Fld.status pg n) = 1 ∧ (s.report (some (pg, n)) (some e) u none).rd ⟨0x0E040, e, e⟩ = 1 := by
  have hoff : offPage (Fld.status pg n).off ≠ 14 := by
    simp only [offPage, Fld.status]
    omega
  refine ⟨?_, State.rd_errBit_same _ _ he⟩
  change ((s.status pg n).errBit e u).rd (Fld.status pg n) = 1
  rw [State.rd, State.reg_errBit_outside _ _ _ hoff]
  exact State.rd_setBit_same _ _ _ rfl hn

/-- `VACK_RING_EXPIRY` in an exchange not yet found stuck. -/
theorem exec_vackRingExpiry (hway : s.power.vreq = true ∨ s.power.vack = true) (hnew : s.power.stuck = false) (hring : 16 ≤ s.rd Fld.pwrWatchVack) :
    exec .vackRingExpiry s = .next s.vackStuck := congrArg Host.Outcome.next (if_pos (by simp [hway, hnew, s.ringOn_of_le hring]))

theorem State.vackStuck_reports : s.vackStuck.power = { s.power with stuck := true } ∧ s.vackStuck.rd (Fld.status 7 0) = 1
    ∧ s.vackStuck.rd ⟨0x0E040, 17, 17⟩ = 1 := ⟨State.report_power .., State.rd_report _ _ (by decide) (by decide) (by decide)⟩

/-- `SENSOR_READING` outside Deep (R403). -/
theorem exec_sensorReading {d : Dist} {r : BitVec 10} (hpar : s.parBad = []) (hrung : s.rd Fld.blkRungCurrent ≠ 4) :
    exec (.sensorReading d r) s = .next (s.reading d.val r.toNat) := by
  change execSensorReading d r s = _
  simp only [execSensorReading, s.checkPages_of_clean hpar, hrung, if_false]

theorem State.sensFault_sensorFault (d : Nat) : ((s.sensorFault d).dist d).sensFault = true := by
  unfold State.sensorFault
  split
  · assumption
  · rw [State.dist_updDist_same]

/-- `SENSOR_RING_EXPIRY` outside Deep: the district acts as above `TRIP` (R403). -/
theorem exec_sensorRingExpiry {d : Dist} (hrung : s.rd Fld.blkRungCurrent ≠ 4) (hring : 16 ≤ s.rd Fld.pwrWatchSensor) :
    ∃ t, exec (.sensorRingExpiry d) s = .next t ∧ t.rd (Fld.status 7 3) = 1 ∧ t.rd ⟨0x0E040, 17, 17⟩ = 1 ∧ (t.dist d.val).sensFault = true
    ∧ t.walking d.val = false := by
  have hfault : (((s.sensorFault d.val).report (some (7, 3)) (some 17) d.val none).dist d.val).sensFault = true := by
    rw [State.dist_congr (State.report_dists ..), State.sensFault_sensorFault]
  obtain ⟨hpage, herr⟩ := (s.sensorFault d.val).rd_report (pg := 7) (n := 3) (e := 17) d.val (by decide) (by decide) (by decide)
  exact ⟨_, congrArg Host.Outcome.next (if_neg (by simp [hrung, s.ringOn_of_le hring])), hpage, herr, hfault, by simp [State.walking, District.tripHeld, hfault]⟩

/-- `CORE_RING_EXPIRY` of a core with groups (R243). -/
theorem exec_coreRingExpiry {d : Dist} (hon : s.coreOn d.val = true) (hgroups : (s.dist d.val).core.groups ≠ [])
    (hring : 16 ≤ s.rd (Fld.dstWatchCore d.val)) : exec (.coreRingExpiry d) s = .next (s.coreExpiry d.val) :=
  congrArg Host.Outcome.next (if_pos (by simp [hon, hgroups, s.ringOn_of_le hring]))

/-- `TILE_RING_EXPIRY` of a tile that works and has work (R438). -/
theorem exec_tileRingExpiry {d : Dist} {t : Fin 2} (hon : s.coreOn d.val = true) (hgood : (s.dist d.val).core.tiles.getLsbD t.val = false)
    (hwork : s.tileWork d.val = true) (hring : 16 ≤ s.rd (Fld.dstWatchCore d.val)) : exec (.tileRingExpiry d t) s = .next (s.failTile d.val t.val) :=
  congrArg Host.Outcome.next (if_pos (by simp only [hon, hgood, hwork, s.ringOn_of_le hring]; rfl))

/-- `STACK_REQ_RING_EXPIRY`: the port begins a reset. -/
theorem exec_stackReqRingExpiry {p : Port} (hpresent : s.present p.val = true) (hport : (s.port p.val).inResetP = false) (hup : s.phase = .up)
    (hrung : s.rd Fld.blkRungCurrent < 3) (hring : 16 ≤ s.rd (Fld.stkWatchReq p.val)) : ∃ t, exec (.stackReqRingExpiry p) s = .next t
    ∧ (t.port p.val).inResetP = true ∧ t.rd (Fld.status (8 + p.val) 5) = 1 ∧ t.rd ⟨0x0E040, 17, 17⟩ = 1 := by
  obtain ⟨hpage, herr⟩ := s.rd_report (pg := 8 + p.val) (n := 5) (e := 17) (unitStk p.val) (by have := p.isLt; omega) (by decide) (by decide)
  refine ⟨s.stackExpiry p.val, congrArg Host.Outcome.next (if_pos (by simp [hpresent, hport, hup, hrung, s.ringOn_of_le hring])), ?_, hpage, herr⟩
  rw [State.stackExpiry, State.port_updPort_same]

/-- `HOST_RING_EXPIRY`: a warm reset with cause 10. -/
theorem exec_hostRingExpiry (ha : s.active = true) (hring : 16 ≤ s.rd Fld.lnkWatchHost) : ∃ t, exec .hostRingExpiry s = .next t
    ∧ t.phase = .warmWanted ∧ t.rd Fld.blkStatusCause = 10 ∧ t.rd ⟨0x0E040, 17, 17⟩ = 1 := by
  refine ⟨(s.report none (some 17) unitGate none).wantWarm 10, congrArg Host.Outcome.next (if_pos (by simp [ha, s.ringOn_of_le hring])), rfl,
    State.rd_wr_same _ Fld.blkStatusCause 10 (by decide) (by decide), ?_⟩
  rw [State.wantWarm, State.rd_wr_other _ _ _ _ (by decide)]
  exact State.rd_errBit_same _ _ (by decide)

/-! ## A ring whose limit is zero (R27, R29) -/

theorem exec_vackRingExpiry_off (hring : s.rd Fld.pwrWatchVack < 16) : exec .vackRingExpiry s = .next s :=
  congrArg Host.Outcome.next (if_neg (by simp [s.ringOn_of_lt hring]))

theorem exec_hostRingExpiry_off (hring : s.rd Fld.lnkWatchHost < 16) : exec .hostRingExpiry s = .next s :=
  congrArg Host.Outcome.next (if_neg (by simp [s.ringOn_of_lt hring]))

theorem exec_sensorRingExpiry_off (d : Dist) (hring : s.rd Fld.pwrWatchSensor < 16) : exec (.sensorRingExpiry d) s = .next s :=
  congrArg Host.Outcome.next (if_pos (by simp [s.ringOn_of_lt hring]))

theorem exec_stepRingExpiry_off {d : Dist} (lane : Option Dir) (hring : s.rd (Fld.dstWatchStep d.val) < 16) :
    exec (.stepRingExpiry d lane) s = .next s := congrArg Host.Outcome.next (if_pos (by simp [s.ringOn_of_lt hring]))

theorem exec_coreRingExpiry_off {d : Dist} (hring : s.rd (Fld.dstWatchCore d.val) < 16) : exec (.coreRingExpiry d) s = .next s :=
  congrArg Host.Outcome.next (if_neg (by simp [s.ringOn_of_lt hring]))

theorem exec_tileRingExpiry_off {d : Dist} (t : Fin 2) (hring : s.rd (Fld.dstWatchCore d.val) < 16) : exec (.tileRingExpiry d t) s = .next s :=
  congrArg Host.Outcome.next (if_neg (by simp [s.ringOn_of_lt hring]))

theorem exec_stackReqRingExpiry_off {p : Port} (hring : s.rd (Fld.stkWatchReq p.val) < 16) : exec (.stackReqRingExpiry p) s = .next s :=
  congrArg Host.Outcome.next (if_neg (by simp [s.ringOn_of_lt hring]))

/-! ## The step ring and the lanes of a router (R186, R505) -/

/-- `STEP_RING_EXPIRY` of a district that walks at Ready. -/
theorem exec_stepRingExpiry {d : Dist} (hwalk : s.walking d.val = true) (hready : s.rd (Fld.dstRungCurrent d.val) = 0)
    (hring : 16 ≤ s.rd (Fld.dstWatchStep d.val)) : exec (.stepRingExpiry d none) s = .next (s.stepRing d.val) := by
  change execStepRingExpiry d none s = _
  simp [execStepRingExpiry, s.ringOn_of_le hring, hwalk, hready]

/-- `STEP_RING_EXPIRY` of a lane of a router that forwards. -/
theorem exec_stepRingExpiry_lane {d : Dist} {x : Dir} {b : Nat} (ha : s.active = true) (hrun : (s.dist d.val).inReset = false)
    (hrouter : (s.dist d.val).routerDead = false) (hring : 16 ≤ s.rd (Fld.dstWatchStep d.val)) (hnear : neighbour d.val x = some b) :
    exec (.stepRingExpiry d (some x)) s = .next ((s.stepRing d.val).unlink d.val b) := by
  change execStepRingExpiry d (some x) s = _
  simp [execStepRingExpiry, s.ringOn_of_le hring, State.forwards, ha, hrun, hrouter, State.laneStall, hnear]

@[simp] theorem State.links_refreshDrained (d : Nat) : (s.refreshDrained d).links = s.links := by
  unfold State.refreshDrained
  dsimp only
  split
  · rfl
  · split
    · exact State.status_links ..
    · rfl

@[simp] theorem State.links_reasonRaw (d bit : Nat) (on : Bool) : (s.reasonRaw d bit on).links = s.links := by
  unfold State.reasonRaw
  extract_lets x r was now s1 out s2
  have hs2 : s2.links = s.links := by
    dsimp only [s2]
    split <;> rfl
  rw [State.links_refreshDrained]
  split
  · exact hs2
  · rw [State.status_links, hs2]

@[simp] theorem State.links_isolate : s.isolate.links = s.links := by
  unfold State.isolate
  split
  · rfl
  · dsimp only
    refine List.foldlRecOn (motive := fun t : State => t.links = s.links) _ _ rfl fun t ht d _ => ?_
    split
    · exact ht
    · rw [State.links_reasonRaw, ht]

@[simp] theorem State.links_deadEnds (ds : List Nat) : (s.deadEnds ds).links = s.links := by
  refine List.foldlRecOn (motive := fun t : State => t.links = s.links) _ _ rfl fun t ht d _ => ?_
  split
  · exact ht
  · exact ht

/-- A link closed is listed as such (R186). -/
theorem State.links_unlink (a b : Nat) : (s.unlink a b).links = addNew s.links (min a b, max a b) := by
  unfold State.unlink
  extract_lets free s1 s2 s3 opens dies s4
  have hs4 : s4.links = s1.links := by
    have hs3 : s3.links = s1.links := (State.links_isolate s2).trans (State.links_deadEnds s1 _)
    dsimp only [s4]
    split
    · exact hs3
    · exact hs3
  split
  · exact hs4
  · exact hs4

theorem State.linkOpen_unlink (a b : Nat) : (s.unlink a b).linkOpen a b = false := by
  simp [State.linkOpen, State.links_unlink]

end

/-- From one state to another a bit of a page's `PG_STATUS` has not been cleared. -/
def State.StatusStays (pg n : Nat) (s t : State) : Prop := s.rd (Fld.status pg n) = 1 → t.rd (Fld.status pg n) = 1

namespace State.StatusStays

variable {pg n : Nat}

theorem refl (s : State) : State.StatusStays pg n s s := id

theorem trans {s t u : State} (h : State.StatusStays pg n s t) (h' : State.StatusStays pg n t u) : State.StatusStays pg n s u := h' ∘ h

theorem of_regs {s t : State} (h : t.regs = s.regs) : State.StatusStays pg n s t := (State.rd_congr h _).trans

theorem ite {s t u : State} {c : Prop} [Decidable c] (ht : State.StatusStays pg n s t) (hu : State.StatusStays pg n s u) :
    State.StatusStays pg n s (if c then t else u) := by
  split
  · exact ht
  · exact hu

theorem foldl {α : Type} {s : State} (l : List α) (f : State → α → State) (h : ∀ (t : State) x, State.StatusStays pg n t (f t x)) :
    State.StatusStays pg n s (l.foldl f s) :=
  List.foldlRecOn (motive := fun t => State.StatusStays pg n s t) l f (refl s) fun t ht x _ => ht.trans (h t x)

variable (s : State)

theorem wr {f : Fld} (v : Nat) (h : f.off % 0x1000 ≠ 0x008) : State.StatusStays pg n s (s.wr f v) := by
  refine (State.rd_wr_other _ _ _ _ fun heq => h ?_).trans
  simp only [← heq, Fld.status]
  omega

/-- Setting a bit of `PG_STATUS` clears none. -/
theorem status (hn : n < 32) (pg' n' : Nat) : State.StatusStays pg n s (s.status pg' n') := by
  intro hset
  by_cases hpg : pg = pg'
  · subst hpg
    by_cases hbit : n = n'
    · subst hbit
      exact State.rd_setBit_same _ _ _ rfl hn
    · have hregs : (s.status pg n').regs = (s.wr (Fld.status pg n') 1).regs := by
        unfold State.status State.setBit
        dsimp only
        split <;> rfl
      rw [State.rd_congr hregs, State.rd_wr_beside _ (Fld.status pg n') (Fld.status pg n) _ rfl hn (Nat.lt_or_gt_of_ne hbit), hset]
  · rw [State.rd, State.status, State.reg_setBit_other]
    · exact hset
    · simp only [Fld.status]
      omega

theorem refreshDrained (hn : n < 32) (d : Nat) : State.StatusStays pg n s (s.refreshDrained d) :=
  ite (refl s) (ite (status (s.updDist d _) hn _ _) (of_regs rfl))

theorem reasonRaw (hn : n < 32) (d bit : Nat) (on : Bool) : State.StatusStays pg n s (s.reasonRaw d bit on) := by
  unfold State.reasonRaw
  extract_lets x r was now s1 out s2
  have hs2 : s2.regs = s.regs := by
    dsimp only [s2]
    split <;> rfl
  have hput : State.StatusStays pg n s s2 := of_regs hs2
  exact (ite hput (hput.trans (status _ hn _ _))).trans (refreshDrained _ hn d)

theorem isolate (hn : n < 32) : State.StatusStays pg n s s.isolate :=
  ite (refl s) (foldl _ _ fun t _ => ite (refl t) (reasonRaw t hn _ _ _))

theorem setReason (hn : n < 32) (d bit : Nat) (on : Bool) : State.StatusStays pg n s (s.setReason d bit on) := by
  have hreroute (t : State) : State.StatusStays pg n t t.reroute :=
    ((isolate t hn).trans (wr _ (f := Fld.chRouteEpochEpoch) _ (by decide))).trans (of_regs rfl)
  have hraw : State.StatusStays pg n s (s.reasonRaw d bit on) := reasonRaw s hn d bit on
  exact ite (refl s) (ite hraw (hraw.trans (hreroute _)))

end State.StatusStays

/-- A step ring's expiry reports (R505) and, in a table of districts in order, closes with `FAULT` a district that no fault has closed. -/
theorem State.stepRing_closes (s : State) {d : Nat} (hopen : (s.dist d).reasons.getLsbD rsFault = false) :
    (s.stepRing d).rd (Fld.status (0x40 + d) 2) = 1
    ∧ (SMap.sorted s.dists = true → ((s.stepRing d).dist d).reasons.getLsbD rsFault = true) := by
  obtain ⟨hreport, -⟩ := s.rd_report (pg := 0x40 + d) (n := 2) (e := 17) d (by omega) (by decide) (by decide)
  rw [State.stepRing, if_neg (by simp [hopen])]
  refine ⟨State.StatusStays.setReason _ (by decide) d rsFault true hreport, fun hs => ?_⟩
  exact (State.reason_setReason _ true (SMap.sorted_set _ _ _ _ ((State.report_dists ..).symm ▸ hs)) (by decide)).2

end Sys2Proof.Machine
end

section
/-! PROOFS. The twin (R415 to R420, R423, R428, R429, R432, R433): what each message heard leads to, and the pair's own commands. -/

namespace Sys2Proof.Machine

/-! ## A message taken in (R419, R420) -/

section
variable (s : State)

@[simp] theorem State.heard_twnMode : s.heard.twnMode = s.twnMode := rfl

@[simp] theorem State.heard_paired : s.heard.paired = s.paired := rfl

@[simp] theorem State.heard_batches : s.heard.batches = s.batches := rfl

@[simp] theorem State.heard_mirrors : s.heard.twin.mirrors = s.twin.mirrors := rfl

end

section
variable {s : State} {h : TwinHdr} (hh : s.hears h = true)
include hh

/-- What a message heard comes to: its own effect on the state that has taken it in. -/
theorem next_twinRecv_hears (f : State → State) : (.next (s.twinRecv h f) : Res) = .next (f s.heard) :=
  congrArg Host.Outcome.next (s.twinRecv_hears h f hh)

/-- `TWIN_ENTRY` in a mode other than solo (R423). -/
theorem exec_twinEntry (idx : BitVec 14) (bytes : List Byte) (hmode : s.twnMode ≠ 0) :
    exec (.twinEntry h idx bytes) s = .next (s.heard.mirrorEntry idx bytes) :=
  (next_twinRecv_hears hh _).trans (congrArg Host.Outcome.next (if_neg hmode))

/-- `TWIN_HANDOFF` of an entry that is mirrored here, while the pair is live (R432 step 4). -/
theorem exec_twinHandoff {idx : BitVec 14} {m : Mirror} (hm : s.twin.mirrors.find? (fun m => decide (m.idx = idx)) = some m)
    (hpair : s.paired = true) : exec (.twinHandoff h idx) s = .next ((s.heard.adopt m true).twinSend (.handoffAck idx)) := by
  refine (next_twinRecv_hears hh _).trans ?_
  simp only [State.heard_mirrors, hm, State.heard_paired, hpair, if_true]

/-- `TWIN_SEALED` for a batch that was handed over (R432 step 5). -/
theorem exec_twinSealed {q : Que} {seq : Word} {x : Batch}
    (hx : s.batches.find? (fun x => decide (x.bid = { que := q, seq := seq, held := false }) && x.handed) = some x) :
    exec (.twinSealed h q seq) s = .next (s.heard.retire x false) := by
  refine (next_twinRecv_hears hh _).trans ?_
  simp only [State.heard_batches, hx]

/-- `TWIN_RESYNC` while the pair is live: every live entry is sent again (R419). -/
theorem exec_twinResync (hpair : s.paired = true) : exec (.twinResync h) s = .next s.heard.sendLive :=
  (next_twinRecv_hears hh _).trans (congrArg Host.Outcome.next (if_pos hpair))

end

/-- Settles O35: a message heard is taken in, and its own effect follows; the four whose effect is conditional have a lemma each. -/
theorem twinMessagesComplete : Obligations.TwinMessagesComplete := by
  intro h s hh
  have heard := next_twinRecv_hears hh
  exact ⟨fun _ => heard _, heard _, fun _ => heard _, exec_twinEntry hh, fun _ _ => heard _, fun _ => heard _, fun _ _ => exec_twinHandoff hh,
    fun _ _ _ => exec_twinSealed hh, fun _ => heard _, heard _, exec_twinResync hh, fun _ _ => heard _, fun _ => heard _, fun _ => heard _⟩

/-! ## Messages sent (R419, R420) -/

section
variable (s : State)

/-- A message sent over a live link, no arm set: it goes behind those sent before and takes the next number; no register changes (R419). -/
theorem State.twinSend_live (m : TwinMsg) (hlink : s.twin.linkUp = true) (harm : s.armed Fld.twnInjectLink = false) :
    (s.twinSend m).twin.sent = s.twin.sent ++ [m] ∧ (s.twinSend m).twin.sendNum = s.twin.sendNum + 1 ∧ (s.twinSend m).regs = s.regs := by
  simp [State.twinSend, hlink, harm]

/-- `BEACON_RING_EXPIRY` of a live link in Ready or Quiet (R420). -/
theorem exec_beaconRingExpiry (hpar : s.parBad = []) (hup : s.phase = .up) (hlink : s.twin.linkUp = true) (hrung : s.rd Fld.blkRungCurrent ≤ 1)
    (hring : 16 ≤ s.rd Fld.twnWatch1Beacon) : exec .beaconRingExpiry s = .next (s.twinSend .beacon) := by
  change execBeaconRingExpiry s = _
  simp [execBeaconRingExpiry, s.checkPages_of_clean hpar, hup, hlink, hrung, s.ringOn_of_le hring]

/-! ## The mode (R415, R418) -/

/-- `TWN_MODE_WRITE` served: the mode is written, and a takeover follows where the word asks for one (R418, R429). -/
theorem exec_twnModeWrite {v : Word} (ho : s.opens 0x02040 = true) :
    exec (.twnModeWrite v) s = .next (if v.getLsbD 8 then (s.modeWrite v).takeNow else s.modeWrite v) :=
  congrArg Host.Outcome.next (s.guardWrite_opens _ _ ho)

/-! ## Fencing and takeover (R420, R428, R429) -/

/-- `FENCE` that is due (R428). -/
theorem exec_fence_due (hpar : s.parBad = []) (hup : s.phase = .up) (hmode : s.twnMode ≠ 0) (hwant : s.twin.wantFence = true) :
    exec .fence s = .next s.fenceNow := by
  change execFence s = _
  simp [execFence, s.checkPages_of_clean hpar, hup, hmode, hwant]

/-- `FENCE` at which the silence ring of a live pair expires (R420). -/
theorem exec_fence_silence (hpar : s.parBad = []) (hup : s.phase = .up) (hmode : s.twnMode ≠ 0) (hwant : s.twin.wantFence = false)
    (hpair : s.paired = true) (hquiet : s.twin.quiet = false) (hsilent : s.twin.silent = false) (hring : 16 ≤ s.rd Fld.twnWatch0Fence) :
    exec .fence s = .next s.silence.fenceNow := by
  change execFence s = _
  simp [execFence, s.checkPages_of_clean hpar, s.halted_of_clean hpar, hup, hmode, hwant, hpair, hquiet, hsilent, s.ringOn_of_le hring]

/-- An engine that has its own side, and not the twin's, takes over (R427, R429). -/
theorem State.takeNow_of_right (hpar : s.parBad = []) (hup : s.phase = .up) (hmode : s.twnMode ≠ 0) (hfenced : s.flag Fld.twnStatusFenced = false)
    (hlent : s.flag Fld.twnStatusLent = false) (hwant : s.twin.wantFence = false) (hholding : s.flag Fld.twnStatusHolding = false) :
    s.takeNow = s.takeover := by
  simp [State.takeNow, s.halted_of_clean hpar, hup, hmode, hfenced, hlent, hwant, hholding]

/-- `TAKEOVER`, by the silence ring or by a write that is served (R420, R429). -/
theorem exec_takeover (hpar : s.parBad = []) (hcome : s.takeRing = true ∨ s.opens 0x02040 = true) : exec .takeover s = .next s.takeNow := by
  change Host.Outcome.next (if (s.checkPages [2]).takeRing then (s.checkPages [2]).takeNow else s.guardWrite 0x02040 State.takeNow) = _
  rw [s.checkPages_of_clean hpar]
  congr 1
  split
  · rfl
  · next hring => exact s.guardWrite_opens _ _ (hcome.resolve_left hring)

/-! ## Return and hand-over (R432, R433) -/

/-- `SIDE_RETURN` of a side held, no held batch left and the twin heard on the link (R433). -/
theorem exec_sideReturn (hholding : s.flag Fld.twnStatusHolding = true) (hnone : ∀ x ∈ s.batches, x.bid.held = false)
    (hlink : s.twin.linkUp = true) (hsilent : s.twin.silent = false) (hpeer : s.twin.peer.isSome = true) (hmode : s.twnMode ≠ 0)
    (hwant : s.twin.wantFence = false) : exec .sideReturn s = .next s.sideReturn := by
  have hall : s.batches.all (fun x => !x.bid.held) = true := by simpa using hnone
  exact congrArg Host.Outcome.next (if_pos (by simp [hholding, hall, hlink, hsilent, hpeer, hmode, hwant]))

/-- `HANDOFF` of a batch whose writes are acknowledged, while the pair is live (R432 steps 2 and 3). -/
theorem exec_handoff {b : Bid} {x : Batch} (hwait : b ∈ s.twin.handWait) (hx : s.batch b = some x) (hpair : s.paired = true)
    (hacked : s.writesAcked b = true) : exec (.handoff b) s
      = .next ((State.updBatch { s with twin := { s.twin with handWait := s.twin.handWait.filter (fun y => decide (y ≠ b)) } } b
          (fun y => { y with handed := true })).twinSend (.handoff (BitVec.ofNat 14 x.tly))) := by
  change execHandoff b s = _
  simp [execHandoff, hwait, hx, hpair, hacked]

end

/-- Settles O36, one lemma for each command. -/
theorem twinCommandsComplete : Obligations.TwinCommandsComplete := by
  intro s
  refine ⟨fun v ho => ⟨fun hbit => ?mode, fun hbit => ?modeTake⟩,
    fun hpar hup hlink hrung harm hring => ⟨_, exec_beaconRingExpiry s hpar hup hlink hrung hring, s.twinSend_live .beacon hlink harm⟩,
    exec_fence_due s, exec_fence_silence s, ?takeover, exec_sideReturn s, fun b x => exec_handoff s⟩
  case mode => rw [exec_twnModeWrite s ho, if_neg (Bool.eq_false_iff.mp hbit)]
  case modeTake => rw [exec_twnModeWrite s ho, if_pos hbit]
  case takeover =>
    intro hpar hup hmode hfenced hlent hwant hholding hcome
    rw [exec_takeover s hpar hcome, s.takeNow_of_right hpar hup hmode hfenced hlent hwant hholding]

end Sys2Proof.Machine
end

section
/-! PROOFS. Host writes of the window (R375, R445, R461 to R463, R467, R468, R506): what a write served leaves in its register, in the others
and in the rest of the block, and how a locked one is turned away. -/

namespace Sys2Proof.Machine

section
variable (s : State)

/-! ## The registers of one page -/

@[simp] theorem offPage_add (pg : Nat) {o : Nat} (h : o < 0x1000) : offPage (pg * 0x1000 + o) = pg := by
  simp only [offPage]
  omega

/-! ## A register written, and its parity (R463, R472, R510) -/

@[simp] theorem State.parityWrite_locked (off : Nat) : (s.parityWrite off).locked = s.locked := by
  have h := congrArg State.locked (s.parityWrite_frame off)
  exact h

/-- A page's arm, seen past a write of another register. -/
theorem State.armed_setReg_other (f : Fld) {off : Nat} (v : Word) (h : f.off ≠ off) : (s.setReg off v).armed f = s.armed f :=
  congrArg (fun w => decide (field w f.hi f.lo ≠ 0)) (State.reg_setReg_other _ _ _ _ h)

/-- A host write on a block page: the RW bits take the value, and parity follows. -/
theorem State.hostSet_block {off : Nat} {k : PageKind} {n : Nat} (v : Word) (hpage : pageOf (offPage off) = some (k, n)) (hk : k.district = false)
    (hrw : (regAt off).rw ≠ 0) :
    s.hostSet off v = (s.setReg off ((s.reg off &&& ~~~(regAt off).rw) ||| (v &&& (regAt off).rw))).parityWrite off := by
  cases k with
  | dst => cases hk
  | _ => simp only [State.hostSet, hrw, if_false, hpage]

section
variable {off : Nat} {k : PageKind} {n : Nat} (v : Word) (hpage : pageOf (offPage off) = some (k, n)) (hk : k.district = false)
  (hrw : (regAt off).rw ≠ 0) (hoff : offPage off * 0x1000 + 0x010 ≠ off) (harm : s.armed ⟨offPage off * 0x1000 + 0x010, 31, 31⟩ = false)
include hpage hk hrw

theorem State.hostSet_block_frame : { s.hostSet off v with regs := s.regs, parBad := s.parBad } = s := by
  rw [s.hostSet_block v hpage hk hrw]
  exact congrArg (fun t : State => { t with regs := s.regs }) (State.parityWrite_frame ..)

include hoff harm

/-- With the page's `CFG` arm clear, a host write changes the register it names and no other. -/
theorem State.hostSet_block_regs : (s.hostSet off v).regs
    = (s.setReg off ((s.reg off &&& ~~~(regAt off).rw) ||| (v &&& (regAt off).rw))).regs := by
  rw [s.hostSet_block v hpage hk hrw]
  exact State.parityWrite_regs _ ((s.armed_setReg_other _ _ hoff).trans harm)

end

/-! ## Plain writes (R375, R463, R465) -/

@[simp] theorem State.dropRoot_regs (off : Nat) : (s.dropRoot off).regs = s.regs := by
  unfold State.dropRoot
  split <;> rfl

/-- Which entries a root loses does not depend on the registers. -/
theorem State.dropRoot_regs_comm (off : Nat) (r : SMap Word) (p : List Nat) :
    { s.dropRoot off with regs := r, parBad := p } = State.dropRoot { s with regs := r, parBad := p } off := by
  unfold State.dropRoot
  split <;> rfl

/-- A write on a block page other than `LNK`'s and to none of three registers of `CH` starts and loses nothing but a root's entries (R375). -/
theorem State.afterWrite_block {off : Nat} {k : PageKind} {n : Nat} (was : Word) (hpage : pageOf (offPage off) = some (k, n))
    (hk : k.district = false) (hlnk : offPage off ≠ 1) (htop : off ≠ 0x03040) (hledger : off ≠ 0x03048) (hpack : off ≠ 0x0304C) :
    s.afterWrite off was = s.dropRoot off := by
  have hstamp : off ≠ 0x0105C := by rintro rfl; exact hlnk rfl
  have hplace : ¬ (off = 0x0105C ∧ decide ((s.dropRoot off).reg off ≠ was) = true) := fun h => hstamp h.1
  cases k with
  | dst => cases hk
  | _ => simp only [State.afterWrite, htop, hledger, hpack, hplace, hlnk, if_false, hpage]

/-- The arms of a page are written by a command of their own (R506). -/
theorem ownCommand_arms {off : Nat} {v : Word} {k : PageKind} {n : Nat} (hpage : pageOf (offPage off) = some (k, n))
    (h : off % 0x1000 = 0x010) : ownCommand off v = true := by
  have hgrant : off ≠ 0x03054 := by rintro rfl; cases h
  have hreset : off ≠ 0x00054 := by rintro rfl; cases h
  have hmop : off ≠ 0x00070 := by rintro rfl; cases h
  simp [ownCommand, ownWrite, hpage, h, hgrant, hreset, hmop]

theorem exec_registerWrite {off : BitVec 20} {v : Word} (ha : off.toNat % 4 = 0) (hown : ownCommand off.toNat v = false)
    (ho : s.opens off.toNat = true) : exec (.registerWrite off v) s = .next (s.plainWrite off.toNat v) := by
  change execRegisterWrite off v s = _
  simp [execRegisterWrite, ha, hown, State.guardWrite_opens _ _ _ ho]

/-- A plain write on a block page, where it starts nothing: the state but for registers and parity, and the registers. -/
theorem State.plainWrite_block {off : Nat} {v : Word} {k : PageKind} {n : Nat} (hown : ownCommand off v = false) (hkeep : notStored off v = false)
    (hpage : pageOf (offPage off) = some (k, n)) (hk : k.district = false) (hrw : (regAt off).rw ≠ 0) (hlnk : offPage off ≠ 1)
    (htop : off ≠ 0x03040) (hledger : off ≠ 0x03048) (hpack : off ≠ 0x0304C) (harm : s.armed ⟨offPage off * 0x1000 + 0x010, 31, 31⟩ = false) :
    (s.plainWrite off v).regs = (s.setReg off ((s.reg off &&& ~~~(regAt off).rw) ||| (v &&& (regAt off).rw))).regs
    ∧ { s.plainWrite off v with regs := s.regs, parBad := s.parBad } = s.dropRoot off := by
  have hoff : offPage off * 0x1000 + 0x010 ≠ off := fun h => by
    rw [ownCommand_arms hpage (by omega)] at hown
    cases hown
  have hwrite : s.plainWrite off v = (s.hostSet off v).dropRoot off := by
    simp only [State.plainWrite, hkeep, Bool.false_eq_true, if_false]
    exact State.afterWrite_block _ _ hpage hk hlnk htop hledger hpack
  rw [hwrite, State.dropRoot_regs_comm, s.hostSet_block_frame v hpage hk hrw, State.dropRoot_regs]
  exact ⟨s.hostSet_block_regs v hpage hk hrw hoff harm, rfl⟩

/-! ## `PG_CTL` (R461, R462) -/

/-- A write whose mask half is zero has no bit of it set. -/
theorem getLsbD_of_field_high {v : Word} (h : field v 31 16 = 0) {i : Nat} (hi : i < 16) : v.getLsbD (16 + i) = false := by
  have hbit := congrArg (fun x => Nat.testBit x i) h
  simp only [field, bits, Nat.testBit_mod_two_pow, Nat.testBit_div_two_pow, Nat.zero_testBit] at hbit
  change v.toNat.testBit (16 + i) = false
  rw [Nat.add_comm]
  simpa [hi] using hbit

/-- `PAR_CHECK` as a masked write of `PG_CTL` leaves it, parity apart. -/
def State.parMasked (s : State) (pg : Nat) (v : Word) : State := if v.getLsbD 17 then s.wr (Fld.parCheck pg) (b2n (v.getLsbD 1)) else s

theorem State.pgCtl_block {pg : Nat} {v : Word} {k : PageKind} {n : Nat} (hpage : pageOf pg = some (k, n)) (hk : k.district = false) :
    s.pgCtl pg v = if field v 31 16 = 0 then s else (s.parMasked pg v).parityWrite (pg * 0x1000 + 0x004) := by
  cases k with
  | dst => cases hk
  | _ => simp only [State.pgCtl, hpage, State.parMasked]

theorem State.parMasked_unmasked {pg : Nat} {v : Word} (h : field v 31 16 = 0) : s.parMasked pg v = s :=
  if_neg (Bool.eq_false_iff.mp (getLsbD_of_field_high h (i := 1) (by decide)))

theorem State.rd_parMasked (pg : Nat) (v : Word) :
    (s.parMasked pg v).rd (Fld.parCheck pg) = if v.getLsbD 17 then b2n (v.getLsbD 1) else s.rd (Fld.parCheck pg) := by
  unfold State.parMasked
  split
  · refine (State.rd_wr_same _ _ _ (Nat.le_refl _) (by simp [Fld.parCheck])).trans ?_
    cases v.getLsbD 1 <;> rfl
  · rfl

theorem State.reg_parMasked_other {pg j : Nat} (v : Word) (h : j ≠ pg * 0x1000 + 0x004) : (s.parMasked pg v).reg j = s.reg j := by
  unfold State.parMasked
  split
  · exact State.reg_wr_other _ _ _ _ h
  · rfl

theorem State.parMasked_frame (pg : Nat) (v : Word) : { s.parMasked pg v with regs := s.regs } = s := by
  unfold State.parMasked
  split <;> rfl

/-- A masked write of `PG_CTL` on a block page whose `CFG` arm is clear: its registers are those with the masked bit written. -/
theorem State.pgCtl_block_kept {pg : Nat} {v : Word} {k : PageKind} {n : Nat} (hpage : pageOf pg = some (k, n)) (hk : k.district = false)
    (harm : s.armed ⟨pg * 0x1000 + 0x010, 31, 31⟩ = false) :
    (s.pgCtl pg v).regs = (s.parMasked pg v).regs ∧ { s.pgCtl pg v with regs := s.regs, parBad := s.parBad } = s := by
  have harm' : (s.parMasked pg v).armed ⟨offPage (pg * 0x1000 + 0x004) * 0x1000 + 0x010, 31, 31⟩ = false := by
    rw [offPage_add pg (by decide)]
    rwa [State.armed, State.flag, State.rd, s.reg_parMasked_other v (mt Nat.add_left_cancel (by decide))]
  rw [s.pgCtl_block hpage hk]
  split
  · next h => exact ⟨by rw [s.parMasked_unmasked h], rfl⟩
  · refine ⟨State.parityWrite_regs _ harm', ?_⟩
    calc _ = { ({ (s.parMasked pg v).parityWrite (pg * 0x1000 + 0x004) with
                  regs := (s.parMasked pg v).regs, parBad := (s.parMasked pg v).parBad } : State) with regs := s.regs, parBad := s.parBad } := rfl
      _ = { ({ s.parMasked pg v with regs := s.regs } : State) with parBad := s.parBad } := by rw [State.parityWrite_frame]
      _ = s := by rw [s.parMasked_frame]

theorem exec_pgCtlWrite {pg : BitVec 8} {v : Word} (ho : s.opens (pg.toNat * 0x1000 + 0x004) = true) :
    exec (.pgCtlWrite pg v) s = .next (s.pgCtl pg.toNat v) := congrArg Host.Outcome.next (State.guardWrite_opens _ _ _ ho)

theorem State.crcCheck_off {d : Nat} (h : s.flag (Fld.crcCheck (0x40 + d)) = false) : s.crcCheck d = s :=
  if_neg (Bool.eq_false_iff.mp h)

/-- `CRC_LOAD` while the page's check is off (R461, R471): `PG_CRC` takes the running CRC. -/
theorem exec_crcLoad {d : Dist} (ho : s.opens (pageReg .dst d.val 0x004) = true) (hoff : s.flag (Fld.crcCheck (0x40 + d.val)) = false) :
    exec (.crcLoad d) s = .next (s.setReg (pageReg .dst d.val 0x014) (s.crcNow d.val)) := by
  have hpage : pageOf (0x40 + d.val) = some (.dst, d.val) := pageOf_first_add .dst d.isLt
  have hmask : field (0x00040004 : Word) 31 16 ≠ 0 := by decide
  have hload : s.pgCtl (0x40 + d.val) 0x00040004 = (s.setReg (pageReg .dst d.val 0x014) (s.crcNow d.val)).crcCheck d.val := by
    simp only [State.pgCtl, hmask, if_false, hpage]
    rfl
  have hstill : (s.setReg (pageReg .dst d.val 0x014) (s.crcNow d.val)).flag (Fld.crcCheck (0x40 + d.val)) = false :=
    (s.armed_setReg_other (Fld.crcCheck (0x40 + d.val)) _ (mt Nat.add_left_cancel (by decide))).trans hoff
  refine congrArg Host.Outcome.next ((State.guardWrite_opens _ _ _ ho).trans ?_)
  rw [hload, State.crcCheck_off _ hstill]

/-! ## `PG_LOCK` and locked registers (R467, R468) -/

/-- The first write of `PG_LOCK`: it is taken whole, and the page has had its write. -/
def State.lockTaken (s : State) (k : PageKind) (pg : Nat) (v : Word) : State :=
  let t := State.setReg { s with locked := insertBy (fun a b => decide (a < b)) pg s.locked } (pg * 0x1000 + 0x01C) v
  if k.district then t else t.parityWrite (pg * 0x1000 + 0x01C)

theorem State.reg_lockTaken (k : PageKind) (pg : Nat) (v : Word) : (s.lockTaken k pg v).reg (pg * 0x1000 + 0x01C) = v := by
  unfold State.lockTaken
  split
  · exact State.reg_setReg_same ..
  · rw [State.reg_parityWrite_other _ (by rw [offPage_add pg (by decide)]; omega), State.reg_setReg_same]

theorem State.mem_lockTaken (k : PageKind) (pg : Nat) (v : Word) (p : Nat) : p ∈ (s.lockTaken k pg v).locked ↔ p = pg ∨ p ∈ s.locked := by
  have hlocked : (s.lockTaken k pg v).locked = insertBy (fun a b => decide (a < b)) pg s.locked := by
    unfold State.lockTaken
    split
    · rfl
    · rw [State.parityWrite_locked, State.setReg_locked]
  rw [hlocked, mem_insertBy]

section
variable {pg : BitVec 8} {v : Word} {k : PageKind} {n : Nat} (ho : s.opens (pg.toNat * 0x1000 + 0x01C) = true)
  (hpage : pageOf pg.toNat = some (k, n))
include ho hpage

theorem exec_pgLockWrite_first (hnew : pg.toNat ∉ s.locked) : exec (.pgLockWrite pg v) s = .next (s.lockTaken k pg.toNat v) := by
  refine congrArg Host.Outcome.next ((State.guardWrite_opens _ _ _ ho).trans ?_)
  simp only [hpage, hnew, if_false, State.lockTaken]

theorem exec_pgLockWrite_later (hold : pg.toNat ∈ s.locked) :
    exec (.pgLockWrite pg v) s = .next (s.lockDiscard (pg.toNat * 0x1000 + 0x01C)) := by
  refine congrArg Host.Outcome.next ((State.guardWrite_opens _ _ _ ho).trans ?_)
  simp only [hpage, hold, if_true]

end

/-- What a write discarded as locked comes to: the report, and while none was reported before, the address. -/
theorem State.lockDiscard_eq (off : Nat) : s.lockDiscard off = if s.rd Fld.errStatusLockWrite = 0
    then (s.errBit 0 (pageUnit (offPage off))).wr Fld.errLockAddrOffset (off / 4) else s.errBit 0 (pageUnit (offPage off)) := by
  change (if !s.flag Fld.errStatusLockWrite then _ else _) = _
  by_cases h : s.rd Fld.errStatusLockWrite = 0 <;> simp [State.flag, h, State.report]

theorem State.lockDiscard_reports (off : Nat) : (s.lockDiscard off).rd Fld.errStatusLockWrite = 1 := by
  have hbit : (s.errBit 0 (pageUnit (offPage off))).rd Fld.errStatusLockWrite = 1 := State.rd_errBit_same _ _ (by decide)
  rw [State.lockDiscard_eq]
  split
  · rw [State.rd_wr_other _ _ _ _ (by decide), hbit]
  · exact hbit

theorem State.reg_lockDiscard_outside (off : Nat) {j : Nat} (h : offPage j ≠ 14) : (s.lockDiscard off).reg j = s.reg j := by
  have haddr : j ≠ Fld.errLockAddrOffset.off := by rintro rfl; exact h rfl
  rw [State.lockDiscard_eq]
  split
  · rw [State.reg_wr_other _ _ _ _ haddr, State.reg_errBit_outside _ _ _ h]
  · exact State.reg_errBit_outside _ _ _ h

@[simp] theorem State.lockDiscard_locked (off : Nat) : (s.lockDiscard off).locked = s.locked := by
  rw [State.lockDiscard_eq]
  split <;> simp

/-- The address of the first locked write reported is kept (R468). -/
theorem State.rd_lockDiscard_address {off : Nat} (hwindow : off < 2 ^ 20) : (s.lockDiscard off).rd Fld.errLockAddrOffset
    = if s.rd Fld.errStatusLockWrite = 0 then off / 4 else s.rd Fld.errLockAddrOffset := by
  rw [State.lockDiscard_eq]
  split
  · refine (State.rd_wr_same _ Fld.errLockAddrOffset _ (by decide) (by decide)).trans (Nat.mod_eq_of_lt ?_)
    simp only [Fld.errLockAddrOffset]
    omega
  · simp only [State.rd]
    rw [State.reg_errBit _ _ _ (by decide), State.reg_setBit_other _ _ _ _ (by decide)]

/-- A write that is served and not malformed, to a locked register (R467). -/
theorem State.guardWrite_locked {off : Nat} (f : State → State) (hserve : s.serveWrite off = .yes) (hproto : s.armed Fld.errInjectHlProtocol = false)
    (harm : s.armed Fld.errInjectLockWrite = false) (hlock : s.lockedReg off = true) : s.guardWrite off f = s.lockDiscard off := by
  simp [State.guardWrite, State.doWrite, hserve, hproto, harm, hlock]

theorem exec_registerWrite_locked {off : BitVec 20} {v : Word} (ha : off.toNat % 4 = 0) (hown : ownCommand off.toNat v = false)
    (hserve : s.serveWrite off.toNat = .yes) (hproto : s.armed Fld.errInjectHlProtocol = false)
    (harm : s.armed Fld.errInjectLockWrite = false) (hlock : s.lockedReg off.toNat = true) :
    exec (.registerWrite off v) s = .next (s.lockDiscard off.toNat) := by
  change execRegisterWrite off v s = _
  simp [execRegisterWrite, ha, hown, s.guardWrite_locked _ hserve hproto harm hlock]

/-! ## Arms (R506) -/

/-- The arms of a page written: they take the value, after a `CFG` arm that was set has acted. -/
def State.armsTaken (s : State) (k : PageKind) (pg : Nat) (v : Word) : State :=
  (if k.district then s else s.parityWrite (pg * 0x1000 + 0x010)).setReg (pg * 0x1000 + 0x010) (v &&& k.armBits)

theorem State.reg_armsTaken_other (k : PageKind) {pg j : Nat} (v : Word) (h : j ≠ pg * 0x1000 + 0x010) : (s.armsTaken k pg v).reg j = s.reg j := by
  rw [State.armsTaken, State.reg_setReg_other _ _ _ _ h]
  split
  · rfl
  · exact State.reg_parityWrite_other _ (by rwa [offPage_add pg (by decide)])

theorem State.armsTaken_frame (k : PageKind) (pg : Nat) (v : Word) : { s.armsTaken k pg v with regs := s.regs, parBad := s.parBad } = s := by
  have hset (t : State) (w : Word) (ht : { t with regs := s.regs, parBad := s.parBad } = s) :
      { t.setReg (pg * 0x1000 + 0x010) w with regs := s.regs, parBad := s.parBad } = s := ht
  refine hset _ _ ?_
  split
  · rfl
  · exact s.parityWrite_frame _

theorem exec_injectArm {pg : BitVec 8} {v : Word} {k : PageKind} {n : Nat} (ho : s.opens (pg.toNat * 0x1000 + 0x010) = true)
    (hpage : pageOf pg.toNat = some (k, n)) : exec (.injectArm pg v) s = .next (s.armsTaken k pg.toNat v) := by
  refine congrArg Host.Outcome.next ((State.guardWrite_opens _ _ _ ho).trans ?_)
  simp only [hpage, State.armsTaken]

end

/-- Settles O15, one lemma for each command and for what it finds. -/
theorem writesComplete : Obligations.WritesComplete := by
  intro s
  refine ⟨?plain, fun off v => exec_registerWrite s, ?pgCtl, fun d => exec_crcLoad s, ?lockFirst, ?lockLater, ?arms, ?locked⟩
  case plain =>
    intro off v k n ha hown hkeep ho hpage hk hrw hlnk htop hledger hpack harm
    obtain ⟨hregs, hframe⟩ := s.plainWrite_block hown hkeep hpage hk hrw hlnk htop hledger hpack harm
    refine ⟨_, exec_registerWrite s ha hown ho, ?_, fun j hj => ?_, hframe⟩
    · rw [State.reg_congr hregs, State.reg_setReg_same]
    · rw [State.reg_congr hregs, State.reg_setReg_other _ _ _ _ hj]
  case pgCtl =>
    intro pg v k n ho hpage hk harm
    obtain ⟨hregs, hframe⟩ := s.pgCtl_block_kept (v := v) hpage hk harm
    refine ⟨_, exec_pgCtlWrite s ho, ?_, fun j hj => ?_, hframe⟩
    · rw [State.rd_congr hregs, s.rd_parMasked]
    · rw [State.reg_congr hregs, s.reg_parMasked_other v hj]
  case lockFirst =>
    exact fun pg v k n ho hpage hnew => ⟨_, exec_pgLockWrite_first s ho hpage hnew, s.reg_lockTaken .., (s.mem_lockTaken ..).mpr (.inl rfl),
      s.mem_lockTaken k pg.toNat v⟩
  case lockLater =>
    exact fun pg v k n ho hpage hold => ⟨_, exec_pgLockWrite_later s ho hpage hold, s.lockDiscard_reports _, s.lockDiscard_locked _,
      fun j => s.reg_lockDiscard_outside _⟩
  case arms =>
    exact fun pg v k n ho hpage => ⟨_, exec_injectArm s ho hpage, State.reg_setReg_same .., fun j => s.reg_armsTaken_other k v,
      s.armsTaken_frame k _ v⟩
  case locked =>
    exact fun off v ha hown hserve hproto harm hlock => ⟨_, exec_registerWrite_locked s ha hown hserve hproto harm hlock,
      s.lockDiscard_reports _, s.rd_lockDiscard_address off.isLt, fun j => s.reg_lockDiscard_outside _⟩

end Sys2Proof.Machine
end

section
/-! PROOFS. Straps, pins and test ports (R441, R442, R449, R450). -/

namespace Sys2Proof.Machine

/-! ## Fields of words put together -/

theorem field_or (v w : Word) (hi lo : Nat) : field (v ||| w) hi lo = field v hi lo ||| field w hi lo := by
  apply Nat.eq_of_testBit_eq
  intro i
  simp only [field, bits, BitVec.toNat_or, Nat.testBit_or, Nat.testBit_mod_two_pow, Nat.testBit_div_two_pow, Bool.and_or_distrib_left]

theorem field_bitsAt_same {hi lo : Nat} (v : Nat) (h1 : lo ≤ hi) (h2 : hi < 32) : field (bitsAt hi lo v) hi lo = v % 2 ^ (hi + 1 - lo) :=
  field_putField _ _ _ _ h1 h2

theorem field_bitsAt_other {hi lo hi' lo' : Nat} (v : Nat) (h2' : hi' < 32) (h : hi' < lo ∨ hi < lo') : field (bitsAt hi lo v) hi' lo' = 0 :=
  (field_putField_other 0 hi lo v hi' lo' h2' h).trans (by simp [field, bits])

theorem b2n_lt_two (b : Bool) : b2n b < 2 := by cases b <;> decide

section
variable (s : State)

/-! ## `BLK_CONFIG` (R442) -/

/-- A field of `BLK_CONFIG`, strap by strap. -/
theorem State.field_configWord (hi lo : Nat) : field s.configWord hi lo = (field (bitsAt 4 4 (b2n s.pins.straps.twin)) hi lo
    ||| field (bitsAt 3 3 (b2n s.pins.straps.hlGen)) hi lo) ||| field (bitsAt 1 0 s.pins.straps.ncw.toNat) hi lo := by
  rw [State.configWord, field_or, field_or]

theorem State.readValue_config : s.readValue 0x00044 = s.configWord := rfl

/-! ## The identification code (R450) -/

/-- Above the strapped bits, the version and the part number. -/
theorem State.idCode_fixed {start : Nat} (len : Nat) (h : 12 ≤ start) :
    s.idCode.extractLsb' start len = ((0x3 : BitVec 4) ++ (0x7E01 : BitVec 16)).extractLsb' (start - 1 - 11) len :=
  (BitVec.extractLsb'_append_eq_of_le (by omega)).trans (BitVec.extractLsb'_append_eq_of_le (by omega))

theorem State.idCode_manufacturer : s.idCode.extractLsb' 1 11 = s.pins.straps.mfr :=
  (BitVec.extractLsb'_append_eq_of_le (Nat.le_refl 1)).trans BitVec.extractLsb'_append_eq_right

theorem State.idCode_marker : s.idCode.getLsbD 0 = true := BitVec.getLsbD_append

end

/-- Settles O45: `BLK_CONFIG` strap by strap, and the parts of the identification code. -/
theorem strapRegisters : Obligations.StrapRegisters := by
  intro s
  have htwin := Nat.mod_eq_of_lt (b2n_lt_two s.pins.straps.twin)
  have hgen := Nat.mod_eq_of_lt (b2n_lt_two s.pins.straps.hlGen)
  have hncw := Nat.mod_eq_of_lt s.pins.straps.ncw.isLt
  refine ⟨s.readValue_config, ?above, ?twin, ?gen, ?between, ?ncw, s.idCode_fixed 4 (by decide), s.idCode_fixed 16 (by decide),
    s.idCode_manufacturer, s.idCode_marker⟩
  case above | between => simp [State.field_configWord, field_bitsAt_other]
  case twin => simp [State.field_configWord, field_bitsAt_other, field_bitsAt_same, htwin]
  case gen => simp [State.field_configWord, field_bitsAt_other, field_bitsAt_same, hgen]
  case ncw => simp [State.field_configWord, field_bitsAt_other, field_bitsAt_same, hncw]

/-- Settles O34: each command by its meaning. -/
theorem pinCommandsComplete : Obligations.PinCommandsComplete := fun _ =>
  ⟨rfl, rfl, fun _ _ => rfl, fun _ _ => rfl⟩

end Sys2Proof.Machine
end

section
/-! PROOFS. What work on shootdowns and on batches that go on leaves of the districts (R377, R378, R454): it stamps again, parks, and lets groups
run on, and no district's reset, nor the result of its test, changes with that. -/

namespace Sys2Proof.Machine

/-- From one state to another every district is under reset as before, and its test has come out as before. -/
structure State.ResetKept (s t : State) : Prop where
  inReset : ∀ d, (t.dist d).inReset = (s.dist d).inReset
  testFail : ∀ d, (t.dist d).testFail = (s.dist d).testFail

theorem State.AccessKept.dists {s t : State} (h : s.AccessKept t) : t.dists = s.dists := by
  have hf := congrArg State.dists h.frame
  exact hf

namespace State.ResetKept

theorem refl (s : State) : s.ResetKept s := ⟨fun _ => rfl, fun _ => rfl⟩

theorem of_dists {s t : State} (h : t.dists = s.dists) : s.ResetKept t :=
  ⟨fun d => by rw [State.dist_congr h], fun d => by rw [State.dist_congr h]⟩

theorem trans {s t u : State} (h : s.ResetKept t) (h' : t.ResetKept u) : s.ResetKept u :=
  ⟨fun d => (h'.inReset d).trans (h.inReset d), fun d => (h'.testFail d).trans (h.testFail d)⟩

theorem ite {s t u : State} {c : Prop} [Decidable c] (ht : s.ResetKept t) (hu : s.ResetKept u) : s.ResetKept (if c then t else u) := by
  split
  · exact ht
  · exact hu

theorem foldl {α : Type} {s : State} (l : List α) (f : State → α → State) (h : ∀ (t : State) x, t.ResetKept (f t x)) : s.ResetKept (l.foldl f s) :=
  List.foldlRecOn (motive := fun t => s.ResetKept t) l f (refl s) fun t ht x _ => ht.trans (h t x)

end State.ResetKept

section
variable (s : State)

/-! ## Stamping (R67, R371) -/

theorem State.stampExtent_dists (b : Bid) (r : Root) (va n : Nat) (write : Bool) (k : Nat) : (s.stampExtent b r va n write k).1.dists = s.dists := by
  induction k generalizing s va n with
  | zero => rfl
  | succ k ih =>
    have hwalk := (State.AccessKept.walk s r va).dists
    have hput (t : State) (st : List Stamp) (pl : Nat) :
        ((State.recordPut { t with stamps := st } streamStamp (t.stampPlace pl) 8).count unitGate 5 1).dists = t.dists :=
      (State.AccessKept.recordPut { t with stamps := st } (st := streamStamp) (by decide) (t.stampPlace pl) 8).dists
    unfold State.stampExtent
    split
    · rfl
    · split
      · next t h => rwa [h] at hwalk
      · next t pva size pa w h =>
        rw [h] at hwalk
        split
        · exact hwalk
        · dsimp only
          rw [ih, hput, hwalk]

theorem State.stampAll_dists (b : Bid) (r : Root) (xs : List (Nat × Nat × Bool)) : (s.stampAll b r xs).1.dists = s.dists := by
  induction xs generalizing s with
  | nil => rfl
  | cons x xs ih =>
    obtain ⟨va, n, w⟩ := x
    have hext := s.stampExtent_dists b r va n w (n / 4096 + 2)
    unfold State.stampAll
    split
    · next t f h => rwa [h] at hext
    · next t h =>
      rw [h] at hext
      rw [ih, hext]

theorem State.stampNamed_dists (b : Bid) (xs : List (Nat × Nat × Nat × Bool)) : (s.stampNamed b xs).1.dists = s.dists := by
  induction xs generalizing s with
  | nil => rfl
  | cons x xs ih =>
    obtain ⟨acc, va, n, w⟩ := x
    have hext := s.stampExtent_dists b (bidRoot b) va n w (n / 4096 + 2)
    unfold State.stampNamed
    split
    · next t c a h => rwa [h] at hext
    · next t h =>
      rw [h] at hext
      rw [ih, hext]

theorem State.stampBatch_dists (b : Bid) (d : Desc) : (s.stampBatch b d).1.dists = s.dists := by
  have hall := State.stampAll_dists { s with stamps := s.stamps.filter (fun e => decide (e.bid ≠ b)) } b (bidRoot b) d.buffers
  unfold State.stampBatch
  dsimp only
  split
  · next t h => rwa [h] at hall
  · next t f h =>
    rw [h] at hall
    exact hall

/-! ## Faults of batches, and batches that go on (R72, R73, R337) -/

@[simp] theorem State.reportFault_dists (b : Bid) (absent : Bool) (key facc cause addr walker : Nat) (d : Option Nat) :
    (s.reportFault b absent key facc cause addr walker d).dists = s.dists := by
  unfold State.reportFault
  dsimp only
  split
  · split <;> rfl
  · exact State.report_dists ..

@[simp] theorem State.updTally_dists (b : Bid) (f : Batch → Batch) : (s.updTally b f).dists = s.dists := by
  cases h : s.batch b with
  | none => simp only [State.updTally, h]
  | some x => exact (s.updTally_kept f h).dists

namespace State.ResetKept

/-- Groups of cores change or go, and nothing else of a district. -/
theorem mapGroups (f : Nat → Group → Option Group) : s.ResetKept (s.mapGroups f) := by
  suffices h : ∀ d, ∃ c, (s.mapGroups f).dist d = { s.dist d with core := c } by
    constructor
    all_goals
      intro d
      obtain ⟨c, hc⟩ := h d
      rw [hc]
  intro d
  simp only [State.dist, SMap.get, State.mapGroups]
  induction s.dists with
  | nil => exact ⟨_, rfl⟩
  | cons p m ih =>
    obtain ⟨k, x⟩ := p
    simp only [List.map_cons, SMap.find]
    split
    · exact ⟨_, rfl⟩
    · exact ih

theorem goAgain (x : Batch) : s.ResetKept (s.goAgain x) := by
  unfold State.goAgain
  extract_lets back u v
  have hbatch : s.ResetKept u := of_dists (State.updTally_dists ..)
  exact (hbatch.trans (mapGroups u _)).trans (of_dists (s := v) rfl)

theorem resumeBatch (x : Batch) : s.ResetKept (s.resumeBatch x) := by
  unfold State.resumeBatch
  extract_lets wait s1
  have hwait : s.ResetKept wait := of_dists rfl
  have hstamp (r : State × Option (Nat × Nat))
      (hr : r = if x.desc.check1.isSome || x.desc.check3.isSome then (s1, none) else s1.stampBatch x.bid x.desc) : r.1.dists = s.dists := by
    subst hr
    split
    · rfl
    · exact s1.stampBatch_dists x.bid x.desc
  split
  · exact hwait
  · split
    · next t c a h =>
      refine of_dists ?_
      rw [State.status_dists, State.updBatch_dists]
      exact (State.reportFault_dists ..).trans (hstamp _ h.symm)
    · next t h => exact ite hwait ((of_dists (hstamp _ h.symm)).trans (goAgain ..))

theorem resumeWaiting (p : Batch → Bool) : s.ResetKept (s.resumeWaiting p) := foldl _ _ resumeBatch

/-! ## Shootdowns (R377) -/

theorem rewalk (e : Stamp) : s.ResetKept (s.rewalk e) := by
  unfold State.rewalk
  split
  · exact refl s
  · next x _ =>
    split
    · exact refl s
    · have hnamed := State.stampNamed_dists { s with stamps := dropFirst (fun y => decide (y = e)) s.stamps } e.bid (stampNeeds x.desc e)
      dsimp only
      split
      · next u h =>
        rw [h] at hnamed
        exact of_dists hnamed
      · next u acc c a h =>
        rw [h] at hnamed
        exact of_dists (((State.park_dists ..).trans (State.reportFault_dists ..)).trans hnamed)

theorem shootEnd : s.ResetKept s.shootEnd := by
  unfold State.shootEnd
  extract_lets t
  have ht : s.ResetKept t := foldl _ _ rewalk
  have hfree : t.ResetKept ((State.wr { t with gate := { t.gate with shoot := false } } Fld.lnkShootCtlBusy 0).status 1 1) :=
    of_dists (State.status_dists ..)
  exact ite (ite (refl s) ((ht.trans hfree).trans (resumeWaiting ..))) (refl s)

theorem shootTick : s.ResetKept s.shootTick := by
  have hstart : s.ResetKept s.shootStart := of_dists rfl
  exact ite ((ite (refl s) (ite (refl s) hstart)).trans (shootEnd _)) (refl s)

end State.ResetKept

end

end Sys2Proof.Machine
end

section
/-! PROOFS. Resets and start-up (R441, R444, R451 to R457). -/

namespace Sys2Proof.Machine

section
variable (s : State)

/-! ## Resets asked for by register (R452) -/

/-- `BLK_RST_CMD` taken: the word is kept, the reset named, `BUSY` 1. -/
def State.rstTaken (s : State) (scope idx : Nat) (w : Word) : State :=
  State.wr { s.hostSet 0x00054 w with gate := { s.gate with rst := some (scope, idx) } } Fld.blkRstCmdBusy 1

theorem State.hostSet_rstCmd_gate (w : Word) : (s.hostSet 0x00054 w).gate = s.gate := by
  have h := congrArg State.gate (s.hostSet_block_frame (off := 0x00054) (k := .blk) (n := 0) w rfl rfl (by decide))
  exact h

/-- A reset asked for by register begins, where the page is not halted and none is under way. -/
theorem State.rstCmd_opens {scope idx : Nat} (f : State → State) (ho : s.opens 0x00054 = true) (hrun : s.halted .blk = false)
    (hfree : s.flag Fld.blkRstCmdBusy = false) :
    s.rstCmd scope idx f = f (s.rstTaken scope idx (if scope ≤ 2 then BitVec.ofNat 32 idx else s.reg 0x00054)) := by
  have hgate := s.hostSet_rstCmd_gate (if scope ≤ 2 then BitVec.ofNat 32 idx else s.reg 0x00054)
  unfold State.rstCmd
  rw [State.guardWrite_opens _ _ _ ho]
  simp only [hrun, hfree, Bool.false_eq_true, if_false, hgate, State.rstTaken]

theorem State.rd_rstTaken_busy (scope idx : Nat) (w : Word) : (s.rstTaken scope idx w).rd Fld.blkRstCmdBusy = 1 :=
  State.rd_wr_same _ Fld.blkRstCmdBusy 1 (Nat.le_refl _) (by decide)

section
variable (ho : s.opens 0x00054 = true) (hrun : s.halted .blk = false) (hfree : s.flag Fld.blkRstCmdBusy = false)
include ho hrun hfree

theorem exec_districtReset_host (d : Dist) (pass : Bool) :
    exec (.districtReset d true pass) s = .next ((s.rstTaken 1 d.val (BitVec.ofNat 32 d.val)).distResetAsked d.val) :=
  congrArg Host.Outcome.next ((if_pos rfl).trans (s.rstCmd_opens _ ho hrun hfree))

theorem exec_portReset_host (p : Port) (e : StackEnv) : exec (.portReset p true e) s
    = .next ((s.rstTaken 2 p.val (BitVec.ofNat 32 p.val)).updPort p.val (fun x => { x with inResetP := true })) :=
  congrArg Host.Outcome.next ((if_pos rfl).trans (s.rstCmd_opens _ ho hrun hfree))

theorem exec_hostLinkReset_host (l : LinkEnv) : exec (.hostLinkReset true l) s = .next ((s.rstTaken 3 0 (s.reg 0x00054)).setLink 1) :=
  congrArg Host.Outcome.next ((if_pos rfl).trans (s.rstCmd_opens _ ho hrun hfree))

theorem exec_twinLinkReset_host : exec (.twinLinkReset true) s = .next (((s.rstTaken 4 0 (s.reg 0x00054)).linkReset false).rstDone 4 0) :=
  congrArg Host.Outcome.next ((if_pos rfl).trans (s.rstCmd_opens _ ho hrun hfree))

end

/-! ## District reset (R454, R456, R458) -/

@[simp] theorem State.resetStatus_dists (pg : Nat) : (s.resetStatus pg).dists = s.dists := by
  unfold State.resetStatus
  split
  · rfl
  · exact List.foldlRecOn (motive := fun t : State => t.dists = s.dists) _ _ rfl fun _ ht _ _ => ht

@[simp] theorem State.rstDone_dists (scope idx : Nat) : (s.rstDone scope idx).dists = s.dists := by
  unfold State.rstDone
  split
  · exact State.status_dists ..
  · rfl

theorem State.ResetKept.abandonStores (d : Nat) : s.ResetKept (s.abandonStores d) := by
  refine .trans ?_ (.shootTick _)
  exact .of_dists rfl

/-- The end of a district's reset: it is not under reset, and its test has come out as it did. -/
theorem State.dist_distResetEnd (d : Nat) (pass : Bool) :
    ((s.distResetEnd d pass).dist d).inReset = false ∧ ((s.distResetEnd d pass).dist d).testFail = !pass := by
  unfold State.distResetEnd
  extract_lets u x y0 y t
  have hput : t.dist d = y := State.dist_setDist_same ..
  have hpage : t.ResetKept (((t.zeroUnit d).resetPage (0x40 + d)).wr (Fld.dstCoreCtlSplitDef d) 1) :=
    .of_dists (State.resetStatus_dists ..)
  have hkept := (hpage.trans (.abandonStores _ d)).trans (.of_dists (State.rstDone_dists _ 1 d))
  rw [hkept.inReset, hkept.testFail, hput]
  exact ⟨rfl, rfl⟩

theorem exec_districtReset_end {d : Dist} {pass : Bool} (hres : (s.dist d.val).inReset = true) :
    exec (.districtReset d false pass) s = .next (s.distResetEnd d.val pass) := congrArg Host.Outcome.next (if_pos hres)

/-! ## Resets of ports and links (R451, R455) -/

theorem exec_portReset_end {p : Port} {e : StackEnv} (hres : (s.port p.val).inResetP = true) :
    exec (.portReset p false e) s = .next (s.portResetEnd p.val e) := congrArg Host.Outcome.next (if_pos hres)

theorem exec_hostLinkReset_end {l : LinkEnv} (hup : s.phase = .up) : exec (.hostLinkReset false l) s = .next (s.hostLinkEnd l) :=
  congrArg Host.Outcome.next (if_pos hup)

theorem exec_twinLinkReset_own (hup : s.phase = .up) : exec (.twinLinkReset false) s = .next (s.linkReset false) :=
  congrArg Host.Outcome.next (if_pos hup)

/-- A status bit asks for an interrupt at most. -/
theorem State.status_rst (pg n : Nat) : (s.status pg n).gate.rst = s.gate.rst := by
  unfold State.status State.setBit
  dsimp only
  split <;> rfl

/-- The host link's reset asked for: it trains, and the command stays as taken. -/
theorem State.setLink_training (hrst : s.gate.rst = some (3, 0)) (hbusy : s.rd Fld.blkRstCmdBusy = 1) :
    (s.setLink 1).gate.rst = some (3, 0) ∧ (s.setLink 1).rd Fld.blkRstCmdBusy = 1 ∧ (s.setLink 1).rd Fld.lnkLinkLstate = 1 := by
  by_cases h : s.rd Fld.lnkLinkLstate = 1
  · rw [State.setLink, if_pos h]
    exact ⟨hrst, hbusy, h⟩
  · refine ⟨?_, ?_, (s.setLink_changes (by decide) h).1⟩
    all_goals rw [State.setLink, if_neg h]
    · rw [State.status_rst, State.wr_gate, hrst]
    · rw [State.rd, State.status, State.reg_setBit_other _ _ _ _ (by decide), ← State.rd, State.rd_wr_other _ _ _ _ (by decide), hbusy]

/-! ## Cold and warm reset (R451 to R453, R457, R458) -/

theorem coldCode_lt (c : ColdCause) : coldCode c < 16 := by cases c <;> decide

theorem State.rd_cold_cause (c : ColdCause) (st : Straps) : (s.cold c st).rd Fld.blkStatusCause = coldCode c :=
  (State.rd_wr_same _ Fld.blkStatusCause _ (by decide) (by decide)).trans (Nat.mod_eq_of_lt (coldCode_lt c))

theorem State.reg_cold_other (c : ColdCause) (st : Straps) {j : Nat} (h : j ≠ 0x0004C) : (s.cold c st).reg j = State.reset.reg j :=
  State.reg_wr_other _ Fld.blkStatusCause _ _ h

theorem State.cold_host (c : ColdCause) (st : Straps) : (s.cold c st).host = s.host := State.wr_host ..

theorem State.cold_phase (c : ColdCause) (st : Straps) : (s.cold c st).phase = State.reset.phase := State.wr_phase ..

theorem State.cold_scene (c : ColdCause) (st : Straps) : (s.cold c st).scene = State.reset.scene := State.wr_scene ..

theorem exec_coldReset {c : ColdCause} {st : Straps} (hdeep : ¬ (c = .pokMain ∧ s.rd Fld.blkRungCurrent = 4))
    (hmode : ¬ (c = .testMode ∧ s.pins.testMode = false)) : exec (.coldReset c st) s = .next (s.cold c st) :=
  congrArg Host.Outcome.next ((if_neg hdeep).trans (if_neg hmode))

/-- A warm reset triggered: its cause is shown, and besides the registers only the phase changes. -/
theorem State.wantWarm_kept {c : Nat} (h : c < 16) : (s.wantWarm c).phase = .warmWanted ∧ (s.wantWarm c).rd Fld.blkStatusCause = c
    ∧ { s.wantWarm c with phase := s.phase, regs := s.regs } = s :=
  ⟨rfl, (State.rd_wr_same _ Fld.blkStatusCause _ (by decide) (by decide)).trans (Nat.mod_eq_of_lt h), rfl⟩

theorem exec_blkWarm (ho : s.opens 0x00048 = true) : exec .blkWarm s = .next (s.wantWarm 8) :=
  congrArg Host.Outcome.next (State.guardWrite_opens _ _ _ ho)

theorem exec_fabricReset : exec .fabricReset s = .next (s.wantWarm 9) := rfl

theorem exec_warmReset (hwarm : s.phase = .warmWanted) : exec .warmReset s = .next
    (State.wr (State.warmUnits (State.dropCopies (((List.range 6).filter (s.twinSend .reset).present).foldl State.cleanPort (s.twinSend .reset))))
      Fld.blkStatusStep 2) := congrArg Host.Outcome.next (if_pos hwarm)

/-! ## Start-up (R457) -/

theorem exec_startup {c : Bool} {e : StartEnv} (hphase : s.phase = .starting c) (hstrips : s.flag Fld.blkStatusStripFail = false)
    (hvolt : s.voltWaits = false) (hgood : (s.startUnits c e).flag Fld.blkStatusStripFail = false) :
    exec (.startup e) s = .next ((s.startUnits c e).startRest c e) := by
  change execStartup e s = _
  simp only [execStartup, hphase, hstrips, hvolt, hgood, Bool.false_eq_true, if_false]

end

/-- Settles O33, one lemma for each command, and what it leaves. -/
theorem resetCommandsComplete : Obligations.ResetCommandsComplete := by
  intro s
  refine ⟨fun d pass ho hrun hfree => exec_districtReset_host s ho hrun hfree d pass,
    fun d pass hres => ⟨exec_districtReset_end s hres, s.dist_distResetEnd d.val pass⟩, ?port, fun p e => exec_portReset_end s, ?hostLink,
    fun l => exec_hostLinkReset_end s, exec_twinLinkReset_own s, exec_twinLinkReset_host s, ?cold,
    fun ho => ⟨_, exec_blkWarm s ho, s.wantWarm_kept (by decide)⟩, ⟨_, exec_fabricReset s, s.wantWarm_kept (by decide)⟩,
    exec_warmReset s, fun c e => exec_startup s⟩
  case port =>
    exact fun p e ho hrun hfree => ⟨_, exec_portReset_host s ho hrun hfree p e, rfl, s.rd_rstTaken_busy .., by rw [State.port_updPort_same]⟩
  case hostLink =>
    exact fun l ho hrun hfree => ⟨_, exec_hostLinkReset_host s ho hrun hfree l, State.setLink_training _ rfl (s.rd_rstTaken_busy ..)⟩
  case cold =>
    exact fun c st hdeep hmode => ⟨_, exec_coldReset s hdeep hmode, s.rd_cold_cause c st, rfl, s.cold_host c st, s.cold_phase c st, rfl,
      s.cold_scene c st, rfl, rfl, fun j => s.reg_cold_other c st⟩

end Sys2Proof.Machine
end

section
/-! PROOFS. The front of the queue, and the captures of the counters (R474 to R478). -/

namespace Sys2Proof.Machine

/-- Settles O37: what `step` is where a command waits. -/
theorem stepRunsTheFront : Obligations.StepRunsTheFront := by
  intro c rest s hfront
  rw [step, hfront]

/-! ## Holding counters -/

/-- Keys `b` to `b + n - 1` of a table copied from another: what any key reads then. -/
theorem SMap.get_foldl_set_range {α : Type} [DecidableEq α] (d : α) (m m' : SMap α) (b n k : Nat) :
    SMap.get d ((List.range n).foldl (fun h i => SMap.set d h (b + i) (SMap.get d m (b + i))) m') k
      = if b ≤ k ∧ k < b + n then SMap.get d m k else SMap.get d m' k := by
  induction n with
  | zero => simp [show ¬ (b ≤ k ∧ k < b) by omega]
  | succ n ih =>
    rw [List.range_succ, List.foldl_append, List.foldl_cons, List.foldl_nil]
    by_cases hk : k = b + n
    · subst hk
      rw [SMap.get_set_same, if_pos (by omega)]
    · rw [SMap.get_set_other _ _ _ hk, ih]
      congr 1
      exact propext (by omega)

/-- A holding counter has its live counter's value. -/
def State.Captured (s : State) (k : Nat) : Prop := SMap.get 0 s.hold k = SMap.get 0 s.live k

section
variable (s : State)

theorem State.hold_captureUnit (u k : Nat) : SMap.get 0 (s.captureUnit u).hold k
    = if u * 256 ≤ k ∧ k < u * 256 + unitCounters u then SMap.get 0 s.live k else SMap.get 0 s.hold k :=
  SMap.get_foldl_set_range ..

/-- A page's capture (R477): the holding counters are those after its unit's capture, and of the rest only `SEQ` changes. -/
theorem State.capturePage_hold (pg : Nat) :
    (s.capturePage pg).hold = if pageUnit pg = unitNone then s.hold else (s.captureUnit (pageUnit pg)).hold := by
  unfold State.capturePage
  dsimp only
  split <;> rfl

theorem State.capturePage_regs (pg : Nat) :
    (s.capturePage pg).regs = (s.wr ⟨pg * 0x1000 + 0x020, 31, 16⟩ (s.rd ⟨pg * 0x1000 + 0x020, 31, 16⟩ + 1)).regs := by
  unfold State.capturePage
  dsimp only
  split <;> rfl

theorem State.capturePage_frame (pg : Nat) : { s.capturePage pg with regs := s.regs, hold := s.hold } = s := by
  unfold State.capturePage
  dsimp only
  split <;> rfl

theorem State.capturePage_live (pg : Nat) : (s.capturePage pg).live = s.live := (congrArg State.live (s.capturePage_frame pg) :)

theorem State.capturePage_rd_seq (pg : Nat) :
    (s.capturePage pg).rd ⟨pg * 0x1000 + 0x020, 31, 16⟩ = (s.rd ⟨pg * 0x1000 + 0x020, 31, 16⟩ + 1) % 65536 := by
  rw [State.rd_congr (s.capturePage_regs pg)]
  exact State.rd_wr_same _ ⟨pg * 0x1000 + 0x020, 31, 16⟩ _ (show 16 ≤ 31 by decide) (show 31 < 32 by decide)

theorem State.capturePage_reg_other (pg : Nat) {j : Nat} (h : j ≠ pg * 0x1000 + 0x020) : (s.capturePage pg).reg j = s.reg j := by
  rw [State.reg_congr (s.capturePage_regs pg), State.reg_wr_other _ _ _ _ h]

/-- A page's capture captures every counter of its unit, -/
theorem State.capturePage_captures {pg i : Nat} (hunit : pageUnit pg ≠ unitNone) (hi : i < unitCounters (pageUnit pg)) :
    SMap.get 0 (s.capturePage pg).hold (pageUnit pg * 256 + i) = SMap.get 0 s.live (pageUnit pg * 256 + i) := by
  rw [s.capturePage_hold, if_neg hunit, s.hold_captureUnit, if_pos (by omega)]

/-- and leaves captured what was. -/
theorem State.Captured.capturePage {s : State} {k : Nat} (h : s.Captured k) (pg : Nat) : (s.capturePage pg).Captured k := by
  unfold State.Captured
  rw [s.capturePage_live, s.capturePage_hold]
  split
  · exact h
  · rw [s.hold_captureUnit]
    split
    · rfl
    · exact h

/-! ## The wave through the pages -/

theorem State.live_capturePages (pgs : List Nat) : (pgs.foldl State.capturePage s).live = s.live :=
  List.foldlRecOn (motive := fun t => t.live = s.live) pgs State.capturePage rfl fun t ht pg _ => (t.capturePage_live pg).trans ht

theorem State.reg_capturePages (pgs : List Nat) {j : Nat} (h : j % 0x1000 ≠ 0x020) : (pgs.foldl State.capturePage s).reg j = s.reg j :=
  List.foldlRecOn (motive := fun t => t.reg j = s.reg j) pgs State.capturePage rfl
    fun t ht pg _ => (t.capturePage_reg_other pg (by omega)).trans ht

theorem State.Captured.capturePages {s : State} {k : Nat} (h : s.Captured k) (pgs : List Nat) : (pgs.foldl State.capturePage s).Captured k :=
  List.foldlRecOn (motive := fun t => t.Captured k) pgs State.capturePage h fun _ ht pg _ => ht.capturePage pg

/-- The wave captures the counters of every page it passes. -/
theorem State.captured_capturePages {pgs : List Nat} {pg i : Nat} (hmem : pg ∈ pgs) (hunit : pageUnit pg ≠ unitNone)
    (hi : i < unitCounters (pageUnit pg)) : (pgs.foldl State.capturePage s).Captured (pageUnit pg * 256 + i) := by
  induction pgs generalizing s with
  | nil => cases hmem
  | cons p pgs ih =>
    rw [List.foldl_cons]
    rcases List.mem_cons.mp hmem with rfl | hrest
    · have hhere : (s.capturePage pg).Captured (pageUnit pg * 256 + i) :=
        (s.capturePage_captures hunit hi).trans (congrArg (SMap.get 0 · _) (s.capturePage_live pg).symm)
      exact hhere.capturePages pgs
    · exact ih (s.capturePage p) hrest

/-- Every unit has its page on the ring (R496). -/
theorem ring_unitPage {u : Nat} (hu : u < 0x86 ∨ (0x88 ≤ u ∧ u ≤ 0x8C)) :
    unitPage u ∈ ringPages ∧ pageUnit (unitPage u) = u ∧ u ≠ unitNone := by
  have hall : ∀ u < 0x8D, (u < 0x86 ∨ (0x88 ≤ u ∧ u ≤ 0x8C)) → unitPage u ∈ ringPages ∧ pageUnit (unitPage u) = u ∧ u ≠ unitNone := by
    decide +kernel
  exact hall u (by omega) hu

theorem State.captured_ring {u i : Nat} (hu : u < 0x86 ∨ (0x88 ≤ u ∧ u ≤ 0x8C)) (hi : i < unitCounters u) :
    (ringPages.foldl State.capturePage s).Captured (u * 256 + i) := by
  obtain ⟨hmem, hpage, hunit⟩ := ring_unitPage hu
  rw [← hpage] at hunit hi
  have h := s.captured_capturePages hmem hunit hi
  rwa [hpage] at h

/-! ## The commands -/

theorem exec_counterWrite_lo {k : Nat} (v : Word) (ho : s.opens 0x0F048 = true) (hpar : s.pageBad 15 = false) (hkey : s.ctrKey = some k) :
    exec (.counterWrite false v) s
      = .next { s with live := SMap.set 0 s.live k ((SMap.get 0 s.live k &&& 0xFFFFFFFF00000000) ||| v.setWidth 64) } := by
  change execCounterWrite false v s = _
  simp [execCounterWrite, State.guardWrite_opens _ _ _ ho, s.parityCheck_good hpar, hkey]

theorem exec_counterWrite_hi {k : Nat} (v : Word) (ho : s.opens 0x0F04C = true) (hpar : s.pageBad 15 = false) (hkey : s.ctrKey = some k) :
    exec (.counterWrite true v) s
      = .next { s with live := SMap.set 0 s.live k ((v.setWidth 64 <<< 32) ||| (SMap.get 0 s.live k &&& 0xFFFFFFFF)) } := by
  change execCounterWrite true v s = _
  simp [execCounterWrite, State.guardWrite_opens _ _ _ ho, s.parityCheck_good hpar, hkey]

theorem exec_pgSnap {pg : BitVec 8} (ho : s.opens (pg.toNat * 0x1000 + 0x020) = true) (hpage : (pageOf pg.toNat).isSome = true) :
    exec (.pgSnap pg) s = .next (s.capturePage pg.toNat) :=
  congrArg Host.Outcome.next ((State.guardWrite_opens _ _ _ ho).trans (if_pos hpage))

/-- The wave past, `CTR_SNAP.SEQ` advanced. -/
def State.ringCaptured (s : State) : State :=
  let u := ringPages.foldl State.capturePage s
  u.wr Fld.ctrSnapSeq (u.rd Fld.ctrSnapSeq + 1)

theorem exec_ctrSnap (ho : s.opens 0x0F040 = true) (hrun : s.halted .ctr = false) :
    exec .ctrSnap s = .next (s.ringCaptured.status 15 0) := by
  change execCtrSnap s = _
  simp [execCtrSnap, State.guardWrite_opens _ _ _ ho, hrun, State.ringCaptured]

theorem State.rd_ringCaptured_seq : s.ringCaptured.rd Fld.ctrSnapSeq = (s.rd Fld.ctrSnapSeq + 1) % 65536 := by
  refine (State.rd_wr_same _ Fld.ctrSnapSeq _ (by decide) (by decide)).trans ?_
  rw [State.rd, s.reg_capturePages _ (by decide), ← State.rd]
  rfl

theorem State.live_ringCaptured : s.ringCaptured.live = s.live := (State.wr_live ..).trans (s.live_capturePages ringPages)

theorem State.hold_ringCaptured {u i : Nat} (hu : u < 0x86 ∨ (0x88 ≤ u ∧ u ≤ 0x8C)) (hi : i < unitCounters u) :
    SMap.get 0 s.ringCaptured.hold (u * 256 + i) = SMap.get 0 s.live (u * 256 + i) := by
  unfold State.ringCaptured
  dsimp only
  rw [State.wr_hold, ← s.live_capturePages ringPages]
  exact s.captured_ring hu hi

end

/-- Settles O16, one lemma for each command: a page captured stays captured while the wave goes on. -/
theorem capturesComplete : Obligations.CapturesComplete := by
  intro s
  refine ⟨?lo, ?hi, ?page, ?ring⟩
  case lo => exact fun v k ho hpar hkey =>
    ⟨_, exec_counterWrite_lo s v ho hpar hkey, SMap.get_set_same .., fun j hj => SMap.get_set_other _ _ _ hj, rfl⟩
  case hi => exact fun v k ho hpar hkey =>
    ⟨_, exec_counterWrite_hi s v ho hpar hkey, SMap.get_set_same .., fun j hj => SMap.get_set_other _ _ _ hj, rfl⟩
  case page => exact fun pg ho hpage =>
    ⟨_, exec_pgSnap s ho hpage, fun i hunit hi => s.capturePage_captures hunit hi, s.capturePage_rd_seq _,
      fun j hj => s.capturePage_reg_other _ hj, s.capturePage_frame _⟩
  case ring =>
    intro ho hrun
    refine ⟨_, exec_ctrSnap s ho hrun, ?_, fun u i hu hi => ?_, (State.status_live ..).trans s.live_ringCaptured⟩
    · rw [State.rd, State.status, State.reg_setBit_other _ _ _ _ (by decide)]
      exact s.rd_ringCaptured_seq
    · rw [State.status_hold]
      exact s.hold_ringCaptured hu hi

end Sys2Proof.Machine
end

section
/-! PROOFS. The canonical form of both memories (log 2): what keeps it. -/

namespace Sys2Proof.Machine

/-- Host memory and scene memory are in canonical form. -/
structure State.MemWf (s : State) : Prop where
  host : Memory.wf s.host = true
  scene : Memory.wf s.scene = true

/-- A command's answer leaves both memories in canonical form. -/
def NextWf (r : Res) : Prop := ∀ t, r = .next t → t.MemWf

theorem State.memoryOk_iff {s : State} : s.memoryOk = true ↔ s.MemWf := by
  rw [State.memoryOk, Bool.and_eq_true]
  exact ⟨fun ⟨hhost, hscene⟩ => ⟨hhost, hscene⟩, fun h => ⟨h.host, h.scene⟩⟩

/-! ## How the form is carried along

Few functions write a memory: `hostWrite`, `sendIrq`, `reissue` and `execHostReadData` store bytes in host memory, `stackPut` and
`stackWord` in scene memory; `cold` and `layOut` begin scene memory anew. Each other function reaches the memories only through the
functions it calls: its lemma bears its name and follows its branches.

Some functions match on a read of a fixed number of bytes at an address near 2^52, or of a fixed length, which the kernel would evaluate in
order to compare the function with its branches. There the function is unfolded unapplied (`conv in f => delta f`, as `State.loadSeq_ok`
does), or the read is kept opaque under a name of its own (`obtain ⟨read, hread⟩ : ∃ f, State.walkRead = f`). -/

namespace State.MemWf

variable {s t : State}

/-- A state with the same memories. -/
theorem of_eq (h : s.MemWf) (hhost : t.host = s.host := by rfl) (hscene : t.scene = s.scene := by rfl) : t.MemWf :=
  ⟨hhost ▸ h.host, hscene ▸ h.scene⟩

/-- Any other field of the state may be replaced. -/
theorem upd {pending regs parBad locked live hold ten tenBad map mapBad hostWr codeErr poison ports capC stk fetched seqWait cancels
    queErrS batches tally tallyErr tallyPos tallyStop stamps xc faults reports contribs locks walkers clock dists links msgs gate house
    power pins twin phase freeCtr} (h : s.MemWf) :
    State.MemWf ⟨pending, regs, parBad, locked, live, hold, ten, tenBad, map, mapBad, s.host, hostWr, s.scene, codeErr, poison, ports,
      capC, stk, fetched, seqWait, cancels, queErrS, batches, tally, tallyErr, tallyPos, tallyStop, stamps, xc, faults, reports,
      contribs, locks, walkers, clock, dists, links, msgs, gate, house, power, pins, twin, phase, freeCtr⟩ :=
  ⟨h.host, h.scene⟩

theorem pair {α : Type} {x : α} (h : s.MemWf) : (s, x).1.MemWf := h

theorem of_reportKept (h : s.MemWf) (hk : s.ReportKept t) : t.MemWf := h.of_eq hk.host hk.scene

theorem of_memoryKept (h : s.MemWf) (hk : s.MemoryKept t) : t.MemWf := h.of_eq hk.host hk.scene

theorem next (h : s.MemWf) : NextWf (.next s) := fun _ ht => by
  cases ht
  exact h

theorem ite {c : Prop} [Decidable c] (hs : s.MemWf) (ht : t.MemWf) : (if c then s else t).MemWf := by
  split
  · exact hs
  · exact ht

theorem ite_fst {α : Type} {c : Prop} [Decidable c] {p q : State × α} (hp : p.1.MemWf) (hq : q.1.MemWf) : (if c then p else q).1.MemWf := by
  split
  · exact hp
  · exact hq

/-- The first part of a pair that has been taken apart. -/
theorem of_fst {α : Type} {p : State × α} {x : α} (hp : p.1.MemWf) (he : p = (t, x)) : t.MemWf := by
  rwa [he] at hp

theorem foldl {α : Type} {l : List α} {f : State → α → State} (h : s.MemWf) (hf : ∀ (t : State) x, t.MemWf → (f t x).MemWf) :
    (l.foldl f s).MemWf :=
  List.foldlRecOn (motive := State.MemWf) l f h fun t ht x _ => hf t x ht

theorem foldl_fst {α β : Type} {l : List α} {f : State × β → α → State × β} {p : State × β} (h : p.1.MemWf)
    (hf : ∀ (q : State × β) x, q.1.MemWf → (f q x).1.MemWf) : (l.foldl f p).1.MemWf :=
  List.foldlRecOn (motive := fun q => q.1.MemWf) l f h fun q hq x _ => hf q x hq

end State.MemWf

end Sys2Proof.Machine
end

section
/-! PROOFS. The canonical form of both memories is kept (log 2): shared operations and the mesh. -/

namespace Sys2Proof.Machine
namespace State.MemWf

variable {s t : State}

/-! ## Registers, counters, reports and messages -/

theorem setReg {off v} (h : s.MemWf) : (s.setReg off v).MemWf := h.upd

theorem wr {f v} (h : s.MemWf) : (s.wr f v).MemWf := h.setReg

theorem count {u i n} (h : s.MemWf) : (s.count u i n).MemWf := h.upd

theorem askEvent (h : s.MemWf) : s.askEvent.MemWf := h.upd

theorem setBit {f pg} (h : s.MemWf) : (s.setBit f pg).MemWf := h.of_reportKept (.setBit ..)

theorem status {pg n} (h : s.MemWf) : (s.status pg n).MemWf := h.setBit

theorem twnEvent {f} (h : s.MemWf) : (s.twnEvent f).MemWf := h.setBit

theorem report {page err unit ctr} (h : s.MemWf) : (s.report page err unit ctr).MemWf := h.of_reportKept (.report ..)

theorem disarm {f} (h : s.MemWf) : (s.disarm f).MemWf := h.wr

theorem setDist {d x} (h : s.MemWf) : (s.setDist d x).MemWf := h.upd

theorem updDist {d f} (h : s.MemWf) : (s.updDist d f).MemWf := h.setDist

theorem setPort {p x} (h : s.MemWf) : (s.setPort p x).MemWf := h.upd

theorem updPort {p f} (h : s.MemWf) : (s.updPort p f).MemWf := h.setPort

theorem updBatch {b f} (h : s.MemWf) : (s.updBatch b f).MemWf := h.upd

theorem updWalker {p f} (h : s.MemWf) : (s.updWalker p f).MemWf := h.upd

theorem tick (h : s.MemWf) : s.tick.MemWf := h.upd

theorem wantWarm {cause} (h : s.MemWf) : (s.wantWarm cause).MemWf := h.upd.wr

theorem countRead {n} (h : s.MemWf) : (s.countRead n).MemWf := h.count

theorem zeroUnit {u} (h : s.MemWf) : (s.zeroUnit u).MemWf := h.upd

theorem hostArm (h : s.MemWf) : s.hostArm.MemWf := .ite h.disarm.report.wantWarm h

theorem hostWrite {pa data fr} (h : s.MemWf) : (s.hostWrite pa data fr).MemWf :=
  have hput : State.MemWf { s with
      host := Memory.store s.host pa data
      hostWr := s.hostWr ++ [{ pa := pa, data := data, fr := fr, old := false }] } := ⟨Memory.wf_store _ _ _ h.host, h.scene⟩
  hput.count.hostArm

theorem hostRead {n} (h : s.MemWf) : (s.hostRead n).MemWf := h.countRead.hostArm

/-! ## The avenue mesh (R10, R14, R186) -/

theorem noMemos (h : s.MemWf) : s.noMemos.MemWf := h.upd

theorem bumpEpoch (h : s.MemWf) : s.bumpEpoch.MemWf := h.wr.noMemos

theorem wantRound (h : s.MemWf) : s.wantRound.MemWf := h.upd

theorem refreshDrained {d} (h : s.MemWf) : (s.refreshDrained d).MemWf := .ite h (.ite h.updDist.status h.updDist)

theorem reasonRaw {d bit on} (h : s.MemWf) : (s.reasonRaw d bit on).MemWf := by
  unfold State.reasonRaw
  extract_lets x r was now s1 out s2
  have hs2 : s2.MemWf := .ite h.setDist.upd h.setDist
  exact (ite hs2 hs2.status).refreshDrained

theorem isolate (h : s.MemWf) : s.isolate.MemWf := .ite h (h.foldl (fun _ _ ht => .ite ht ht.reasonRaw))

theorem reroute (h : s.MemWf) : s.reroute.MemWf := h.isolate.bumpEpoch.wantRound

theorem setReason {d bit on} (h : s.MemWf) : (s.setReason d bit on).MemWf := .ite h (.ite h.reasonRaw h.reasonRaw.reroute)

theorem faultClose {d} (h : s.MemWf) : (s.faultClose d).MemWf := h.updDist.setReason

theorem heatClose {d} (h : s.MemWf) : (s.heatClose d).MemWf := .ite h.setReason h

theorem deadEnds {ds} (h : s.MemWf) : (s.deadEnds ds).MemWf := h.foldl fun _ _ ht => .ite ht.updDist ht

theorem unlink {a b} (h : s.MemWf) : (s.unlink a b).MemWf := by
  unfold State.unlink
  extract_lets free s1 s2 s3 opens dies s4
  have hs4 : s4.MemWf := .ite h.upd.deadEnds.isolate.bumpEpoch h.upd.deadEnds.isolate
  exact .ite hs4.wantRound hs4

theorem closeLink {a b} (h : s.MemWf) : (s.closeLink a b).MemWf := h.unlink.report

theorem relink {d} (h : s.MemWf) : (s.relink d).MemWf := by
  unfold State.relink
  extract_lets near back s1 s2
  have hs2 : s2.MemWf := (h.upd.foldl (fun _ _ ht => ht.updDist)).isolate
  exact .ite (ite hs2.bumpEpoch hs2).wantRound (.ite hs2.bumpEpoch hs2)

theorem crossLinks {walker dst here n} (h : s.MemWf) : (s.crossLinks walker dst here n).MemWf := by
  induction n generalizing s here with
  | zero => exact h
  | succ n ih =>
    rw [State.crossLinks]
    split
    · exact h
    · extract_lets t
      have ht : t.MemWf := .ite h.count h
      exact .ite (ih ht.disarm.disarm.count.closeLink) (.ite (ih ht.disarm.count) (ih ht))

theorem trip {d out back} (h : s.MemWf) : (s.trip d out back).MemWf := by
  unfold State.trip
  refine .ite h ?_
  split
  · exact h
  · exact h.crossLinks.crossLinks

theorem portTrip {d p} (h : s.MemWf) : (s.portTrip d p).MemWf := .ite h h.trip

theorem gateTrip {d} (h : s.MemWf) : (s.gateTrip d).MemWf := .ite h.trip h

theorem gateMessage {d} (h : s.MemWf) : (s.gateMessage d).MemWf := h.crossLinks

end State.MemWf
end Sys2Proof.Machine
end

section
/-! PROOFS. The canonical form of both memories is kept (log 2): scene memory, the Gate, routes and the register window. -/

namespace Sys2Proof.Machine
namespace State.MemWf

variable {s t : State}

/-! ## Scene memory behind the stack ports (R342 to R348) -/

theorem codeReport {p a r} (h : s.MemWf) : (s.codeReport p a r).MemWf := by
  unfold State.codeReport
  split
  · exact h
  · exact h
  · exact h.report
  · exact h.report
  · exact .ite h.report h.report.wr.wr
  · exact .ite h.report h.report.wr.wr

theorem setPoison {w on} (h : s.MemWf) : (s.setPoison w on).MemWf := h.upd

theorem stackArm {p w} (h : s.MemWf) : (s.stackArm p w).MemWf := .ite h h.disarm.upd

/-- A word that the code miscorrects is stored as corrected (R346). -/
theorem stackWord {p w} (h : s.MemWf) : (s.stackWord p w).1.MemWf := by
  unfold State.stackWord
  extract_lets pat data res out s1
  have hs1 : s1.MemWf := h.codeReport
  clear_value res
  split
  · exact hs1
  · exact hs1.upd.stackArm
  · exact stackArm ⟨hs1.host, Memory.wf_store _ _ _ hs1.scene⟩
  · exact hs1
  all_goals exact hs1.setPoison

theorem stackWords {p w n} (h : s.MemWf) : (s.stackWords p w n).1.MemWf := by
  induction n generalizing s w with
  | zero => exact h
  | succ n ih => exact ih h.stackWord

theorem stackExpiry {p} (h : s.MemWf) : (s.stackExpiry p).MemWf := h.report.updPort

theorem stackReq {p} (h : s.MemWf) : (s.stackReq p).MemWf := .ite h.disarm.stackExpiry h

theorem stackSector {p a} (h : s.MemWf) : (s.stackSector p a).1.MemWf := .ite_fst h.stackReq.count.stackWords h

theorem stackPut {p a data} (h : s.MemWf) : (s.stackPut p a data).MemWf :=
  have hput (c : SMap (BitVec 72)) : State.MemWf { s.stackReq p with scene := Memory.store (s.stackReq p).scene a data, codeErr := c } :=
    ⟨h.stackReq.host, Memory.wf_store _ _ _ h.stackReq.scene⟩
  .ite (hput _).count.stackArm h

theorem dirtyLost {p a} (h : s.MemWf) : (s.dirtyLost p a).MemWf := h.codeReport

theorem writeBack {p a x} (h : s.MemWf) : (s.writeBack p a x).MemWf := .ite (.ite h.dirtyLost h.stackPut) h

theorem lineBack {p l} (h : s.MemWf) : (s.lineBack p l).MemWf := h.foldl fun _ _ hu => hu.writeBack

theorem evictOldest {p} (h : s.MemWf) : (s.evictOldest p).MemWf := by
  unfold State.evictOldest
  split
  · exact h
  · exact h.updPort.lineBack

theorem evictRoom {p} (h : s.MemWf) : (s.evictRoom p).MemWf := .ite h h.evictOldest

theorem evictLine {p l} (h : s.MemWf) : (s.evictLine p l).MemWf := .ite h.evictRoom.updPort.count h

theorem bufferPut {p a y} (h : s.MemWf) : (s.bufferPut p a y).MemWf := .ite h.updPort h.evictRoom.updPort

theorem allocLine {p c a} (h : s.MemWf) : (s.allocLine p c a).1.MemWf := by
  unfold State.allocLine
  dsimp only
  split
  · exact h
  split
  · exact h
  split
  · exact h
  · refine (updPort ?_).pair
    split
    · exact h.updPort.evictLine
    · exact h

theorem install {p c a x} (h : s.MemWf) : (s.install p c a x).1.MemWf := by
  unfold State.install
  refine .ite_fst ?_ h.allocLine.count.pair
  extract_lets bad t
  have ht : t.MemWf := .ite h.allocLine.disarm h.allocLine
  split
  · exact ht.updPort.pair
  · exact ht

theorem trainStride {p st loc miss} (h : s.MemWf) : (s.trainStride p st loc miss).MemWf := by
  unfold State.trainStride
  split
  · exact .ite h.updPort h
  · exact h.updPort

theorem apDeliver {a data bad} (h : s.MemWf) : (s.apDeliver a data bad).MemWf := h.upd

theorem fill {p m} (h : s.MemWf) : (s.fill p m).MemWf := by
  unfold State.fill
  extract_lets t held r u
  have hr : r.1.MemWf := by
    clear_value held
    dsimp only [r]
    split
    · exact h.updPort.pair
    · exact h.updPort.stackSector
  have hu : u.MemWf := .ite hr hr.install
  exact hu.apDeliver

theorem fillPending {p a} (h : s.MemWf) : (s.fillPending p a).MemWf := by
  unfold State.fillPending
  split
  · exact h.fill
  · exact h

theorem request {st p a} (h : s.MemWf) : (s.request st p a).MemWf := (ite h.portTrip h).fillPending

theorem sectorHit {st p loc a} (h : s.MemWf) : (s.sectorHit st p loc a).1.MemWf := by
  unfold State.sectorHit
  refine .ite_fst h.count.trainStride.updPort.pair ?_
  extract_lets s1
  have hs1 : s1.MemWf := .ite h.dirtyLost.updPort (.ite h.report h)
  split
  · exact hs1
  · exact .ite_fst hs1.dirtyLost.updPort.pair hs1.count.trainStride.pair

theorem sectorMiss {st p loc a} (h : s.MemWf) : (s.sectorMiss st p loc a).1.MemWf := by
  unfold State.sectorMiss
  extract_lets r
  have hr : r.1.MemWf := h.count.trainStride.stackSector
  exact .ite_fst hr.install.pair hr

theorem sectorGet {st p loc a} (h : s.MemWf) : (s.sectorGet st p loc a).1.MemWf := by
  unfold State.sectorGet
  split
  · next he => exact (h.sectorHit.of_fst he).pair
  · next he => exact (h.sectorHit.of_fst he).sectorMiss

theorem sectorRead {st a} (h : s.MemWf) : (s.sectorRead st a).1.MemWf := by
  unfold State.sectorRead
  split
  · exact h
  · exact h.request.sectorGet

theorem sceneSectors {st lo hi a n} (h : s.MemWf) : (s.sceneSectors st lo hi a n).1.MemWf := by
  induction n generalizing s a with
  | zero => exact h
  | succ n ih => exact ih h.sectorRead

theorem sceneRead {st a n} (h : s.MemWf) : (s.sceneRead st a n).1.MemWf := .ite_fst h h.sceneSectors.pair

theorem clearPoison {a n} (h : s.MemWf) : (s.clearPoison a n).MemWf := h.upd

theorem sectorPlace {st p a x} (h : s.MemWf) : (s.sectorPlace st p a x).MemWf :=
  .ite h.updPort (.ite (.ite h.install h.install.bufferPut) h.stackPut)

theorem sectorWrite {st a bs} (h : s.MemWf) : (s.sectorWrite st a bs).MemWf := by
  unfold State.sectorWrite
  dsimp only
  split
  · exact h
  · refine .ite h.request (sectorPlace (clearPoison ?_))
    exact .ite_fst h.request.trainStride h.request.sectorGet

theorem sceneWriteAux {st a bs n} (h : s.MemWf) : (s.sceneWriteAux st a bs n).MemWf := by
  induction n generalizing s a bs with
  | zero => exact h
  | succ n ih => exact .ite h (ih h.sectorWrite)

theorem sceneWrite {st a bs} (h : s.MemWf) : (s.sceneWrite st a bs).MemWf := h.sceneWriteAux

theorem flushBuffer {p} (h : s.MemWf) : (s.flushBuffer p).MemWf := h.foldl fun _ _ ht => ht.evictOldest

theorem fillAll {p f} (h : s.MemWf) : (s.fillAll p f).MemWf := h.foldl fun _ _ ht => ht.fill

theorem cleanPort {p} (h : s.MemWf) : (s.cleanPort p).MemWf := by
  unfold State.cleanPort
  exact (h.flushBuffer.foldl (fun _ _ hu => hu.lineBack)).updPort

theorem recordPut {st a n} (h : s.MemWf) : (s.recordPut st a n).MemWf := h.upd.sceneWrite

theorem recordGet {st a n} (h : s.MemWf) : (s.recordGet st a n).1.MemWf := h.sceneRead.pair

theorem nodeFill {d a} (h : s.MemWf) : (s.nodeFill d a).1.MemWf :=
  .ite_fst h.count.sectorRead (ite h.count.sectorRead.disarm h.count.sectorRead).updDist.pair

theorem nodeLine {d a} (h : s.MemWf) : (s.nodeLine d a).1.MemWf := by
  unfold State.nodeLine
  refine .ite_fst ?_ h.sectorRead
  split
  · exact .ite_fst h.count.updDist.pair h.report.updDist.nodeFill
  · exact h.nodeFill

theorem nodeLines {d a n} (h : s.MemWf) : (s.nodeLines d a n).1.MemWf := by
  induction n generalizing s a with
  | zero => exact h
  | succ n ih => exact ih h.nodeLine

theorem dstCode {d r} (h : s.MemWf) : (s.dstCode d r).MemWf := h.of_memoryKept (.dstCode ..)

theorem deskLine {d a room} (h : s.MemWf) : (s.deskLine d a room).1.MemWf := by
  unfold State.deskLine
  refine .ite_fst ?_ h.sectorRead
  split
  · refine .ite_fst ?_ ?_
    · exact .ite_fst h.dstCode.sectorRead (ite h.dstCode.sectorRead h.dstCode.sectorRead.disarm).updDist.pair
    · exact h.dstCode.updDist.pair
  · exact .ite_fst h.sectorRead (ite h.sectorRead h.sectorRead.disarm).updDist.pair

theorem deskLinesRead {d a room n} (h : s.MemWf) : (s.deskLinesRead d a room n).1.MemWf := by
  induction n generalizing s a with
  | zero => exact h
  | succ n ih => exact ih h.deskLine

/-! ## What the Gate does for every family (R50 to R58) -/

theorem twinSend {m} (h : s.MemWf) : (s.twinSend m).MemWf := h.of_reportKept (.twinSend ..)

theorem walk {r va} (h : s.MemWf) : (s.walk r va).1.MemWf := .ite_fst h.count.hostRead.disarm.pair h.count.hostRead.pair

theorem xlatePage {r va write} (h : s.MemWf) : (s.xlatePage r va write).1.MemWf := by
  unfold State.xlatePage
  dsimp only
  split
  · exact .ite_fst h.upd.count.pair h.upd.count.pair
  split
  · next he => exact (h.walk.of_fst he).pair
  · next he => exact .ite_fst (h.walk.of_fst he).upd.pair (h.walk.of_fst he).upd.pair

theorem xlateParts {r va n write k} (h : s.MemWf) : (s.xlateParts r va n write k).1.MemWf := by
  induction k generalizing s va n with
  | zero => exact h
  | succ k ih =>
    rw [State.xlateParts]
    refine .ite_fst h ?_
    split
    · next he => exact h.xlatePage.of_fst he
    · next he =>
      extract_lets len
      split
      · next he' => exact (ih (h.xlatePage.of_fst he)).of_fst he'
      · next he' => exact (ih (h.xlatePage.of_fst he)).of_fst he'

theorem xlate {r va n write} (h : s.MemWf) : (s.xlate r va n write).1.MemWf := .ite_fst h h.xlateParts

theorem readVa {r va n} (h : s.MemWf) : (s.readVa r va n).1.MemWf := by
  unfold State.readVa
  split
  · next he => exact (h.xlate.of_fst he).pair
  · next he => exact (h.xlate.of_fst he).hostRead.pair

theorem hostWriteParts {ps bs fr} (h : s.MemWf) : (s.hostWriteParts ps bs fr).MemWf := by
  induction ps generalizing s bs with
  | nil => exact h
  | cons p ps ih => exact ih h.hostWrite

theorem writeVa {r va bs fr} (h : s.MemWf) : (s.writeVa r va bs fr).1.MemWf := by
  unfold State.writeVa
  split
  · next he => exact (h.xlate.of_fst he).pair
  · next he => exact (h.xlate.of_fst he).hostWriteParts.pair

theorem stampTouch {b va n} (h : s.MemWf) : (s.stampTouch b va n).MemWf := h.foldl fun _ _ ht => ht.recordGet

theorem stampHost {b va n} (h : s.MemWf) : (s.stampHost b va n).MemWf := h.stampTouch.hostRead

theorem stampWrite {b va bs fr} (h : s.MemWf) (he : s.stampWrite b va bs fr = some t) : t.MemWf := by
  obtain ⟨ps, -, rfl⟩ := Option.map_eq_some_iff.mp he
  exact h.stampTouch.hostWriteParts

theorem tallyPut {i bs} (h : s.MemWf) : (s.tallyPut i bs).MemWf := h.of_reportKept (.tallyPut ..)

theorem tallyWordRead {i j} (h : s.MemWf) : (s.tallyWordRead i j).1.MemWf := h.of_reportKept (.tallyWordRead ..)

theorem tallyEntryRead {i} (h : s.MemWf) : (s.tallyEntryRead i).1.MemWf := h.of_reportKept (.tallyEntryRead ..)

theorem headerLost (h : s.MemWf) : s.headerLost.MemWf := h.upd

theorem headerPut {x} (h : s.MemWf) : (s.headerPut x).MemWf := h.of_reportKept (.headerPut ..)

theorem updTally {b f} (h : s.MemWf) : (s.updTally b f).MemWf := by
  unfold State.updTally
  split
  · exact h
  · extract_lets y t u
    have hu : u.MemWf := .ite h.updBatch h.updBatch.headerPut
    exact .ite hu hu.twinSend

theorem fixStatus {b code crcode} (h : s.MemWf) : (s.fixStatus b code crcode).MemWf := h.updTally

theorem park {b stage} (h : s.MemWf) : (s.park b stage).MemWf := h.of_memoryKept (.park ..)

theorem reportFault {b absent key facc cause addr walker d} (h : s.MemWf) :
    (s.reportFault b absent key facc cause addr walker d).MemWf := by
  unfold State.reportFault
  dsimp only
  split
  · exact .ite h h.upd
  · exact h.upd.report

theorem xlateReport {b facc cause addr walker d} (h : s.MemWf) : (s.xlateReport b facc cause addr walker d).MemWf := h.reportFault

theorem xlateFault {b stage facc cause addr walker d} (h : s.MemWf) : (s.xlateFault b stage facc cause addr walker d).MemWf :=
  h.xlateReport.park

theorem absentFault {b facc g walker d} (h : s.MemWf) : (s.absentFault b facc g walker d).MemWf := h.reportFault.park

theorem tenReport {t} (h : s.MemWf) : (s.tenReport t).MemWf := .ite h.report h.report.wr.wr

theorem tenParity {t} (h : s.MemWf) : (s.tenParity t).MemWf := .ite h.tenReport h

theorem readRegions {t} (h : s.MemWf) : (s.readRegions t).1.MemWf := h.sceneRead.pair

theorem resident {d rs g} (h : s.MemWf) : (s.resident d rs g).1.MemWf := by
  unfold State.resident
  refine .ite_fst h.disarm.pair ?_
  split
  · exact h
  · exact .ite_fst h h.sceneRead.pair

theorem residentAll {d rs gs} (h : s.MemWf) : (s.residentAll d rs gs).1.MemWf := by
  induction gs generalizing s with
  | nil => exact h
  | cons g gs ih =>
    rw [State.residentAll]
    split
    · next he => exact ih (h.resident.of_fst he)
    · next he => exact h.resident.of_fst he

theorem sceneCheck {d rs p a n} (h : s.MemWf) : (s.sceneCheck d rs p a n).1.MemWf := by
  unfold State.sceneCheck
  refine .ite_fst h ?_
  split
  · next he => exact (h.residentAll.of_fst he).pair
  · next he => exact (h.residentAll.of_fst he).pair

/-! ## Lots, the treelet map and placing (R156 to R165) -/

theorem mapReport {e} (h : s.MemWf) : (s.mapReport e).MemWf := .ite h.report h.report.wr.wr

theorem mapParity {tid} (h : s.MemWf) : (s.mapParity tid).MemWf := by
  unfold State.mapParity
  split
  · exact h
  · exact h.mapReport

theorem memoPut {d tid ans} (h : s.MemWf) : (s.memoPut d tid ans).MemWf := by
  unfold State.memoPut
  exact h.updDist

theorem sendMsg {lane src dst body} (h : s.MemWf) : (s.sendMsg lane src dst body).MemWf := h.upd

theorem setWalker {w} (h : s.MemWf) : (s.setWalker w).MemWf := h.updWalker

theorem readSlot {w} (h : s.MemWf) : (s.readSlot w).1.MemWf :=
  .ite_fst h (.ite_fst h.dstCode.faultClose.pair h.dstCode.setWalker.pair)

theorem writeSlot {w} (h : s.MemWf) : (s.writeSlot w).1.MemWf := (ite h h.disarm).pair

theorem toStreet {w0 st} (h : s.MemWf) : (s.toStreet w0 st).MemWf := by
  unfold State.toStreet
  split
  · next he => exact h.readSlot.of_fst he
  · next u _ he =>
    extract_lets k u
    have hu : u.MemWf := (h.readSlot.of_fst he).recordPut
    exact hu.setWalker.count.tick

theorem spill {w} (h : s.MemWf) : (s.spill w).MemWf := h.toStreet

theorem parkWalker {w} (h : s.MemWf) : (s.parkWalker w).MemWf := h.toStreet.refreshDrained

theorem arrive {w} (h : s.MemWf) {settle : State → Walker → State} (hsettle : ∀ (t : State) v, t.MemWf → (settle t v).MemWf) :
    (s.arrive w settle).MemWf := by
  unfold State.arrive
  dsimp only
  refine .ite (hsettle _ _ h.count.writeSlot) ?_
  split
  · exact hsettle _ _ h.count.spill.writeSlot
  · exact h.count.spill

theorem queueUp {w} (h : s.MemWf) : (s.queueUp w).MemWf := h.setWalker.tick

theorem joinSquare {w tid} (h : s.MemWf) : (s.joinSquare w tid).MemWf :=
  .ite h.setWalker.tick (.ite h.setWalker.setDist.tick h.queueUp)

theorem sendWalker {w0 dst tid} (h : s.MemWf) : (s.sendWalker w0 dst tid).MemWf := by
  unfold State.sendWalker
  split
  · next he => exact h.readSlot.of_fst he
  · next he => exact (h.readSlot.of_fst he).setWalker.sendMsg.refreshDrained

theorem place {w} (h : s.MemWf) : (s.place w).MemWf := by
  unfold State.place
  dsimp only
  split
  · exact h.setWalker.tick
  · refine .ite ?_ ?_
    · split
      · exact h.sendWalker
      · exact h.queueUp
    · refine .ite h.queueUp (.ite h.joinSquare ?_)
      split
      · exact h.queueUp
      split
      · exact h.count.queueUp
      · exact .ite h.count.joinSquare h.count.sendWalker

theorem openWaiting {d} (h : s.MemWf) : (s.openWaiting d).MemWf := h.foldl fun _ _ ht => .ite ht.place ht

theorem dropWalker {w} (h : s.MemWf) : (s.dropWalker w).MemWf := h.setWalker.tick

/-! ## Writes into the register window (R411, R453, R467) -/

theorem crcCheck {d} (h : s.MemWf) : (s.crcCheck d).MemWf := .ite (.ite (ite h.disarm h).report.faultClose (.ite h.disarm h)) h

theorem parityCheck {pg} (h : s.MemWf) : (s.parityCheck pg).MemWf := by
  unfold State.parityCheck
  split
  · exact h
  · extract_lets first t u
    have hu : u.MemWf := .ite h.report.wr h.report
    split
    · exact .ite hu.wr hu
    · exact hu

theorem checkPages {pgs} (h : s.MemWf) : (s.checkPages pgs).MemWf := h.foldl fun _ _ ht => ht.parityCheck

theorem parityWrite {off} (h : s.MemWf) : (s.parityWrite off).MemWf := .ite h (.ite h.disarm.upd h.upd)

theorem hostSet {off v} (h : s.MemWf) : (s.hostSet off v).MemWf := by
  unfold State.hostSet
  refine .ite h ?_
  split
  · exact h.setReg.crcCheck
  · exact h.setReg.parityWrite
  · exact h.setReg

theorem lockDiscard {off} (h : s.MemWf) : (s.lockDiscard off).MemWf := .ite h.report.wr h.report

theorem protocolError (h : s.MemWf) : s.protocolError.MemWf := h.report

theorem doWrite {off} (h : s.MemWf) {f : State → State} (hf : ∀ t : State, t.MemWf → (f t).MemWf) : (s.doWrite off f).MemWf := by
  unfold State.doWrite
  extract_lets bad s1 arm s2
  have hs1 : s1.MemWf := .ite h.disarm.protocolError h
  have hs2 : s2.MemWf := .ite hs1.disarm.lockDiscard hs1
  exact .ite hs2 (.ite hs2.lockDiscard (hf _ hs2))

theorem askWake {off} (h : s.MemWf) : (s.askWake off).MemWf := h.upd

theorem guardWrite {off} (h : s.MemWf) {f : State → State} (hf : ∀ t : State, t.MemWf → (f t).MemWf) :
    (s.guardWrite off f).MemWf := by
  unfold State.guardWrite
  split
  · exact h
  · exact h.askWake
  · exact h.askWake.doWrite fun _ ht => hf _ ht
  · exact h.doWrite fun _ ht => hf _ ht

end State.MemWf
end Sys2Proof.Machine
end

section
/-! PROOFS. The canonical form of both memories is kept (log 2): queues and the Counting House. -/

namespace Sys2Proof.Machine
namespace State.MemWf

variable {s t : State}

/-! ## Queues (R37 to R74) -/

theorem unfetch {q} (h : s.MemWf) : (s.unfetch q).MemWf := by
  unfold State.unfetch
  split
  · exact h
  · exact .ite h h.upd

theorem queError {q code} (h : s.MemWf) : (s.queError q code).MemWf := by
  have hs : (if hq : q < 64 then s.unfetch ⟨q, hq⟩ else s).MemWf := by
    split
    · exact h.unfetch
    · exact h
  exact .ite hs.wr.wr.upd.status hs.wr.wr.upd

theorem setAccount {cls i a} (h : s.MemWf) : (s.setAccount cls i a).MemWf := .ite h.upd h.upd

theorem commit {ten cls v} (h : s.MemWf) : (s.commit ten cls v).MemWf := h.setAccount.setAccount

theorem mapGroups {f} (h : s.MemWf) : (s.mapGroups f).MemWf := h.upd

theorem abandon {b} (h : s.MemWf) : (s.abandon b).MemWf := h.mapGroups.upd

theorem goneBatch {x} (h : s.MemWf) : (s.goneBatch x).MemWf := h.upd

theorem clearBatch {x} (h : s.MemWf) : (s.clearBatch x).MemWf := by
  unfold State.clearBatch
  extract_lets t u
  have hu : u.MemWf := (ite h.abandon h.abandon.commit).goneBatch
  exact hu.upd.foldl fun _ _ hy => hy.refreshDrained

theorem dropStopped {q} (h : s.MemWf) : (s.dropStopped q).MemWf := .ite (h.upd.foldl (fun _ _ hu => hu.clearBatch)) h

theorem tailWrite {q v} (h : s.MemWf) : (s.tailWrite q v).MemWf := .ite h.queError (.ite h.queError h.hostSet)

theorem exec_queTailWrite {q v} (h : s.MemWf) : NextWf (execQueTailWrite q v s) := (h.guardWrite (fun _ ht => ht.tailWrite)).next

theorem exec_queDepthWrite {q v} (h : s.MemWf) : NextWf (execQueDepthWrite q v s) :=
  (h.guardWrite (fun _ ht => .ite ht.queError (ite ht.dropStopped.unfetch ht).hostSet)).next

theorem loadSeq {q} (h : s.MemWf) : (s.loadSeq q).MemWf := by
  conv in State.loadSeq => delta State.loadSeq
  dsimp only
  split
  · next he => exact (h.readVa.of_fst he).upd.wr
  · next he => exact (h.readVa.of_fst he).upd.xlateReport

theorem exec_queRunSet {q} (h : s.MemWf) : NextWf (execQueRunSet q s) := by
  unfold execQueRunSet
  refine next (h.guardWrite fun _ ht => ?_)
  refine .ite ht.parityCheck ?_
  extract_lets st t1 t2
  have ht2 : t2.MemWf := (ite ht.loadSeq ht).upd.wr.parityWrite
  exact .ite ht2.twinSend ht2

theorem exec_queRunClear {q} (h : s.MemWf) : NextWf (execQueRunClear q s) :=
  (h.guardWrite (fun _ ht => ht.unfetch.wr.parityWrite)).next

theorem exec_queEstWrite {q v} (h : s.MemWf) : NextWf (execQueEstWrite q v s) := (h.guardWrite (fun _ ht => ht.hostSet)).next

theorem tallyWait {q} (h : s.MemWf) : (s.tallyWait q).MemWf := .ite h.upd h.upd.wr.status

theorem roomTaken {q} (h : s.MemWf) : (s.roomTaken q).MemWf := h.upd.wr

theorem ringRead {q i} (h : s.MemWf) : (s.ringRead q i).1.MemWf := h.readVa

theorem fetch {q} (h : s.MemWf) : (s.fetch q).MemWf := by
  have hu {c : Prop} [Decidable c] : (if c then s.loadSeq q else s).MemWf := .ite h.loadSeq h
  unfold State.fetch
  refine .ite hu ?_
  split
  · refine .ite ?_ hu
    split
    · next he => exact (hu.ringRead.of_fst he).queError
    · next he => exact (hu.ringRead.of_fst he).upd.count
  · refine .ite hu ?_
    split
    · next he => exact (hu.ringRead.of_fst he).queError
    · next he =>
      split
      · exact hu.tallyWait
      · have ht := (hu.ringRead.of_fst he).roomTaken (q := q.val)
        refine .ite hu.tallyWait (.ite (.ite ?_ ht.upd) ht.upd.count)
        split
        · next he' => exact (ht.ringRead.of_fst he').queError
        · next he' => exact (ht.ringRead.of_fst he').upd.count

theorem exec_descriptorFetch {q} (h : s.MemWf) : NextWf (execDescriptorFetch q s) := h.checkPages.fetch.next

theorem stampExtent {b r va n write k} (h : s.MemWf) : (s.stampExtent b r va n write k).1.MemWf := by
  induction k generalizing s va n with
  | zero => exact h
  | succ k ih =>
    rw [State.stampExtent]
    refine .ite_fst h ?_
    split
    · next he => exact h.walk.of_fst he
    · next he =>
      have hwalk := h.walk.of_fst he
      exact .ite_fst hwalk (ih hwalk.upd.recordPut.count)

theorem stampAll {b r xs} (h : s.MemWf) : (s.stampAll b r xs).1.MemWf := by
  induction xs generalizing s with
  | nil => exact h
  | cons x xs ih =>
    obtain ⟨va, n, w⟩ := x
    rw [State.stampAll]
    split
    · next he => exact h.stampExtent.of_fst he
    · next he => exact ih (h.stampExtent.of_fst he)

theorem stampBatch {b d} (h : s.MemWf) : (s.stampBatch b d).1.MemWf := by
  unfold State.stampBatch
  dsimp only
  split
  · next he => exact (h.upd.stampAll.of_fst he).pair
  · next he => exact (h.upd.stampAll.of_fst he).upd.pair

theorem stampFetched {q} (h : s.MemWf) : (s.stampFetched q).MemWf := by
  unfold State.stampFetched
  split
  · exact h
  · refine .ite h (.ite h.upd ?_)
    split
    · next he => exact .ite h (h.stampBatch.of_fst he).upd
    · next u _ _ he =>
      extract_lets u
      have hu : u.MemWf := (h.stampBatch.of_fst he).xlateReport
      exact hu.upd

theorem exec_pageWalkComplete {r va} (h : s.MemWf) : NextWf (execPageWalkComplete r va s) := by
  unfold execPageWalkComplete
  refine next ?_
  split
  · next he => exact h.xlatePage.of_fst he
  · next he =>
    split
    · exact .ite (h.xlatePage.of_fst he).queError (h.xlatePage.of_fst he)
    · exact h.xlatePage.of_fst he
    · exact h.xlatePage.of_fst he

theorem tallyWrite {b} (h : s.MemWf) : (s.tallyWrite b).MemWf := h.tallyPut.foldl fun _ _ hu => hu.tallyPut

theorem headStep {q n} (h : s.MemWf) : (s.headStep q n).MemWf := .ite h.wr h.wr.wr

theorem acceptNow {q f tly} (h : s.MemWf) : (s.acceptNow q f tly).MemWf := by
  unfold State.acceptNow
  extract_lets b _ t u
  have ht : t.MemWf := h.upd
  have hu : u.MemWf := ht.tallyWrite.wr.headStep.count.count
  split
  · exact hu
  · exact hu.park

theorem accept {q} (h : s.MemWf) : (s.accept q).MemWf := by
  unfold State.accept
  split
  · exact h
  · refine .ite h ?_
    split
    · exact .ite h.acceptNow h
    split
    · exact h.tallyWait
    · exact .ite h.roomTaken.twinSend.upd h.roomTaken.acceptNow

theorem exec_acceptance {q} (h : s.MemWf) : NextWf (execAcceptance q s) := h.checkPages.accept.next

theorem cancelBatch {x} (h : s.MemWf) : (s.cancelBatch x).MemWf := .ite h h.abandon.updBatch.fixStatus

theorem exec_queCancel {q} (h : s.MemWf) : NextWf (execQueCancel q s) := by
  unfold execQueCancel
  refine next (h.guardWrite fun _ ht => ?_)
  extract_lets bs u
  have hu : u.MemWf := ht.foldl fun _ _ hv => hv.cancelBatch.updBatch
  exact .ite hu hu.upd

theorem goAgain {x} (h : s.MemWf) : (s.goAgain x).MemWf := h.updTally.mapGroups.upd.wantRound

theorem resumeBatch {x} (h : s.MemWf) : (s.resumeBatch x).MemWf := by
  unfold State.resumeBatch
  dsimp only
  refine .ite h.updBatch ?_
  split
  · next he => exact ((ite_fst h.upd.pair h.upd.stampBatch).of_fst he).xlateReport.updBatch.status
  · next he => exact .ite h.updBatch ((ite_fst h.upd.pair h.upd.stampBatch).of_fst he).goAgain

theorem resumeWaiting {p} (h : s.MemWf) : (s.resumeWaiting p).MemWf := h.foldl fun _ _ ht => ht.resumeBatch

theorem trapsOver {b} (h : s.MemWf) : (s.trapsOver b).MemWf := by
  unfold State.trapsOver
  split
  · exact h
  · exact .ite h (.ite h.resumeBatch h.goAgain)

theorem exec_stamping {q} (h : s.MemWf) : NextWf (execStamping q s) := h.checkPages.resumeWaiting.stampFetched.next

theorem exec_queResume {q} (h : s.MemWf) : NextWf (execQueResume q s) :=
  (h.guardWrite (fun _ ht => ht.foldl (fun _ _ hu => hu.resumeBatch))).next

/-! ## Copies in the plot (R173, R195, R196) -/

theorem rejoin {d tid} (h : s.MemWf) : (s.rejoin d tid).MemWf := h.foldl fun _ _ ht => ht.place

theorem freeSlot {d k} (h : s.MemWf) : (s.freeSlot d k).MemWf := h.updDist

theorem squareIdle {d tid} (h : s.MemWf) : (s.squareIdle d tid).MemWf := h.updDist

theorem drainSlot {d k} (h : s.MemWf) : (s.drainSlot d k).MemWf := by
  unfold State.drainSlot
  split
  · exact h
  split
  · exact h
  · exact h.freeSlot.squareIdle
  · exact h.updDist.rejoin
  · exact h.updDist.rejoin

theorem reviewCopy {d tid ans} (h : s.MemWf) : (s.reviewCopy d tid ans).MemWf := by
  unfold State.reviewCopy
  split
  · exact h
  split
  · exact h.drainSlot
  · exact h.updDist

theorem drainTid {tid} (h : s.MemWf) : (s.drainTid tid).MemWf := h.foldl (fun _ _ ht => ht.foldl (fun _ _ hu => hu.drainSlot))

theorem wakeDist {d} (h : s.MemWf) : (s.wakeDist d).MemWf := .ite h.wr h

theorem topLoad {d k tid} (h : s.MemWf) : (s.topLoad d k tid).MemWf := by
  unfold State.topLoad
  refine .ite h ?_
  extract_lets away t
  have ht : t.MemWf := h.foldl fun _ _ hu => hu.drainSlot
  exact .ite ht.updDist ht

theorem topLoads {d} (h : s.MemWf) : (s.topLoads d).MemWf := h.foldl fun _ _ ht => ht.topLoad

theorem topInstall {k tid} (h : s.MemWf) : (s.topInstall k tid).MemWf := h.upd.foldl fun _ _ hu => hu.topLoad

theorem topRemove {k} (h : s.MemWf) : (s.topRemove k).MemWf := by
  unfold State.topRemove
  refine h.upd.foldl fun _ _ hu => ?_
  split
  · exact .ite hu.drainSlot hu
  · exact hu

theorem topSweep (h : s.MemWf) : s.topSweep.MemWf := h.upd.foldl fun _ _ hu => .ite hu.topRemove hu

theorem topChoose {tid} (h : s.MemWf) : (s.topChoose tid).1.MemWf := by
  unfold State.topChoose
  split
  · exact .ite_fst h h
  split
  · exact h.topInstall.pair
  · exact h

theorem sceneLost {b a} (h : s.MemWf) : (s.sceneLost b a).MemWf := by
  unfold State.sceneLost
  split
  · exact h
  · exact .ite h (.ite (.ite h h.abandon.upd.updBatch) h.abandon.updBatch.fixStatus)

/-! ## Admission and dealing (R379 to R397) -/

theorem judge {x} (h : s.MemWf) : (s.judge x).1.MemWf := by
  unfold State.judge
  split
  · exact h
  · extract_lets u
    have hu : u.MemWf := h.tenParity
    refine .ite_fst hu (.ite_fst hu ?_)
    split
    · exact hu
    split
    · next he => exact hu.readRegions.of_fst he
    · next t _ he =>
      have ht : t.MemWf := hu.readRegions.of_fst he
      split
      · exact ht
      · exact .ite_fst ht (.ite_fst ht (.ite_fst ht ht))

theorem checkOne {b} (h : s.MemWf) : (s.checkOne b).MemWf := by
  unfold State.checkOne
  split
  · exact h
  split
  · next he => exact (h.judge.of_fst he).updBatch
  · next he => exact (h.judge.of_fst he).updBatch.fixStatus.count
  · next he => exact (h.judge.of_fst he).updBatch.sceneLost

theorem checkAll (h : s.MemWf) : s.checkAll.MemWf := h.foldl fun _ _ ht => ht.checkOne

theorem refuseDebt (h : s.MemWf) : s.refuseDebt.MemWf := h.foldl fun _ _ ht => ht.fixStatus.count

theorem setDeficit {t c v} (h : s.MemWf) : (s.setDeficit t c v).MemWf := h.upd

theorem pickTenant {c r} (h : s.MemWf) (he : s.pickTenant c = some r) : r.1.MemWf := by
  have hleast {k : Batch → Nat} {l : List Batch} (hl : (leastBy k l).map (fun x => (s, x)) = some r) : r.1.MemWf := by
    obtain ⟨x, -, rfl⟩ := Option.map_eq_some_iff.mp hl
    exact h
  unfold State.pickTenant at he
  dsimp only at he
  split at he
  · exact hleast he
  split at he
  · exact hleast he
  split at he
  · cases he
  · cases he
    exact (h.foldl fun _ _ ht => ht.setDeficit).setDeficit

theorem zeroSlots {x} (h : s.MemWf) (he : s.zeroSlots x = some t) : t.MemWf := h.stampWrite he

theorem zeroReady {b} (h : s.MemWf) : (s.zeroReady b).MemWf := by
  unfold State.zeroReady
  split
  · exact h
  · refine .ite h (.ite h ?_)
    split
    · next he => exact (h.zeroSlots he).updBatch
    · exact h

theorem admitBatch {x} (h : s.MemWf) : (s.admitBatch x).MemWf := by
  unfold State.admitBatch
  extract_lets rr e s1 walks s2
  have hs2 : s2.1.MemWf := .ite_fst h.readRegions.commit.topChoose h.readRegions.commit.pair
  exact hs2.upd.updTally.count.zeroReady

theorem classLoop {c n} (h : s.MemWf) : (s.classLoop c n).MemWf := by
  induction n generalizing s with
  | zero => exact h
  | succ n ih =>
    rw [State.classLoop]
    split
    · exact h
    · next he => exact ih (h.pickTenant he).admitBatch.upd

theorem defer (h : s.MemWf) : s.defer.MemWf := h.foldl fun _ _ ht => ht.updTally.count

theorem resetDeficits (h : s.MemWf) : s.resetDeficits.MemWf := h.upd

theorem round (h : s.MemWf) : s.round.MemWf := by
  unfold State.round
  refine .ite h ?_
  extract_lets _ s0 s1 n
  have hs0 : s0.MemWf := h.upd.count
  have hs1 : s1.MemWf := hs0.checkAll.refuseDebt
  exact (hs1.foldl fun _ _ ht => ht.classLoop).defer.resetDeficits

theorem exec_admissionRound (h : s.MemWf) : NextWf (execAdmissionRound s) := h.checkPages.round.next

theorem entering {w} (h : s.MemWf) : (s.entering w).MemWf := h.setWalker.tick

theorem enterWalker {w} (h : s.MemWf) : (s.enterWalker w).MemWf := h.upd.arrive fun _ _ ht => ht.entering

theorem invoke {d i} (h : s.MemWf) : (s.invoke d i).MemWf := h.updDist

theorem heapClear {d need} (h : s.MemWf) : (s.heapClear d need).1.MemWf := .ite_fst h (h.foldl (fun _ _ ht => ht.drainSlot)).pair

theorem ledgerNew {b run d n} (h : s.MemWf) : (s.ledgerNew b run d n).MemWf := h.upd.recordPut

theorem ledgerUpd {b run f} (h : s.MemWf) : (s.ledgerUpd b run f).MemWf := by
  unfold State.ledgerUpd
  dsimp only
  split
  · exact h
  · exact .ite h.recordGet.sceneLost h.recordGet.upd.recordPut

theorem dealOne {x d run i recs dim} (h : s.MemWf) : (s.dealOne x d run i recs dim).MemWf :=
  .ite h.invoke (.ite h.enterWalker.updDist h.enterWalker)

theorem dealRunTo {x d} (h : s.MemWf) : (s.dealRunTo x d).MemWf :=
  (h.ledgerNew.upd.updBatch.foldl (fun _ _ ht => ht.dealOne)).count.wakeDist

theorem deal (h : s.MemWf) : s.deal.MemWf := by
  unfold State.deal
  refine .ite h ?_
  split
  · exact h
  · extract_lets u
    have hu : u.MemWf := h.zeroReady
    clear_value u
    split
    · exact hu
    · refine .ite hu (.ite hu.status (.ite hu (.ite ?_ ?_)))
      · dsimp only
        split
        · exact hu
        split
        · next he => exact (hu.heapClear.of_fst he).dealRunTo
        · next he => exact hu.heapClear.of_fst he
      split
      · exact hu
      · exact hu.dealRunTo

theorem exec_dealRun (h : s.MemWf) : NextWf (execDealRun s) := h.deal.next

theorem grant {cls set index} (h : s.MemWf) : (s.grant cls set index).MemWf := h.setAccount.wantRound

theorem grantCmd {kind set index} (h : s.MemWf) : (s.grantCmd kind set index).MemWf :=
  h.guardWrite fun _ ht => .ite ht.hostSet.parityCheck ht.hostSet.grant

theorem exec_grantAdd {kind index} (h : s.MemWf) : NextWf (execGrantAdd kind index s) := h.grantCmd.next

theorem exec_grantSet {kind index} (h : s.MemWf) : NextWf (execGrantSet kind index s) := h.grantCmd.next

theorem dimStep (h : s.MemWf) : (s.dimStep).1.MemWf :=
  .ite_fst (ite h.wr.count.status h.wr.count).pair (.ite_fst (ite h.wr.count.status h.wr.count).pair h)

theorem debtReport (h : s.MemWf) : s.debtReport.MemWf := h.report.wantRound

theorem chargeOne {cls i n left} (h : s.MemWf) : (s.chargeOne cls i n left).MemWf := .ite h.setAccount.debtReport h.setAccount

theorem charge {x n} (h : s.MemWf) : (s.charge x n).MemWf := h.chargeOne.chargeOne.updTally

theorem undoDim (h : s.MemWf) : s.undoDim.MemWf := by
  unfold State.undoDim
  split
  · exact h
  · exact h.upd.wr
  · exact h.upd.wr

theorem debtArm {x} (h : s.MemWf) : (s.debtArm x).MemWf := by
  unfold State.debtArm
  refine .ite (.ite h.disarm.debtReport ?_) h
  extract_lets r
  have hr : r.1.MemWf := h.disarm.debtReport.dimStep
  exact hr.upd

theorem dimReport (h : s.MemWf) : s.dimReport.MemWf := .ite h.dimStep (.ite h.wr h)

theorem chargeTo {b n} (h : s.MemWf) : (s.chargeTo b n).MemWf := by
  unfold State.chargeTo
  split
  · exact h.dimReport
  split
  · exact .ite h.charge.debtArm h.charge.debtArm.dimReport
  split
  · exact h.chargeOne.chargeOne.upd.dimReport
  · exact h.dimReport

theorem meterReports {m b n k} (h : s.MemWf) : (s.meterReports m b n k).MemWf := by
  induction k generalizing s n with
  | zero => exact h
  | succ k ih => exact .ite h.count.undoDim.chargeTo (ih h.count.undoDim.chargeTo)

theorem meter {m charge b} (h : s.MemWf) : (s.meter m charge b).MemWf := h.upd.meterReports

theorem exec_meterReport {m charge b} (h : s.MemWf) : NextWf (execMeterReport m charge b s) := h.meter.next

end State.MemWf
end Sys2Proof.Machine
end

section
/-! PROOFS. The canonical form of both memories is kept (log 2): walkers and the avenues. -/

namespace Sys2Proof.Machine
namespace State.MemWf

variable {s t : State}

/-! ## Walkers (R61 to R64, R180 to R198) -/

theorem fmtViol {b} (h : s.MemWf) : (s.fmtViol b).MemWf := h.updBatch

theorem fmtViols {b n} (h : s.MemWf) : (s.fmtViols b n).MemWf := h.updBatch

theorem regViol {b} (h : s.MemWf) : (s.regViol b).MemWf := h.updBatch

theorem endWalk {w} (h : s.MemWf) : (s.endWalk w).MemWf := h.setWalker.tick

theorem violate {w} (h : s.MemWf) : (s.violate w).MemWf := h.regViol.endWalk

theorem plotCode {d k p first} (h : s.MemWf) : (s.plotCode d k p first).1.MemWf :=
  .ite_fst h (.ite_fst h.dstCode.drainSlot.pair (.ite_fst h.dstCode.updDist.pair h.dstCode.pair))

theorem deliverVia {d via a n} (h : s.MemWf) : (s.deliverVia d via a n).1.MemWf := by
  unfold State.deliverVia
  extract_lets q r
  have hr : r.1.MemWf := by
    dsimp only [r]
    split
    · exact h.nodeLines.pair
    · exact h.sceneRead
  exact .ite_fst hr hr

theorem deliver {w via a n} (h : s.MemWf) : (s.deliver w via a n).1.MemWf := by
  unfold State.deliver
  dsimp only
  split
  · split
    · next he => exact (h.plotCode.of_fst he).pair
    · next he => exact .ite_fst (h.plotCode.of_fst he).pair (h.plotCode.of_fst he).pair
  · exact h.deliverVia

theorem walkRead {w via a n} (h : s.MemWf) : (s.walkRead w via a n).1.MemWf := by
  unfold State.walkRead
  dsimp only
  split
  · next he => exact (h.sceneCheck.of_fst he).pair
  · next he => exact (h.sceneCheck.of_fst he).pair
  · next he => exact (h.sceneCheck.of_fst he).pair
  · next he => exact .ite_fst (h.sceneCheck.of_fst he).pair (h.sceneCheck.of_fst he).deliver
  · next he => exact .ite_fst (h.sceneCheck.of_fst he).pair (h.sceneCheck.of_fst he).deliver

theorem readFail {w facc r} (h : s.MemWf) : (s.readFail w facc r).MemWf := by
  unfold State.readFail
  split
  · exact h
  · exact h
  · exact h.violate
  · exact h.absentFault.parkWalker
  · exact h.sceneLost

theorem contribute {x w words} (h : s.MemWf) : (s.contribute x w words).1.MemWf := .ite_fst h (.ite_fst h h.gateTrip.upd.pair)

theorem callProgram {w entry prog hd} (h : s.MemWf) : (s.callProgram w entry prog hd).MemWf := h.setWalker.invoke.tick

theorem acceptHit {x w hd tie last} (h : s.MemWf) : (s.acceptHit x w hd tie last).MemWf := by
  unfold State.acceptHit
  split
  · exact .ite h.endWalk h.place
  · exact h.endWalk
  · exact .ite h.callProgram (.ite h.contribute.endWalk h.contribute.place)

theorem offer {x w hd opqPath noAny tie} (h : s.MemWf) : (s.offer x w hd opqPath noAny tie).MemWf :=
  .ite (.ite h.place h.callProgram) h.acceptHit

theorem keepUpdate {w u} (h : s.MemWf) : (s.keepUpdate w u).MemWf := h.upd

theorem endQuiet {w} (h : s.MemWf) : (s.endQuiet w).MemWf := h.setWalker.tick

theorem applyUpdate {w u} (h : s.MemWf) : (s.applyUpdate w u).MemWf := by
  unfold State.applyUpdate
  refine .ite h.fmtViol.endQuiet (.ite h.regViol.endQuiet ?_)
  split
  · next he => exact (h.residentAll.of_fst he).absentFault.parkWalker
  · next he => exact ((h.residentAll.of_fst he).foldl (fun _ _ hv => .ite hv.sceneWrite hv)).updBatch.keepUpdate.endQuiet

theorem inputFault {w facc cause addr} (h : s.MemWf) : (s.inputFault w facc cause addr).MemWf := h.xlateFault.parkWalker

theorem enterRay {x w0 r} (h : s.MemWf) : (s.enterRay x w0 r).MemWf := .ite (ite h.fmtViol h).endWalk (ite h.fmtViol h).place

theorem enterProbe {x w p qrec} (h : s.MemWf) : (s.enterProbe x w p qrec).MemWf := by
  unfold State.enterProbe
  dsimp only
  refine .ite h.endWalk (.ite h.fmtViol.endWalk ?_)
  split
  · next t hdr he =>
    have ht : t.MemWf := h.walkRead.of_fst he
    refine .ite ht.fmtViol.endWalk ?_
    split
    · next he' => exact (ht.readVa.of_fst he').inputFault
    · next he' => exact .ite (ht.readVa.of_fst he').fmtViol.endWalk (ht.readVa.of_fst he').place
  · next he => exact (h.walkRead.of_fst he).readFail

theorem enter {x w} (h : s.MemWf) : (s.enter x w).MemWf := by
  unfold State.enter
  dsimp only
  refine .ite h.dropWalker (.ite h.enterRay (.ite h.applyUpdate ?_))
  split
  · exact h
  · have ht {a n : Nat} : ((s.stampHost w.bid a n).gateMessage w.dist).MemWf := h.stampHost.gateMessage
    refine .ite (.ite ht.callProgram ht.applyUpdate) ?_
    split
    · exact ht.enterProbe
    · exact ht.enterRay

theorem exec_walkerEntering {d} (h : s.MemWf) : NextWf (execWalkerEntering d s) := by
  unfold execWalkerEntering
  refine next (.ite h ?_)
  split
  · exact h
  split
  · exact h.dropWalker
  · exact h.enter

theorem settle {w} (h : s.MemWf) : (s.settle w).MemWf := by
  unfold State.settle
  split
  · exact h.place
  · exact .ite h.setWalker.tick h.joinSquare

theorem arriveMsg {d w tid ep} (h : s.MemWf) : (s.arriveMsg d w tid ep).MemWf := by
  unfold State.arriveMsg
  refine .ite (h.arrive (fun _ _ ht => ht.settle)) (.ite (h.arrive (fun _ _ ht => ht.place)) ?_)
  split
  · exact .ite (h.arrive (fun _ _ ht => ht.place)) h.sendWalker
  · exact h.arrive fun _ _ ht => ht.place

theorem dropMsg {m} (h : s.MemWf) : (s.dropMsg m).MemWf := h.upd

theorem exec_walkerArrival {d} (h : s.MemWf) : NextWf (execWalkerArrival d s) := by
  unfold execWalkerArrival
  dsimp only
  refine next (.ite h ?_)
  split
  · exact h
  split
  · split
    · exact h.dropMsg.wakeDist
    · exact .ite h.dropMsg.wakeDist.arriveMsg h.dropMsg.wakeDist
  all_goals exact h.dropMsg.wakeDist

theorem fromStreet {w} (h : s.MemWf) : (s.fromStreet w).1.MemWf := by
  unfold State.fromStreet
  split
  · exact h
  · exact h.recordGet

theorem reloadOne {w} (h : s.MemWf) : (s.reloadOne w).MemWf := by
  unfold State.reloadOne
  split
  · next he => exact (h.fromStreet.of_fst he).sceneLost
  · next u he =>
    extract_lets u
    have hu : u.MemWf := (h.fromStreet.of_fst he).count
    refine .ite ?_ (ite hu.writeSlot.entering hu.writeSlot.place).refreshDrained
    split
    · exact hu.sendWalker
    · exact hu

theorem exec_walkerReload {d} (h : s.MemWf) : NextWf (execWalkerReload d s) :=
  (ite h (h.foldl (fun _ _ ht => .ite ht.reloadOne ht))).next

/-! ## Messages on the avenues (R12 to R16) -/

theorem setMsg {n m} (h : s.MemWf) : (s.setMsg n m).MemWf := h.upd

theorem cutMsg {n} (h : s.MemWf) : (s.cutMsg n).MemWf := h.upd

theorem answer {at' src tid} (h : s.MemWf) : (s.answer at' src tid).MemWf := .ite h.mapParity.sendMsg h.sendMsg

theorem placeWaiters {d tid} (h : s.MemWf) : (s.placeWaiters d tid).MemWf := h.foldl fun _ _ ht => ht.place

theorem moveSquare {d tid} (h : s.MemWf) : (s.moveSquare d tid).MemWf := by
  unfold State.moveSquare
  refine h.foldl fun _ _ ht => ?_
  split
  · exact .ite ht ht.sendWalker
  · exact ht

theorem answered {d tid ans} (h : s.MemWf) : (s.answered d tid ans).MemWf := h.memoPut.reviewCopy.moveSquare.placeWaiters

theorem lookup {d} (h : s.MemWf) : (s.lookup d).MemWf := by
  unfold State.lookup
  split
  · exact h
  · exact .ite h.mapParity.answered h.updDist.count.sendMsg

theorem exec_mapLookup {d} (h : s.MemWf) : NextWf (execMapLookup d s) := (ite h.lookup h).next

theorem lookupReply {d tid ep ans} (h : s.MemWf) : (s.lookupReply d tid ep ans).MemWf := .ite h.answered h.updDist

theorem exec_mapLookupReply {d} (h : s.MemWf) : NextWf (execMapLookupReply d s) := by
  unfold execMapLookupReply
  refine next (.ite h ?_)
  split
  · exact h
  split
  · exact h.dropMsg.lookupReply
  all_goals exact h

theorem redirect {n m b idx gen tid} (h : s.MemWf) : (s.redirect n m b idx gen tid).MemWf := by
  unfold State.redirect
  split
  · exact h
  · exact h.setMsg.updWalker

theorem discard {n m} (h : s.MemWf) : (s.discard n m).MemWf := by
  unfold State.discard
  split
  · exact h.cutMsg.count.sendMsg
  · exact h.cutMsg.sendMsg
  all_goals exact h.cutMsg

theorem reach {n m} (h : s.MemWf) : (s.reach n m).MemWf := by
  unfold State.reach
  split
  · exact h.cutMsg.answer
  all_goals exact h.wakeDist

theorem crossed {n m b} (h : s.MemWf) : (s.crossed n m b).MemWf := .ite h.cutMsg.upd.reach h.cutMsg.upd

theorem askReplay {n m b tries} (h : s.MemWf) : (s.askReplay n m b tries).MemWf := h.setMsg.count

theorem hop {n m x b crcOk} (h : s.MemWf) : (s.hop n m x b crcOk).MemWf := by
  unfold State.hop
  refine .ite ?_ ?_
  · exact (ite h.count h).disarm.disarm.count.closeLink
  · exact .ite (ite h.count h).disarm.askReplay (.ite (ite h.count h).crossed (ite h.count h).askReplay)

theorem advance {n crcOk} (h : s.MemWf) : (s.advance n crcOk).MemWf := by
  unfold State.advance
  split
  · exact h
  · refine .ite h ?_
    split
    · exact .ite h.redirect h.cutMsg
    · refine .ite h.discard ?_
      split
      · exact h
      split
      · exact h
      · exact h.hop

theorem exec_avenueMessageReceive {n crcOk} (h : s.MemWf) : NextWf (execAvenueMessageReceive n crcOk s) := (ite h.advance h).next

theorem replayHop {n crcOk} (h : s.MemWf) : (s.replayHop n crcOk).MemWf := by
  unfold State.replayHop
  split
  · exact h
  split
  · exact h
  · exact .ite h.setMsg (.ite h.crossed (.ite h.askReplay h.closeLink))

theorem exec_avenueReplay {n crcOk} (h : s.MemWf) : NextWf (execAvenueReplay n crcOk s) := (ite h.replayHop h).next

end State.MemWf
end Sys2Proof.Machine
end

section
/-! PROOFS. The canonical form of both memories is kept (log 2): caches, districts and shootdowns. -/

namespace Sys2Proof.Machine
namespace State.MemWf

variable {s t : State}

/-! ## Stack ports, the aperture and cache maintenance (R338 to R363) -/

theorem dropPrefetch {p r} (h : s.MemWf) : (s.dropPrefetch p r).MemWf := h.updPort

theorem staleFills {p r} (h : s.MemWf) : (s.staleFills p r).MemWf := h.updPort

theorem stackInval {p r} (h : s.MemWf) : (s.stackInval p r).MemWf := h.updPort

theorem stackClean {p r} (h : s.MemWf) : (s.stackClean p r).MemWf := by
  unfold State.stackClean
  extract_lets s0 s1
  have hs1 : s1.MemWf := .ite h.fillAll.flushBuffer h.fillAll
  exact (hs1.foldl (fun _ _ ht => ht.foldl (fun _ _ hu => .ite hu.writeBack hu))).updPort

theorem zeroLines {a n} (h : s.MemWf) : (s.zeroLines a n).MemWf := by
  induction n generalizing s a with
  | zero => exact h
  | succ n ih => exact ih h.sectorWrite

theorem stackZero {r} (h : s.MemWf) : (s.stackZero r).MemWf := (h.foldl (fun _ _ ht => .ite ht.flushBuffer ht)).zeroLines

theorem stackMaint {op r} (h : s.MemWf) : (s.stackMaint op r).MemWf := by
  unfold State.stackMaint
  split
  · exact h.foldl fun _ _ ht => ht.dropPrefetch.staleFills.stackInval
  · exact h.foldl fun _ _ ht => ht.dropPrefetch.stackClean
  · exact h.foldl fun _ _ ht => ht.dropPrefetch.stackClean.stackInval
  · exact (h.foldl (fun _ _ ht => ht.dropPrefetch.staleFills)).stackZero

theorem nodeInval {r} (h : s.MemWf) : (s.nodeInval r).MemWf := h.upd

theorem deskInval {r} (h : s.MemWf) : (s.deskInval r).MemWf := h.upd

theorem plotInval {r} (h : s.MemWf) : (s.plotInval r).MemWf := h.foldl fun _ _ ht => ht.drainTid

theorem maint {op target r} (h : s.MemWf) : (s.maint op target r).MemWf := by
  unfold State.maint
  refine .ite h ?_
  extract_lets w s1 s2
  have hs2 : s2.MemWf := .ite (ite h.stackMaint h).nodeInval (.ite h.stackMaint h)
  exact .ite (ite hs2.deskInval hs2).plotInval (.ite hs2.deskInval hs2)

theorem refitInval {tid} (h : s.MemWf) : (s.refitInval tid).MemWf := h.maint

theorem invalWrote {x} (h : s.MemWf) : (s.invalWrote x).MemWf := .ite h (h.foldl (fun _ _ ht => ht.refitInval)).updBatch

theorem maintGranule {x op target r g} (h : s.MemWf) : (s.maintGranule x op target r g).MemWf := by
  unfold State.maintGranule
  split
  · exact h.regViol
  · exact .ite h.regViol (.ite h.maint.maint h.maint)

theorem maintBatch {x mrec} (h : s.MemWf) : (s.maintBatch x mrec).MemWf := by
  unfold State.maintBatch
  refine updBatch ?_
  split
  · exact h
  · exact .ite h (h.foldl (fun _ _ hu => hu.maintGranule))

theorem exec_maintOperation {b} (h : s.MemWf) : NextWf (execMaintOperation b s) := by
  unfold execMaintOperation
  refine next ?_
  split
  · exact h
  · refine .ite h ?_
    split
    · exact h
    · exact h.hostRead.maintBatch

theorem mop {op code target} (h : s.MemWf) : (s.mop op code target).MemWf :=
  h.guardWrite (fun _ ht => .ite ht.parityCheck (.ite ht.wr (.ite ht.hostSet ht.hostSet.maint.wr.upd)))

theorem exec_mopInval {target} (h : s.MemWf) : NextWf (execMopInval target s) := h.mop.next

theorem exec_mopClean {target} (h : s.MemWf) : NextWf (execMopClean target s) := h.mop.next

theorem exec_mopCleanInval {target} (h : s.MemWf) : NextWf (execMopCleanInval target s) := h.mop.next

theorem exec_mopZero {target} (h : s.MemWf) : NextWf (execMopZero target s) := h.mop.next

theorem exec_mopComplete (h : s.MemWf) : NextWf (execMopComplete s) := (ite h h.upd.wr.status).next

theorem cacheCtl (h : s.MemWf) {f : State → State} (hf : ∀ t : State, t.MemWf → (f t).MemWf) : (s.cacheCtl f).MemWf :=
  h.guardWrite fun _ ht => hf _ ht.hostSet

theorem scInvalAll {p} (h : s.MemWf) : (s.scInvalAll p).MemWf := h.updPort

theorem dcInvalAll (h : s.MemWf) : s.dcInvalAll.MemWf := h.upd

theorem ncInvalAll (h : s.MemWf) : s.ncInvalAll.MemWf := h.upd

theorem exec_scInv {p} (h : s.MemWf) : NextWf (execScInv p s) := (h.cacheCtl (fun _ ht => ht.scInvalAll)).next

theorem exec_dcInv (h : s.MemWf) : NextWf (execDcInv s) := (h.cacheCtl (fun _ ht => ht.dcInvalAll)).next

theorem exec_ncInv (h : s.MemWf) : NextWf (execNcInv s) := (h.cacheCtl (fun _ ht => ht.ncInvalAll)).next

theorem enableRefused (h : s.MemWf) : s.enableRefused.MemWf := h.wr.report

theorem exec_cacheEnable {c} (h : s.MemWf) : NextWf (execCacheEnable c s) :=
  (h.cacheCtl (fun _ ht => .ite ht (.ite ht.disarm.enableRefused (.ite ht.hostSet ht.enableRefused)))).next

theorem scDisable {p} (h : s.MemWf) : (s.scDisable p).MemWf := by
  unfold State.scDisable
  exact (h.foldl (fun _ _ hu => hu.evictLine)).updPort

theorem exec_cacheDisable {c} (h : s.MemWf) : NextWf (execCacheDisable c s) := by
  unfold execCacheDisable
  refine next (h.cacheCtl fun _ ht => ?_)
  refine .ite ht ?_
  split
  · exact ht.hostSet.upd
  · exact ht.hostSet.upd
  · exact ht.hostSet.scDisable

theorem aperture (h : s.MemWf) {f : State → State} (hf : ∀ t : State, t.MemWf → (f t).MemWf) : (s.aperture f).MemWf :=
  .ite h (.ite h.upd (hf _ h))

theorem apStep {r n} (h : s.MemWf) : (s.apStep r n).1.MemWf := by
  induction n generalizing s r with
  | zero => exact h
  | succ n ih =>
    rw [State.apStep]
    refine .ite_fst h (.ite_fst (ih h) ?_)
    split
    · exact ih h
    · refine .ite_fst h ?_
      split
      · next he => exact ih (h.sectorHit.of_fst he)
      · next he =>
        have hhit := h.sectorHit.of_fst he
        exact .ite_fst hhit hhit.count.trainStride.updPort.pair

theorem apReturn {r} (h : s.MemWf) : (s.apReturn r).MemWf := h.upd

theorem apGo (h : s.MemWf) : s.apGo.MemWf := h.foldl fun _ _ ht => .ite ht.upd.apStep.apReturn ht.upd.apStep.upd

theorem apFinish {f n} (h : s.MemWf) : (s.apFinish f n).MemWf := by
  induction n generalizing s with
  | zero => exact h
  | succ n ih =>
    rw [State.apFinish]
    split
    · exact h
    · refine ih (apGo (h.foldl fun t r ht => ?_))
      split
      · exact ht
      split
      · exact ht.fill
      · exact ht

theorem exec_apertureRead {a len} (h : s.MemWf) : NextWf (execApertureRead a len s) :=
  (h.aperture (fun _ ht => .ite ht.apFinish.upd.apGo.protocolError ht.apFinish.upd.apGo)).next

theorem exec_apertureWrite {a data} (h : s.MemWf) : NextWf (execApertureWrite a data s) :=
  (h.aperture (fun _ ht => .ite ht.apFinish.sceneWrite.protocolError ht.apFinish.sceneWrite)).next

theorem exec_stackFill {p st addr} (h : s.MemWf) : NextWf (execStackFill p st addr s) := by
  unfold execStackFill
  refine next (.ite h ?_)
  split
  · exact h.fill.apGo
  · exact h.sectorRead.apGo

theorem exec_evictionWrite {p} (h : s.MemWf) : NextWf (execEvictionWrite p s) := (ite h h.evictOldest).next

theorem prefetchStream {p st} (h : s.MemWf) : (s.prefetchStream p st).MemWf := by
  unfold State.prefetchStream
  split
  · exact h
  · refine .ite h ?_
    split
    · exact h
    · refine h.foldl fun _ _ ht => ?_
      split
      · exact ht
      · exact .ite ht.updPort.count ht

theorem exec_prefetch {p st} (h : s.MemWf) : NextWf (execPrefetch p st s) := (ite h.checkPages h.checkPages.prefetchStream).next

theorem scrub {p} (h : s.MemWf) : (s.scrub p).MemWf := by
  unfold State.scrub
  extract_lets pos s1 s2
  have hs1 : s1.MemWf := by
    dsimp only [s1]
    split
    · exact .ite h.stackReq.stackWords h
    · exact h
  have hs2 : s2.MemWf := hs1.count
  exact .ite hs2.updPort hs2.updPort.wr

theorem exec_scrubRead {p} (h : s.MemWf) : NextWf (execScrubRead p s) := (ite h.checkPages h.checkPages.scrub).next

theorem exec_stackRefresh {p} (h : s.MemWf) : NextWf (execStackRefresh p s) := (ite h.updPort h).next

/-! ## Closure and reopening of districts (R177 to R189) -/

theorem dstCtl {d on} (h : s.MemWf) : (s.dstCtl d on).MemWf := h.guardWrite fun _ ht => ht.hostSet.setReason

theorem exec_dstClose {d} (h : s.MemWf) : NextWf (execDstClose d s) := h.dstCtl.next

theorem exec_dstOpen {d} (h : s.MemWf) : NextWf (execDstOpen d s) := h.dstCtl.next

theorem exec_dstReopen {d} (h : s.MemWf) : NextWf (execDstReopen d s) := (h.guardWrite (fun _ ht => .ite ht.setReason ht)).next

theorem loseStreet {d} (h : s.MemWf) : (s.loseStreet d).MemWf := h.upd.refreshDrained

theorem exec_dstSideBaseWrite {d v} (h : s.MemWf) : NextWf (execDstSideBaseWrite d v s) :=
  (h.guardWrite (fun _ ht => (ite ht.hostSet ht.hostSet.loseStreet).setReason)).next

theorem leave {w} (h : s.MemWf) : (s.leave w).MemWf := by
  unfold State.leave
  split
  · exact h.sendWalker
  · exact h

theorem noSquares {d} (h : s.MemWf) : (s.noSquares d).MemWf := h.updDist

theorem orderly {d} (h : s.MemWf) : (s.orderly d).MemWf := by
  unfold State.orderly
  refine .ite ?_ h
  extract_lets t
  have ht : t.MemWf := (h.foldl (fun _ _ hu => hu.leave)).noSquares
  exact (ht.foldl (fun _ _ hu => hu.drainSlot)).refreshDrained

theorem exec_orderlyClosure {d} (h : s.MemWf) : NextWf (execOrderlyClosure d s) := (ite h.orderly h).next

theorem loseOrphans (h : s.MemWf) : s.loseOrphans.MemWf := h.upd

theorem startCensus {d} (h : s.MemWf) : (s.startCensus d).MemWf := h.upd

theorem faultLoss {d} (h : s.MemWf) : (s.faultLoss d).MemWf := h.updDist.upd.loseOrphans.startCensus.refreshDrained

theorem exec_faultClosure {d} (h : s.MemWf) : NextWf (execFaultClosure d s) := (ite h.faultLoss h).next

theorem loseStranded (h : s.MemWf) : s.loseStranded.MemWf := .ite h h.upd

theorem exec_censusMarker {d} (h : s.MemWf) : NextWf (execCensusMarker d s) := by
  unfold execCensusMarker
  refine next ?_
  split
  · exact h
  · exact .ite h.upd h

theorem restart {x} (h : s.MemWf) : (s.restart x).MemWf := h.abandon.upd.updTally.count

theorem forget {b is} (h : s.MemWf) : (s.forget b is).MemWf := h.upd

theorem redealOne {x d gen i} (h : s.MemWf) : (s.redealOne x d gen i).MemWf :=
  .ite h.invoke (.ite h.enterWalker.stampHost.updDist h.enterWalker)

theorem redealTo {x is d} (h : s.MemWf) : (s.redealTo x is d).MemWf := (h.upd.foldl (fun _ _ ht => ht.redealOne)).count.wakeDist

theorem redeal {x is} (h : s.MemWf) : (s.redeal x is).MemWf := by
  unfold State.redeal
  dsimp only
  refine .ite ?_ ?_
  · split
    · exact h.forget
    split
    · next he => exact (h.forget.heapClear.of_fst he).redealTo
    · next he => exact h.forget.heapClear.of_fst he
  split
  · exact h.forget
  · exact h.forget.redealTo

theorem replayBatch {b} (h : s.MemWf) : (s.replayBatch b).MemWf := by
  unfold State.replayBatch
  split
  · exact h
  · exact .ite h (.ite h.restart (h.foldl (fun _ _ ht => ht.redeal)))

theorem resetFaulted (h : s.MemWf) : s.resetFaulted.MemWf := h.foldl fun _ _ ht => .ite ht.setDist ht

theorem exec_censusReplay (h : s.MemWf) : NextWf (execCensusReplay s) := by
  unfold execCensusReplay
  refine next ?_
  split
  · exact h
  · refine .ite h ?_
    extract_lets t
    have ht : t.MemWf := h.loseStranded.foldl fun _ _ hu => hu.replayBatch
    exact .ite ht ht.upd.resetFaulted

theorem failCore {d} (h : s.MemWf) : (s.failCore d).MemWf := h.of_memoryKept (.failCore ..)

theorem coreExpiry {d} (h : s.MemWf) : (s.coreExpiry d).MemWf := h.of_memoryKept (.coreExpiry ..)

theorem failTile {d t} (h : s.MemWf) : (s.failTile d t).MemWf := .ite h.report.updDist.failCore h.report.updDist

/-! ## Shootdowns (R376 to R378) -/

theorem shootStart (h : s.MemWf) : s.shootStart.MemWf := h.upd

theorem stampNamed {b xs} (h : s.MemWf) : (s.stampNamed b xs).1.MemWf := by
  induction xs generalizing s with
  | nil => exact h
  | cons x xs ih =>
    obtain ⟨acc, va, n, w⟩ := x
    rw [State.stampNamed]
    split
    · next he => exact h.stampExtent.of_fst he
    · next he => exact ih (h.stampExtent.of_fst he)

theorem rewalk {e} (h : s.MemWf) : (s.rewalk e).MemWf := by
  unfold State.rewalk
  dsimp only
  split
  · exact h
  · refine .ite h ?_
    split
    · next he => exact h.upd.stampNamed.of_fst he
    · next he => exact (h.upd.stampNamed.of_fst he).upd.xlateFault

theorem shootEnd (h : s.MemWf) : s.shootEnd.MemWf := by
  unfold State.shootEnd
  refine .ite ?_ h
  extract_lets t
  have ht : t.MemWf := h.foldl fun _ _ hu => hu.rewalk
  exact .ite h ht.upd.wr.status.resumeWaiting

theorem shootTick (h : s.MemWf) : s.shootTick.MemWf := .ite (ite h (.ite h h.shootStart)).shootEnd h

theorem exec_shootdownGo (h : s.MemWf) : NextWf (execShootdownGo s) :=
  (h.guardWrite (fun _ ht => .ite ht.wr (ite ht.parityCheck ht).wr.shootTick)).next

end State.MemWf
end Sys2Proof.Machine
end

section
/-! PROOFS. The canonical form of both memories is kept (log 2): results, traversal and probes. -/

namespace Sys2Proof.Machine
namespace State.MemWf

variable {s t : State}

/-! ## Results and delivery (R303 to R335) -/

theorem ackWalker {w hits} (h : s.MemWf) : (s.ackWalker w hits).MemWf := h.setWalker

theorem putResult {w va bs hits} (h : s.MemWf) : (s.putResult w va bs hits).MemWf := by
  unfold State.putResult
  refine .ite h ?_
  split
  · exact h
  · next he => exact (h.stampWrite he).gateTrip.setWalker

theorem probeWrite {x w} (h : s.MemWf) : (s.probeWrite x w).MemWf := by
  unfold State.probeWrite
  split
  · exact h
  · exact .ite h (.ite h.ackWalker h.putResult)

theorem writeOne {x w} (h : s.MemWf) : (s.writeOne x w).MemWf :=
  .ite h.probeWrite (.ite (.ite h h.ackWalker) (.ite h.putResult h.ackWalker))

theorem firstMoved {f : Walker → State} {ws} (h : s.MemWf) (hf : ∀ w, (f w).MemWf) : (s.firstMoved f ws).MemWf := by
  induction ws with
  | nil => exact h
  | cons w ws ih => exact .ite ih (hf w)

theorem exec_resultWrite {d} (h : s.MemWf) : NextWf (execResultWrite d s) := by
  unfold execResultWrite
  refine next (.ite h (h.firstMoved fun _ => ?_))
  split
  · exact h.ackWalker
  · exact h.writeOne

theorem packOne {x w} (h : s.MemWf) : (s.packOne x w).MemWf := by
  unfold State.packOne
  dsimp only
  split
  · exact h.ackWalker
  · exact h.recordPut.upd.ackWalker

theorem exec_packWrite {d} (h : s.MemWf) : NextWf (execPackWrite d s) := by
  unfold execPackWrite
  refine next (.ite h ?_)
  split
  · exact h
  split
  · exact h
  · exact h.packOne

theorem addSlot {x slot ws fr} (h : s.MemWf) (he : s.addSlot x slot ws fr = some t) : t.MemWf := by
  unfold State.addSlot at he
  split at he
  · cases he
  · exact h.hostRead.stampWrite he

theorem retirePartials {x l ks} (h : s.MemWf) (he : s.retirePartials x l ks = some t) : t.MemWf := by
  induction ks generalizing s with
  | nil =>
    cases he
    exact h
  | cons k ks ih =>
    unfold State.retirePartials at he
    dsimp only at he
    split at he
    · cases he
    · next hadd => exact ih (h.addSlot hadd) he

theorem flushWrites {x l} (h : s.MemWf) (he : s.flushWrites x l = some t) : t.MemWf := by
  unfold State.flushWrites at he
  dsimp only at he
  split at he
  · cases he
  · next u hu =>
    have hu : u.MemWf := by
      split at hu
      · exact h.stampWrite hu
      · cases hu
        exact h
    split at he
    · split at he
      · exact hu.retirePartials he
      · cases he
        exact hu
    · exact hu.stampWrite he

theorem exec_runFlush {b} (h : s.MemWf) : NextWf (execRunFlush b s) := by
  unfold execRunFlush
  refine next ?_
  split
  · exact h
  split
  · exact h
  · refine .ite h (.ite h.recordGet.sceneLost ?_)
    split
    · exact h
    · next he => exact (h.recordGet.flushWrites he).updBatch

theorem exec_contribution {pick} (h : s.MemWf) : NextWf (execContribution pick s) := by
  unfold execContribution
  refine next ?_
  split
  · exact h
  split
  · exact h.upd
  · refine .ite h ?_
    split
    · exact h
    · next he => exact h.upd.addSlot he

theorem ledgerDone {x w} (h : s.MemWf) : (s.ledgerDone x w).MemWf := by
  unfold State.ledgerDone
  dsimp only
  split
  · exact h
  · exact .ite h h.upd.updBatch

theorem noticeOne {w} (h : s.MemWf) : (s.noticeOne w).MemWf := by
  unfold State.noticeOne
  extract_lets t
  have ht : t.MemWf := by
    dsimp only [t]
    split
    · exact h
    · exact .ite h h.ledgerDone
  exact ht.upd.updDist

theorem noticeTwin {b} (h : s.MemWf) : (s.noticeTwin b).MemWf := by
  unfold State.noticeTwin
  split
  · exact h
  · exact .ite h h.twinSend

theorem exec_doneNotice {r} (h : s.MemWf) : NextWf (execDoneNotice r s) := by
  unfold execDoneNotice
  refine next (.ite h ?_)
  split
  · exact h
  · exact ((h.foldl (fun _ _ hu => hu.meter)).foldl (fun _ _ hu => hu.noticeOne)).ledgerUpd.noticeTwin.refreshDrained

theorem tallyOk {x} (h : s.MemWf) : (s.tallyOk x).1.MemWf := by
  unfold State.tallyOk
  refine .ite_fst h (.ite_fst h.tallyEntryRead.headerLost.pair ?_)
  extract_lets r
  have hr : r.1.MemWf := h.tallyEntryRead.pair.foldl_fst fun _ _ hr => hr.tallyEntryRead.pair
  exact .ite_fst hr hr.upd.pair

theorem queueSealed {q was} (h : s.MemWf) : (s.queueSealed q was).MemWf := .ite (ite h.upd.status h).status (.ite h.upd.status h)

theorem retire {x didSeal} (h : s.MemWf) : (s.retire x didSeal).MemWf := by
  unfold State.retire
  extract_lets q was s1 s2 s3 s4
  have hs2 : s2.MemWf := .ite (ite h.setDeficit h).setReg (.ite h.setDeficit h)
  have hs3 : s3.MemWf := (ite hs2 hs2.updTally).clearBatch
  have hs4 : s4.MemWf := .ite (.ite hs3.twinSend hs3) (ite hs3.twinSend hs3).count
  exact (ite (ite hs4.upd hs4).upd (.ite hs4.upd hs4)).topSweep.wantRound.queueSealed

theorem sealConflict (h : s.MemWf) : s.sealConflict.MemWf := h.report

theorem completeNow {x} (h : s.MemWf) : (s.completeNow x).MemWf := by
  conv in State.completeNow => delta State.completeNow
  extract_lets b r s0
  have hs0 : s0.MemWf := .ite h.updTally h
  clear_value s0
  split
  · next he => exact (hs0.readVa.of_fst he).xlateFault
  · next he =>
    have ht := hs0.readVa.of_fst he
    refine .ite ht (.ite ht.sealConflict.retire ?_)
    split
    · next he1 => exact (ht.writeVa.of_fst he1).xlateFault
    · next he1 => exact (ht.writeVa.of_fst he1).updTally

theorem exec_completionWrite {b} (h : s.MemWf) : NextWf (execCompletionWrite b s) := by
  unfold execCompletionWrite
  refine next ?_
  split
  · exact h.checkPages
  · refine .ite h.checkPages ?_
    split
    · next he => exact h.checkPages.tallyOk.of_fst he
    · next he => exact (h.checkPages.tallyOk.of_fst he).invalWrote.completeNow

theorem sealNow {x} (h : s.MemWf) : (s.sealNow x).MemWf := by
  conv in State.sealNow => delta State.sealNow
  extract_lets b va
  split
  · next he => exact (h.xlate.of_fst he).xlateFault
  · next he =>
    have ht := h.xlate.of_fst he
    exact .ite ht.disarm.sealConflict.park (.ite ht.hostRead.hostWriteParts.count.retire
      (.ite ht.hostRead.sealConflict.retire ht.hostRead.sealConflict.park))

theorem exec_sealCas {b} (h : s.MemWf) : NextWf (execSealCas b s) := by
  unfold execSealCas
  refine next ?_
  split
  · exact h
  · exact .ite h h.sealNow

theorem sendIrq {lo hi data} (h : s.MemWf) : (s.sendIrq lo hi data).1.MemWf := by
  unfold State.sendIrq
  extract_lets a _ t
  have ht : t.MemWf := ⟨Memory.wf_store _ _ _ h.host, h.scene⟩
  exact .ite_fst h ht.count.hostArm

theorem wakeWrite {x} (h : s.MemWf) : (s.wakeWrite x).MemWf := by
  unfold State.wakeWrite
  dsimp only
  split
  · next he => exact (h.writeVa.of_fst he).count
  · next he => exact (h.writeVa.of_fst he).upd.report

theorem queueIrq {x} (h : s.MemWf) : (s.queueIrq x).MemWf := by
  unfold State.queueIrq
  dsimp only
  refine .ite h.twnEvent ?_
  split
  · next he => exact (h.sendIrq.of_fst he).count
  · next he => exact h.sendIrq.of_fst he

theorem exec_wakeMessage {b} (h : s.MemWf) : NextWf (execWakeMessage b s) := by
  unfold execWakeMessage
  refine next ?_
  split
  · exact h
  · refine .ite h ?_
    extract_lets t u
    have hu : u.MemWf := .ite (ite h.wakeWrite h).queueIrq (.ite h.wakeWrite h)
    split
    · exact hu.goneBatch
    · exact hu

theorem exec_eventInterrupt (h : s.MemWf) : NextWf (execEventInterrupt s) := (ite h.checkPages h.checkPages.upd.sendIrq).next

theorem recordDone {f} (h : s.MemWf) : (s.recordDone f).MemWf := h.upd.resumeWaiting.trapsOver

theorem countTrap {f} (h : s.MemWf) : (s.countTrap f).MemWf := .ite h.updBatch h

theorem recordLost {f} (h : s.MemWf) : (s.recordLost f).MemWf := h.recordDone.wr.status

theorem exec_faultRecordWrite (h : s.MemWf) : NextWf (execFaultRecordWrite s) := by
  unfold execFaultRecordWrite
  dsimp only
  refine next ?_
  split
  · exact h.checkPages
  · refine .ite h.checkPages (.ite h.checkPages.recordLost (.ite (.ite h.checkPages h.checkPages.wr.status) ?_))
    split
    · next he => exact (h.checkPages.writeVa.of_fst he).recordLost
    · next he => exact h.checkPages.writeVa.of_fst he

theorem exec_fringHeadWrite {v} (h : s.MemWf) : NextWf (execFringHeadWrite v s) :=
  (h.guardWrite (fun _ ht => .ite ht.hostSet ht.hostSet.wr)).next

theorem recordAcked (h : s.MemWf) : s.recordAcked.MemWf := by
  unfold State.recordAcked
  extract_lets s1 i s2
  have hs1 : s1.MemWf := by
    dsimp only [s1]
    split
    · exact h
    · exact h.countTrap.recordDone
  have hs2 : s2.MemWf := .ite hs1.wr hs1.wr.wr
  exact hs2.count.status

theorem acked {fr} (h : s.MemWf) : (s.acked fr).MemWf := by
  unfold State.acked
  split
  · exact .ite h h.updWalker
  · exact .ite h h.recordAcked
  all_goals exact h

theorem exec_hostWriteAck {n} (h : s.MemWf) : NextWf (execHostWriteAck n s) := by
  unfold execHostWriteAck
  refine next ?_
  split
  · exact h
  · exact h.upd.acked.shootTick

theorem exec_hostReadData {pa data} (h : s.MemWf) : NextWf (execHostReadData pa data s) :=
  next ⟨Memory.wf_store _ _ _ h.host, h.scene⟩

/-! ## Traversal and triangle cells (R93 to R138) -/

theorem stepExpiry {d} (h : s.MemWf) : (s.stepExpiry d).MemWf := h.report.faultClose

theorem takeWalker {w} (h : s.MemWf) : (s.takeWalker w).1.MemWf := .ite_fst h.readSlot.disarm.stepExpiry.pair h.readSlot

theorem goOn {w work} (h : s.MemWf) : (s.goOn w work).MemWf := h.place

theorem prune {w rest} (h : s.MemWf) : (s.prune w rest).MemWf := h.fmtViol.goOn

theorem nodeRest {w a len b0} (h : s.MemWf) : (s.nodeRest w a len b0).1.MemWf := by
  unfold State.nodeRest
  refine .ite_fst ?_ h
  split
  · next he => exact (h.walkRead.of_fst he).pair
  · next he' => exact (h.walkRead.of_fst he').pair

theorem nodeTable {x w base bs bad} (h : s.MemWf) : (s.nodeTable x w base bs bad).1.MemWf := .ite_fst h.walkRead h

theorem stepNode {x w pick a cls ctx fl rest} (h : s.MemWf) : (s.stepNode x w pick a cls ctx fl rest).MemWf := by
  obtain ⟨read, hread⟩ : ∃ f, State.walkRead = f := ⟨_, rfl⟩
  conv in State.stepNode => delta State.stepNode
  rw [hread]
  dsimp only
  split
  · next s1 hdr he1 =>
    have h1 : s1.MemWf := h.walkRead.of_fst (hread ▸ he1)
    split
    · split
      · exact h1.endWalk
      · exact h1.prune
    split
    · next s2 b0 he2 =>
      have h2 : s2.MemWf := h1.walkRead.of_fst (hread ▸ he2)
      split
      · next s3 bs he3 =>
        have h3 : s3.MemWf := h2.nodeRest.of_fst he3
        split
        · exact h3.endWalk
        split
        · next s4 tab he4 =>
          have h4 : s4.MemWf := h3.nodeTable.of_fst he4
          exact .ite h4.count.prune h4.count.fmtViols.goOn
        · next he4 => exact (h3.nodeTable.of_fst he4).readFail
      · next he3 => exact (h2.nodeRest.of_fst he3).readFail
    · next he2 => exact (h1.walkRead.of_fst (hread ▸ he2)).readFail
  · next he1 => exact (h.walkRead.of_fst (hread ▸ he1)).readFail

theorem stepLink {w a ctx fl rest} (h : s.MemWf) : (s.stepLink w a ctx fl rest).MemWf := by
  unfold State.stepLink
  split
  · next he => exact (h.walkRead.of_fst he).goOn
  · next he' => exact (h.walkRead.of_fst he').readFail

theorem stepInstance {w a left ctx fl rest} (h : s.MemWf) : (s.stepInstance w a left ctx fl rest).MemWf := by
  unfold State.stepInstance
  dsimp only
  split
  · next he =>
    refine .ite (h.walkRead.of_fst he).prune (.ite (h.walkRead.of_fst he).goOn ?_)
    split
    · exact (h.walkRead.of_fst he).count.goOn
    · exact (h.walkRead.of_fst he).goOn
  · next he' => exact (h.walkRead.of_fst he').readFail

theorem stepRoot {w a cls o i fl rest} (h : s.MemWf) : (s.stepRoot w a cls o i fl rest).MemWf := by
  unfold State.stepRoot
  split
  · next u _ he =>
    refine .ite (h.walkRead.of_fst he).prune ?_
    extract_lets u
    have hu : u.MemWf := (h.walkRead.of_fst he).count
    split <;> exact hu.goOn
  · next he' => exact (h.walkRead.of_fst he').readFail

theorem stepCustom {x w kind a left ctx fl rest} (h : s.MemWf) : (s.stepCustom x w kind a left ctx fl rest).MemWf := by
  unfold State.stepCustom
  dsimp only
  split
  · next he =>
    have ht := h.walkRead.of_fst he
    exact .ite ht.prune (.ite ht.count.callProgram ht.count.goOn)
  · next he => exact (h.walkRead.of_fst he).readFail

theorem stepProbeLink {w a bound rest} (h : s.MemWf) : (s.stepProbeLink w a bound rest).MemWf := by
  unfold State.stepProbeLink
  refine .ite h.goOn ?_
  split
  · next he => exact .ite (h.walkRead.of_fst he).goOn (h.walkRead.of_fst he).prune
  · next he' => exact (h.walkRead.of_fst he').readFail

theorem cellStep {x w pick} (h : s.MemWf) : (s.cellStep x w pick).MemWf := by
  unfold State.cellStep
  split
  · exact h.place
  · exact h.stepNode
  · exact h.stepLink
  · exact .ite h.stepInstance (.ite h h.stepCustom)
  · exact h.stepRoot
  · exact h.stepProbeLink
  all_goals exact h

theorem withBatch {w} (h : s.MemWf) {f : State → Batch → State} (hf : ∀ (t : State) (x : Batch), t.MemWf → (f t x).MemWf) :
    (s.withBatch w f).MemWf := by
  unfold State.withBatch
  split
  · exact h.dropWalker
  · exact .ite h.dropWalker (hf _ _ h)

theorem exec_nodeStep {d pick} (h : s.MemWf) : NextWf (execNodeStep d pick s) := by
  unfold execNodeStep
  refine next (.ite h ?_)
  split
  · exact h
  split
  · next he => exact h.takeWalker.of_fst he
  · next he => exact (h.takeWalker.of_fst he).withBatch fun _ _ hu => hu.cellStep

theorem testTri {x w bs a j ctx fl rest tie} (h : s.MemWf) : (s.testTri x w bs a j ctx fl rest tie).MemWf := by
  unfold State.testTri
  split
  · exact h.goOn
  · refine .ite h.prune ?_
    extract_lets r s1 s2
    have hs2 : s2.MemWf := .ite h.count.count h.count
    split
    · exact hs2.goOn
    · exact .ite hs2.goOn hs2.offer

theorem triStep {x w pick tie} (h : s.MemWf) : (s.triStep x w pick tie).MemWf := by
  unfold State.triStep
  dsimp only
  split
  · exact h.testTri
  · split
    · next he =>
      split
      · exact (h.walkRead.of_fst he).goOn
      · exact (h.walkRead.of_fst he).testTri
    · next he' => exact (h.walkRead.of_fst he').readFail
  all_goals exact h

theorem exec_triangleTest {d pick tie} (h : s.MemWf) : NextWf (execTriangleTest d pick tie s) := by
  unfold execTriangleTest
  refine next (.ite h ?_)
  split
  · exact h
  split
  · next he => exact h.takeWalker.of_fst he
  · next he => exact (h.takeWalker.of_fst he).withBatch fun _ _ hu => hu.triStep

/-! ## Probe walks (R199 to R216) -/

theorem updHeap {d b idx gen f} (h : s.MemWf) : (s.updHeap d b idx gen f).MemWf := h.updDist

theorem readVectors {w leaf size i n} (h : s.MemWf) : (s.readVectors w leaf size i n).1.MemWf := by
  induction n generalizing s i with
  | zero => exact h
  | succ n ih =>
    rw [State.readVectors]
    split
    · next t _ he =>
      have ht : t.MemWf := h.walkRead.of_fst he
      extract_lets idr
      have hidr : idr.1.MemWf := .ite_fst ht ht.walkRead
      clear_value idr
      split
      · exact ih hidr
      · exact hidr
    · next he => exact h.walkRead.of_fst he

theorem finishProbe {d b idx gen} (h : s.MemWf) : (s.finishProbe d b idx gen).MemWf := by
  unfold State.finishProbe
  split
  · split
    · exact .ite (.ite h.updHeap h.callProgram) h
    · exact h
  · exact h

theorem endAtHome {d b idx gen sent visits} (h : s.MemWf) : (s.endAtHome d b idx gen sent visits).MemWf :=
  h.updHeap.updWalker.finishProbe

theorem giveNotice {w p} (h : s.MemWf) : (s.giveNotice w p).MemWf := .ite h.endAtHome h.setWalker.sendMsg.refreshDrained

theorem exec_endNotice {d} (h : s.MemWf) : NextWf (execEndNotice d s) := by
  unfold execEndNotice
  refine next (.ite h ?_)
  split
  · split
    · exact h.dropMsg.endAtHome
    all_goals exact h
  split
  · exact h
  split
  · exact h
  · exact h.giveNotice

theorem candidatesIn {d src b idx gen ents} (h : s.MemWf) : (s.candidatesIn d src b idx gen ents).MemWf := by
  unfold State.candidatesIn
  split
  · split
    · exact h
    · exact (ite h.updHeap.setWalker h.updHeap).sendMsg.finishProbe
  · exact h

theorem exec_candidateMessage {d} (h : s.MemWf) : NextWf (execCandidateMessage d s) := by
  unfold execCandidateMessage
  refine next (.ite h ?_)
  split
  · exact h
  split
  · exact h.dropMsg.candidatesIn
  all_goals exact h

theorem exec_tauReply {d} (h : s.MemWf) : NextWf (execTauReply d s) := by
  unfold execTauReply
  refine next (.ite h ?_)
  split
  · exact h
  split
  · exact h.dropMsg.updWalker
  all_goals exact h

theorem probeNode {x w p pick a bs bad len rest} (h : s.MemWf) : (s.probeNode x w p pick a bs bad len rest).MemWf :=
  .ite h.prune h.fmtViols.goOn

theorem sendCandidates {w p k n ents} (h : s.MemWf) : (s.sendCandidates w p k n ents).1.MemWf := by
  induction k generalizing s n ents with
  | zero => exact h
  | succ k ih => exact .ite_fst h (ih h.sendMsg)

theorem probeLeaf {x w p leaf vs rest} (h : s.MemWf) : (s.probeLeaf x w p leaf vs rest).MemWf := by
  unfold State.probeLeaf
  refine .ite (ite h.fmtViol h).goOn (.ite ?_ ?_)
  · split
    · exact (ite h.fmtViol h).goOn
    · exact (ite h.fmtViol h).updHeap.goOn
  · extract_lets near r
    have hr : r.1.MemWf := (ite h.fmtViol h).sendCandidates
    exact hr.goOn

theorem eachProbe {ws} (h : s.MemWf) {f : State → Walker → ProbeRec → List WItem → State}
    (hf : ∀ (t : State) w p rest, t.MemWf → (f t w p rest).MemWf) : (s.eachProbe ws f).MemWf := by
  refine h.foldl fun _ _ ht => ?_
  split
  · exact ht
  split
  · exact hf _ _ _ _ ht
  · exact ht

theorem jobFail {ws facc r} (h : s.MemWf) : (s.jobFail ws facc r).MemWf := h.eachProbe fun _ _ _ _ ht => ht.readFail

theorem nodeJob {x w0 p0 ws pick a} (h : s.MemWf) : (s.nodeJob x w0 p0 ws pick a).MemWf := by
  have hprune {t : State} (ht : t.MemWf) : (t.eachProbe ws fun u w _ rest => u.prune w rest).MemWf :=
    ht.eachProbe fun _ _ _ _ hu => hu.prune
  conv in State.nodeJob => delta State.nodeJob
  extract_lets unit prune
  split
  · next s1 hdr he1 =>
    have h1 : s1.MemWf := h.walkRead.of_fst he1
    split
    · exact hprune h1
    refine .ite (hprune h1) ?_
    split
    · next s2 b0 he2 =>
      have h2 : s2.MemWf := h1.walkRead.of_fst he2
      extract_lets n bad more r
      have hr : r.1.MemWf := .ite_fst h2 h2.walkRead
      clear_value r
      split
      · exact (count hr).eachProbe fun _ _ _ _ ht => ht.probeNode
      · exact jobFail hr
    · next he2 => exact (h1.walkRead.of_fst he2).jobFail
  · next he1 => exact (h.walkRead.of_fst he1).jobFail

theorem leafJob {x w0 p0 ws a} (h : s.MemWf) : (s.leafJob x w0 p0 ws a).MemWf := by
  unfold State.leafJob
  dsimp only
  split
  · next s1 leaf he =>
    have h1 : s1.MemWf := h.walkRead.of_fst he
    refine .ite (h1.eachProbe fun _ _ _ _ ht => ht.goOn) (.ite (h1.eachProbe fun _ _ _ _ ht => ht.prune)
      (.ite (h1.eachProbe fun _ _ _ _ ht => ht.goOn) ?_))
    split
    · next he' => exact (h1.readVectors.of_fst he').count.eachProbe fun _ _ _ _ ht => ht.probeLeaf
    · next he' => exact (h1.readVectors.of_fst he').jobFail
  · next he => exact (h.walkRead.of_fst he).jobFail

theorem job {d pick w} (h : s.MemWf) : (s.job d pick w).MemWf := by
  unfold State.job
  split
  · split
    · exact h
    · exact .ite h.goOn (h.withBatch (fun _ _ ht => .ite ht.nodeJob ht.leafJob))
  · exact h

theorem exec_probeJob {d pick} (h : s.MemWf) : NextWf (execProbeJob d pick s) := by
  unfold execProbeJob
  refine next (.ite h ?_)
  split
  · refine .ite h (.ite h.disarm.failTile ?_)
    split
    · next he => exact h.readSlot.of_fst he
    · next he => exact (h.readSlot.of_fst he).job
  · exact h

end State.MemWf
end Sys2Proof.Machine
end

section
/-! PROOFS. The canonical form of both memories is kept (log 2): intersection cores. -/

namespace Sys2Proof.Machine
namespace State.MemWf

variable {s t : State}

/-! ## Groups and their traps (R34, R261 to R265) -/

theorem updCore {d f} (h : s.MemWf) : (s.updCore d f).MemWf := h.updDist

theorem putGroup {d k g} (h : s.MemWf) : (s.putGroup d k g).MemWf := h.updCore

theorem dropGroup {d k} (h : s.MemWf) : (s.dropGroup d k).MemWf := h.updCore

theorem judgeWords {d es} (h : s.MemWf) : (s.judgeWords d es).1.MemWf := (h.foldl (fun _ _ ht => ht.dstCode)).pair

theorem readRegs {d g rs} (h : s.MemWf) : (s.readRegs d g rs).1.MemWf := h.of_memoryKept (.readRegs ..)

theorem readLocal {d g touch} (h : s.MemWf) : (s.readLocal d g touch).1.MemWf := by
  unfold State.readLocal
  split
  · exact h
  · exact .ite_fst h.judgeWords.pair h.judgeWords.failCore.pair

theorem writeLocal {d g a bs} (h : s.MemWf) : (s.writeLocal d g a bs).1.MemWf := .ite_fst h h.disarm.pair

theorem dropInv {d i} (h : s.MemWf) : (s.dropInv d i).MemWf := by
  unfold State.dropInv
  refine .ite ?_ ?_
  · split
    · exact h
    · exact h.upd.tick
  split
  · exact h
  · exact h.dropWalker

theorem rerankDone {w ents} (h : s.MemWf) : (s.rerankDone w ents).MemWf := h.updHeap.setWalker.tick

theorem missInv {d i} (h : s.MemWf) : (s.missInv d i).MemWf := by
  unfold State.missInv
  split
  · exact h
  · refine .ite h.upd.tick ?_
    split
    · exact h
    split
    · exact h.rerankDone
    · exact .ite h.endQuiet h.endWalk

theorem trapRecord {d g t handle} (h : s.MemWf) : (s.trapRecord d g t handle).MemWf := h.upd

theorem trapReport {d cause} (h : s.MemWf) : (s.trapReport d cause).MemWf := .ite h.report h.status

theorem trapBatch {b} (h : s.MemWf) : (s.trapBatch b).MemWf := h.updBatch

theorem freeGroup {d k g} (h : s.MemWf) : (s.freeGroup d k g).MemWf := h.dropGroup.upd

theorem raise {d k g t} (h : s.MemWf) : (s.raise d k g t).MemWf := h.of_memoryKept (.raise ..)

theorem raiseHere {d k g c w det} (h : s.MemWf) : (s.raiseHere d k g c w det).MemWf := h.of_memoryKept (.raiseHere ..)

theorem faultGroup {d k g} (h : s.MemWf) : (s.faultGroup d k g).MemWf := h.putGroup

/-! ## Issue (R225, R226) -/

theorem lockOne {g t} (h : s.MemWf) : (s.lockOne g t).1.MemWf := by
  unfold State.lockOne
  split
  · exact h
  · refine .ite_fst h ?_
    split
    · exact h
    · exact .ite_fst h h.upd.pair

theorem lockAll {g} (h : s.MemWf) : (s.lockAll g).1.MemWf := h.foldl_fst fun _ _ hp => hp.lockOne.pair

theorem slotWrite {g f j} (h : s.MemWf) (he : s.slotWrite g f j = some t) : t.MemWf := by
  unfold State.slotWrite at he
  dsimp only at he
  split at he
  · cases he
    exact h
  split at he
  · cases he
    exact h.setWalker
  split at he
  · cases he
  · exact h.stampWrite he

theorem slotWrites {g f js} (h : s.MemWf) (he : s.slotWrites g f js = some t) : t.MemWf := by
  induction js generalizing s with
  | nil =>
    cases he
    exact h
  | cons j js ih =>
    unfold State.slotWrites at he
    split at he
    · cases he
    · next hwrite => exact ih (h.slotWrite hwrite) he

theorem waiting {g cls op} (h : s.MemWf) : (s.waiting g cls op).MemWf := .ite h.lockAll h

theorem retireIns {d k g keys} (h : s.MemWf) : (s.retireIns d k g keys).MemWf := h.of_memoryKept (.retireIns ..)

theorem apply {a : Act} {d k g} (h : a.state.MemWf) : (a.apply d k g).MemWf := h.of_memoryKept (a.apply_keeps d k g)

theorem issue {r cls op f body} (h : s.MemWf) (hbody : ∀ (t : State) g, t.MemWf → (body t g).state.MemWf) :
    (s.issue r cls op f body).MemWf := by
  unfold State.issue
  extract_lets d k
  refine .ite h ?_
  split
  · exact h
  · refine .ite h (.ite h.disarm.coreExpiry ?_)
    split
    · exact h.raise
    · refine .ite h.raiseHere (.ite h (.ite h.raiseHere (.ite h.retireIns (.ite h.waiting ?_))))
      split
      · next he => exact h.readRegs.of_fst he
      · next he => exact (hbody _ _ (h.readRegs.of_fst he)).apply

theorem laneDone {g m f val} (h : s.MemWf) : (laneDone s g m f val).state.MemWf := h

/-! ## EXIT and what it returns (R233, R243) -/

theorem ctlIns {r f code} (h : s.MemWf) {body : State → Group → Act} (hbody : ∀ (t : State) (x : Group), t.MemWf → (body t x).state.MemWf) :
    NextWf (s.ctlIns r f code body) :=
  (h.issue (fun _ _ ht => hbody _ _ ht)).next

theorem freeBit (h : s.MemWf) : (s.freeBit).1.MemWf := h.upd.pair

theorem progHit {x w g j hd} (h : s.MemWf) : (s.progHit x w g j hd).MemWf := .ite h.place h.freeBit.offer

theorem anyhitDone {x w v0 hd} (h : s.MemWf) : (s.anyhitDone x w v0 hd).MemWf := .ite h.freeBit.acceptHit h.place

theorem accumDone {x w g j} (h : s.MemWf) : (s.accumDone x w g j).MemWf := .ite h.contribute.endWalk h.contribute.place

theorem genDone {x d g j i} (h : s.MemWf) : (s.genDone x d g j i).MemWf :=
  .ite h.enterWalker.regViol.endWalk (.ite h.enterWalker.enterRay h.enterWalker.endWalk)

theorem refitDone {w g j} (h : s.MemWf) : (s.refitDone w g j).MemWf := .ite h.applyUpdate h.endQuiet

theorem scoreDone {w g i} (h : s.MemWf) : (s.scoreDone w g i).MemWf := by
  unfold State.scoreDone
  split
  · exact h.endQuiet
  · exact h.rerankDone

theorem exitWalker {x w g j i} (h : s.MemWf) : (s.exitWalker x w g j i).MemWf := by
  unfold State.exitWalker
  refine .ite (ite h.regViol h).scoreDone (.ite (.ite h.regViol.endQuiet h.refitDone) (.ite h.violate ?_))
  split
  · exact h.anyhitDone
  · exact h.accumDone
  · exact .ite h.progHit h.place

theorem exitThread {d g j} (h : s.MemWf) : (s.exitThread d g j).MemWf := by
  unfold State.exitThread
  dsimp only
  split
  · exact h
  split
  · exact h.upd
  · refine .ite h.upd.dropInv (.ite h.upd.genDone ?_)
    split
    · exact h.upd
    · exact h.upd.exitWalker

theorem exec_exit {r f} (h : s.MemWf) : NextWf (execExit r f s) := by
  unfold execExit
  refine h.ctlIns fun _ _ ht => ?_
  extract_lets left u
  have hu : u.MemWf := ht.foldl fun _ _ hv => hv.exitThread
  split
  · exact hu.dropGroup.count
  · split <;> exact hu

/-! ## Matrix instructions (R251 to R257) -/

theorem mtxIssue {d g f op} (h : s.MemWf) : (Machine.mtxIssue s d g f op).state.MemWf := by
  unfold Machine.mtxIssue
  dsimp only
  split
  · exact h
  split
  · exact h
  split
  · next he => exact h.readLocal.of_fst he
  · next he =>
    have hu := h.readLocal.of_fst he
    split
    · exact .ite hu.count hu
    split
    · exact hu
    · exact (ite hu.count hu).tick

theorem exec_mma {r f} (h : s.MemWf) : NextWf (execMma r f s) := (h.issue (fun _ _ ht => ht.mtxIssue)).next

theorem exec_msmax {r f} (h : s.MemWf) : NextWf (execMsmax r f s) := (h.issue (fun _ _ ht => ht.mtxIssue)).next

theorem exec_mred {r f} (h : s.MemWf) : NextWf (execMred r f s) := (h.issue (fun _ _ ht => ht.mtxIssue)).next

theorem putRows {d g x clash rows} (h : s.MemWf) : (s.putRows d g x clash rows).1.MemWf :=
  h.foldl_fst fun _ _ hp => .ite_fst hp.upd.writeLocal hp.writeLocal

theorem mtxFinish {d k g n o} (h : s.MemWf) : (s.mtxFinish d k g n o).MemWf := by
  unfold State.mtxFinish
  extract_lets x
  split
  · next he => exact h.readLocal.of_fst he
  · next he =>
    extract_lets p inject t1 res t2 q q2
    have ht1 : t1.MemWf := .ite (h.readLocal.of_fst he).disarm (h.readLocal.of_fst he)
    have hq : q.1.MemWf := ht1.count.count.count.putRows
    have hq2 : q2.1.MemWf := .ite_fst hq hq.writeLocal
    exact hq2.putGroup

theorem exec_mtxComplete {r n} (h : s.MemWf) : NextWf (execMtxComplete r n s) := by
  unfold execMtxComplete
  refine next (.ite h ?_)
  split
  · split
    · exact h
    · exact .ite h (.ite h.disarm.failTile h.mtxFinish)
  · exact h

/-! ## Memory instructions (R246 to R250) -/

theorem memIns {r f code} (h : s.MemWf) {body : State → Group → Act} (hbody : ∀ (t : State) (x : Group), t.MemWf → (body t x).state.MemWf) :
    NextWf (s.memIns r f code body) :=
  (h.issue (fun _ _ ht => hbody _ _ ht)).next

theorem exec_ldL {r f} (h : s.MemWf) : NextWf (execLdL r f s) := by
  unfold execLdL
  refine h.memIns fun _ _ ht => ?_
  split
  · exact ht
  split
  · next he => exact ht.readLocal.of_fst he
  · next he => exact (ht.readLocal.of_fst he).laneDone

theorem exec_stL {r f} (h : s.MemWf) : NextWf (execStL r f s) := by
  unfold execStL
  refine h.memIns fun _ _ ht => ?_
  split
  · exact ht
  · extract_lets q
    have hq : q.1.MemWf := ht.foldl_fst fun _ _ hp => hp.writeLocal
    exact hq

theorem deskBytes {d a n} (h : s.MemWf) : (s.deskBytes d a n).1.MemWf := h.deskLinesRead.pair

theorem coreCheck {d b a n} (h : s.MemWf) : (s.coreCheck d b a n).1.MemWf := by
  unfold State.coreCheck
  dsimp only
  split
  · next he => exact (h.sceneCheck.of_fst he).pair
  · next he => exact (h.sceneCheck.of_fst he).pair

theorem checkThreads {d k g n ps} (h : s.MemWf) : (s.checkThreads d k g n ps).1.MemWf := by
  induction ps generalizing s with
  | nil => exact h
  | cons p ps ih =>
    rw [State.checkThreads]
    split
    · next he => exact ih (h.coreCheck.of_fst he)
    · next he => exact ih (h.coreCheck.of_fst he)
    · next he => exact ih (h.coreCheck.of_fst he)
    · next he => exact (h.coreCheck.of_fst he).absentFault.faultGroup
    · next he => exact (h.coreCheck.of_fst he).sceneLost

theorem loadThreads {d b n denied ps} (h : s.MemWf) : (s.loadThreads d b n denied ps).1.MemWf := by
  induction ps generalizing s with
  | nil => exact h
  | cons p ps ih =>
    rw [State.loadThreads]
    refine .ite_fst (ih h) ?_
    split
    · next he => exact (h.deskBytes.of_fst he).sceneLost
    · next he => exact ih (h.deskBytes.of_fst he)

theorem exec_ldS {r f} (h : s.MemWf) : NextWf (execLdS r f s) := by
  unfold execLdS
  dsimp only
  refine h.memIns fun _ _ ht => ?_
  split
  · next he => exact ht.checkThreads.of_fst he
  · next he =>
    have hu := ht.checkThreads.of_fst he
    split
    · next he' => exact hu.loadThreads.of_fst he'
    · next he' => exact (hu.loadThreads.of_fst he').laneDone

theorem exec_fillL {r f} (h : s.MemWf) : NextWf (execFillL r f s) := by
  unfold execFillL
  dsimp only
  refine h.memIns fun _ _ ht => ?_
  split
  · exact ht
  split
  · next he => exact ht.checkThreads.of_fst he
  · next he => exact ht.checkThreads.of_fst he

theorem fillCopies {d g n cs} (h : s.MemWf) : (s.fillCopies d g n cs).1.MemWf := by
  induction cs generalizing s g with
  | nil => exact h
  | cons c cs ih =>
    rw [State.fillCopies]
    refine .ite_fst (ih h.writeLocal) ?_
    split
    · next he => exact (h.deskBytes.of_fst he).sceneLost
    · next he => exact ih (h.deskBytes.of_fst he).writeLocal

theorem exec_fillComplete {r n} (h : s.MemWf) : NextWf (execFillComplete r n s) := by
  unfold execFillComplete
  refine next (.ite h ?_)
  split
  · exact h
  split
  · exact h
  split
  · next he => exact h.fillCopies.of_fst he
  · next he => exact (h.fillCopies.of_fst he).putGroup

theorem hostFault {d k g j va n c a} (h : s.MemWf) : (s.hostFault d k g j va n c a).MemWf := h.xlateFault.faultGroup

theorem hostLoads {d k g n ps} (h : s.MemWf) : (s.hostLoads d k g n ps).1.MemWf := by
  induction ps generalizing s with
  | nil => exact h
  | cons p ps ih =>
    rw [State.hostLoads]
    split
    · next he => exact (h.gateTrip.readVa.of_fst he).hostFault
    · next he => exact ih (h.gateTrip.readVa.of_fst he)

theorem exec_ldH {r f} (h : s.MemWf) : NextWf (execLdH r f s) := by
  unfold execLdH
  refine h.memIns fun _ _ ht => ?_
  split
  · next he => exact ht.hostLoads.of_fst he
  · next he => exact (ht.hostLoads.of_fst he).laneDone

theorem hostPieces {d k g f n ps} (h : s.MemWf) : (s.hostPieces d k g f n ps).1.MemWf := by
  induction ps generalizing s with
  | nil => exact h
  | cons p ps ih =>
    rw [State.hostPieces]
    split
    · next he => exact (h.gateTrip.xlate.of_fst he).hostFault
    · next he => exact ih (h.gateTrip.xlate.of_fst he)

theorem exec_stH {r f} (h : s.MemWf) : NextWf (execStH r f s) := by
  unfold execStH
  refine h.memIns fun _ _ ht => ?_
  split
  · next he => exact ht.hostPieces.of_fst he
  · next he => exact (ht.hostPieces.of_fst he).foldl fun _ _ hv => hv.hostWriteParts

theorem takeWord {d k g w} (h : s.MemWf) : (s.takeWord d k g w).MemWf := .ite h.putGroup h.raiseHere

theorem imageRecord {d g} (h : s.MemWf) : (s.imageRecord d g).MemWf := .ite h h.trapReport.trapRecord.updCore

theorem imageEnd {d k g} (h : s.MemWf) : (s.imageEnd d k g).MemWf :=
  (h.imageRecord.freeGroup.foldl (fun _ _ hu => hu.missInv)).trapBatch

theorem exec_instructionFetch {r} (h : s.MemWf) : NextWf (execInstructionFetch r s) := by
  unfold execInstructionFetch
  refine next (.ite h ?_)
  split
  · exact h
  · refine .ite h ?_
    split
    · exact h.raise
    · refine .ite h.raiseHere (.ite h.imageEnd ?_)
      split
      · next he => exact (h.deskBytes.of_fst he).sceneLost
      · next he => exact (h.deskBytes.of_fst he).takeWord

/-! ## Loads of a square (R170 to R173) -/

theorem startLoad {d ch q} (h : s.MemWf) : (s.startLoad d ch q).MemWf := by
  unfold State.startLoad
  dsimp only
  split
  · exact h.updDist
  · refine .ite h ?_
    split
    · exact h.count.drainSlot
    · exact h

theorem closeEmpty {d} (h : s.MemWf) : (s.closeEmpty d).MemWf := h.updDist.openWaiting

theorem loadDecision {d} (h : s.MemWf) : (s.loadDecision d).MemWf := by
  unfold State.loadDecision
  extract_lets s1 s2
  have hs2 : s2.MemWf := by
    refine .ite ?_ h.closeEmpty.topLoads
    split
    · exact h.closeEmpty.topLoads.startLoad
    · exact h.closeEmpty.topLoads
  refine .ite ?_ hs2
  split
  · exact hs2.updDist
  split
  · exact hs2.startLoad
  · exact hs2

theorem exec_loadDecision {d} (h : s.MemWf) : NextWf (execLoadDecision d s) := (ite h.loadDecision h).next

theorem releaseSquare {d tid} (h : s.MemWf) {f : State → Walker → State} (hf : ∀ (t : State) (x : Walker), t.MemWf → (f t x).MemWf) :
    (s.releaseSquare d tid f).MemWf :=
  (h.updDist.foldl (fun _ _ ht => hf _ _ ht)).openWaiting

theorem loaded {d k p owner bytes} (h : s.MemWf) : (s.loaded d k p owner bytes).MemWf :=
  (ite h h.disarm).updDist.count.tick.releaseSquare fun _ _ ht => ht.setWalker.tick

theorem readTreelet {d ch tid} (h : s.MemWf) : (s.readTreelet d ch tid).1.MemWf := h.sceneRead.sceneRead.pair

theorem finishLoad {d ch k p} (h : s.MemWf) : (s.finishLoad d ch k p).MemWf := by
  obtain ⟨read, hread⟩ : ∃ f, State.readTreelet = f := ⟨_, rfl⟩
  conv in State.finishLoad => delta State.finishLoad
  rw [hread]
  dsimp only
  split
  · exact h.freeSlot.releaseSquare fun _ _ ht => ht.place
  split
  · exact h.freeSlot.releaseSquare fun _ _ ht => ht.violate
  split
  · next he => exact (h.resident.of_fst he).freeSlot.releaseSquare fun _ _ ht => ht.absentFault.parkWalker
  · next he =>
    have hu := (h.resident.of_fst he).readTreelet (d := d) (ch := ch) (tid := p.tid)
    split
    · next he' =>
      have hfree := (hu.of_fst (hread ▸ he')).freeSlot (d := d) (k := k)
      exact (hfree.releaseSquare fun _ _ ht => ht.setWalker.tick).foldl fun _ _ ht => ht.sceneLost
    · next he' => exact (hu.of_fst (hread ▸ he')).loaded

theorem exec_plotLoadComplete {d ch} (h : s.MemWf) : NextWf (execPlotLoadComplete d ch s) := by
  unfold execPlotLoadComplete
  refine next (.ite h ?_)
  split
  · exact h
  · exact h.finishLoad

theorem exec_copyDrainEnd {d slot} (h : s.MemWf) : NextWf (execCopyDrainEnd d slot s) := by
  unfold execCopyDrainEnd
  refine next ?_
  split
  · exact h
  · exact .ite h h.freeSlot.topLoads

/-! ## Messages between cores (R258 to R260) -/

theorem sendAll {d g f} (h : s.MemWf) : (s.sendAll d g f).MemWf := h.foldl fun _ _ hu => hu.sendMsg

theorem exec_send {r f} (h : s.MemWf) : NextWf (execSend r f s) := next (h.issue fun _ _ ht => ht.sendAll)

theorem inboxPut {d src m grp thread reg} (h : s.MemWf) : (s.inboxPut d src m grp thread reg).MemWf :=
  (ite h.updCore h.updCore.count).sendMsg

theorem exec_sendDelivery {d} (h : s.MemWf) : NextWf (execSendDelivery d s) := by
  unfold execSendDelivery
  refine next (.ite h ?_)
  split
  · exact h
  split
  · exact h.dropMsg.wakeDist.inboxPut
  all_goals exact h

theorem statusIn {d grp thread reg ok} (h : s.MemWf) : (s.statusIn d grp thread reg ok).MemWf := h.updCore

theorem exec_sendStatus {d} (h : s.MemWf) : NextWf (execSendStatus d s) := by
  unfold execSendStatus
  refine next (.ite h ?_)
  split
  · exact h
  split
  · exact h.dropMsg.statusIn
  all_goals exact h

theorem exec_recv {r f} (h : s.MemWf) : NextWf (execRecv r f s) :=
  next (h.issue fun _ _ ht => by
    dsimp only [Act.state]
    exact ht.updCore)

/-! ## Accumulation slots (R321, R322) -/

theorem wlkIns {r f code} (h : s.MemWf) {body : State → Group → Act} (hbody : ∀ (t : State) (x : Group), t.MemWf → (body t x).state.MemWf) :
    NextWf (s.wlkIns r f code body) :=
  (h.issue (fun _ _ ht => hbody _ _ ht)).next

theorem exec_slotLock {r f} (h : s.MemWf) : NextWf (execSlotLock r f s) := h.wlkIns fun _ _ ht => ht.lockAll

theorem exec_slotUnlock {r f} (h : s.MemWf) : NextWf (execSlotUnlock r f s) := h.wlkIns fun _ _ ht => ht.upd

theorem countSlotReads {d g f} (h : s.MemWf) : (s.countSlotReads d g f).MemWf := by
  unfold State.countSlotReads
  refine h.foldl fun _ _ hu => ?_
  split
  · exact .ite hu hu.gateTrip.hostRead
  · exact hu

theorem exec_slotLd {r f} (h : s.MemWf) : NextWf (execSlotLd r f s) := h.wlkIns fun _ _ ht => ht.countSlotReads.upd.laneDone

theorem slotTrips {d g} (h : s.MemWf) : (s.slotTrips d g).MemWf := by
  unfold State.slotTrips
  refine h.foldl fun _ _ hu => ?_
  split
  · exact .ite hu hu.gateTrip
  · exact hu

theorem exec_slotSt {r f} (h : s.MemWf) : NextWf (execSlotSt r f s) := by
  unfold execSlotSt
  refine h.wlkIns fun _ _ ht => ?_
  split
  · exact ht
  · next he => exact (ht.slotWrites he).slotTrips

/-! ## Launch, park and restore (R218 to R232) -/

theorem imageOf {d x i} (h : s.MemWf) : (s.imageOf d x i).1.MemWf := by
  unfold State.imageOf
  refine .ite_fst h ?_
  split
  · next he => exact h.deskBytes.of_fst he
  · next t _ he =>
    have ht : t.MemWf := h.deskBytes.of_fst he
    refine .ite_fst ht ?_
    split
    · next he' => exact ht.deskBytes.of_fst he'
    · next he' => exact ht.deskBytes.of_fst he'

theorem takeInvs {d is} (h : s.MemWf) : (s.takeInvs d is).MemWf := h.updCore

theorem imageTrap {d i is} (h : s.MemWf) : (s.imageTrap d i is).MemWf :=
  (h.imageRecord.takeInvs.foldl (fun _ _ hu => hu.missInv)).trapBatch

theorem launch {d x m place i is taken} (h : s.MemWf) : (s.launch d x m place i is taken).MemWf :=
  h.takeInvs.putGroup.updCore.upd.count

theorem tryLaunch {d x m i} (h : s.MemWf) : (s.tryLaunch d x m i).MemWf := by
  unfold State.tryLaunch
  refine .ite h (.ite h.imageTrap ?_)
  split
  · exact h
  · exact h.launch

theorem exec_groupLaunch {d} (h : s.MemWf) : NextWf (execGroupLaunch d s) := by
  unfold execGroupLaunch
  refine next (.ite h ?_)
  split
  · exact h
  · exact h
  split
  · exact h.takeInvs
  split
  · next he => exact (h.tenParity.imageOf.of_fst he).sceneLost
  · next he => exact (h.tenParity.imageOf.of_fst he).imageTrap
  · next he => exact (h.tenParity.imageOf.of_fst he).tryLaunch

theorem exec_splitChange {d} (h : s.MemWf) : NextWf (execSplitChange d s) := by
  unfold execSplitChange
  refine next (.ite h ?_)
  split
  · exact h
  · exact .ite h h.updCore

theorem choosePre {d ks} (h : s.MemWf) : (s.choosePre d ks).MemWf := h.updCore

theorem preemptFor {d m} (h : s.MemWf) : (s.preemptFor d m).MemWf := by
  unfold State.preemptFor
  dsimp only
  refine .ite (.ite h.choosePre h) ?_
  split
  · exact h
  · exact h.choosePre

theorem exec_preemption {d} (h : s.MemWf) : NextWf (execPreemption d s) := by
  unfold execPreemption
  refine next (.ite h ?_)
  split
  · exact h
  split
  · exact h
  split
  · exact h.preemptFor
  · exact h
  · exact h

theorem toSlot {d k n g} (h : s.MemWf) : (s.toSlot d k n g).MemWf := h.recordPut.dropGroup.updCore.count

theorem settlePark {d k g} (h : s.MemWf) : (s.settlePark d k g).MemWf := by
  unfold State.settlePark
  extract_lets held slot t
  have ht : t.MemWf := by
    dsimp only [t]
    split
    · exact h
    · exact h.trapRecord
  clear_value slot t
  split
  · exact ht.toSlot
  · exact ht.putGroup.count

theorem exec_groupPark {r} (h : s.MemWf) : NextWf (execGroupPark r s) := by
  unfold execGroupPark
  refine next (.ite h ?_)
  split
  · exact h
  · refine .ite h (.ite (.ite h h.settlePark) (.ite ?_ h))
    split
    · exact h.toSlot
    · exact h.putGroup

theorem exec_groupRestore {d} (h : s.MemWf) : NextWf (execGroupRestore d s) := by
  obtain ⟨get, hget⟩ : ∃ f, State.recordGet = f := ⟨_, rfl⟩
  conv in execGroupRestore => delta execGroupRestore
  rw [hget]
  refine next (.ite h ?_)
  split
  · exact h
  · exact h
  · refine .ite h ?_
    split
    · exact h
    split
    · next he => exact (h.recordGet.of_fst (hget ▸ he)).sceneLost
    · next he => exact (h.recordGet.of_fst (hget ▸ he)).updCore.putGroup

theorem updHandle {d hd g} (h : s.MemWf) : (s.updHandle d hd g).MemWf := .ite h.updCore h.putGroup

theorem exec_trapReplay {d hd} (h : s.MemWf) : NextWf (execTrapReplay d hd s) := by
  unfold execTrapReplay
  refine next (h.guardWrite fun _ ht => ?_)
  split
  · exact ht
  · exact .ite ht.updHandle.trapsOver ht

theorem exec_trapKill {d hd} (h : s.MemWf) : NextWf (execTrapKill d hd s) := by
  unfold execTrapKill
  refine next (h.guardWrite fun _ ht => ?_)
  split
  · exact ht
  · exact ht.abandon.updBatch.fixStatus

theorem loseParks {d} (h : s.MemWf) : (s.loseParks d).MemWf := h.updCore

/-! ## The repair of a REFIT batch (R122 to R124) -/

theorem refitRead {b d a n} (h : s.MemWf) : (s.refitRead b d a n).1.MemWf := by
  have hread {u : State} (hu : u.MemWf) : (if (u.sceneRead (streamMisc d) a n).2.2 then ((u.sceneRead (streamMisc d) a n).1, WRead.lost a)
      else ((u.sceneRead (streamMisc d) a n).1, .ok (u.sceneRead (streamMisc d) a n).2.1)).1.MemWf := .ite_fst hu.sceneRead hu.sceneRead
  unfold State.refitRead
  dsimp only
  split
  · next he => exact h.sceneCheck.of_fst he
  · next he => exact h.sceneCheck.of_fst he
  · next he => exact h.sceneCheck.of_fst he
  · next he => exact .ite_fst (h.sceneCheck.of_fst he) (hread (h.sceneCheck.of_fst he))
  · next he => exact .ite_fst (h.sceneCheck.of_fst he) (hread (h.sceneCheck.of_fst he))

theorem repairFail {b r} (h : s.MemWf) : (s.repairFail b r).st.MemWf := by
  unfold State.repairFail
  split
  · exact h.regViol
  all_goals exact h

theorem leafBounds {b d kind a acc n} (h : s.MemWf) : (s.leafBounds b d kind a acc n).st.MemWf := by
  induction n generalizing s a acc with
  | zero => exact h
  | succ n ih =>
    rw [State.leafBounds]
    split
    · next he =>
      have hread := h.refitRead.of_fst he
      split
      · exact ih hread.fmtViols
      split
      · exact ih hread.fmtViol
      · exact ih hread
    · next he => exact ih (h.refitRead.of_fst he).regViol
    · next he => exact (h.refitRead.of_fst he).repairFail

theorem writeNode {b d a old tab boxes} (h : s.MemWf) : (s.writeNode b d a old tab boxes).st.MemWf := by
  unfold State.writeNode
  dsimp only
  split
  · exact h.regViol
  · exact (ite h.sceneWrite h.sceneWrite.sceneWrite).updBatch

theorem repairNode {b d a} (h : s.MemWf) : (s.repairNode b d a).1.MemWf := by
  conv in State.repairNode => delta State.repairNode
  split
  · next s1 hdr he1 =>
    have h1 : s1.MemWf := h.refitRead.of_fst he1
    split
    · exact h1
    split
    · next s2 b0 he2 =>
      have h2 : s2.MemWf := h1.refitRead.of_fst he2
      refine .ite_fst ?_ h2
      split
      · next he3 => exact h2.refitRead.of_fst he3
      · next he3 => exact h2.refitRead.of_fst he3
    · next he2 => exact h1.refitRead.of_fst he2
  · next he1 => exact h.refitRead.of_fst he1

theorem repairTable {b d a bs} (h : s.MemWf) : (s.repairTable b d a bs).1.MemWf := .ite_fst h.refitRead h

theorem repair {b d a cls n} (h : s.MemWf) : (s.repair b d a cls n).st.MemWf := by
  induction n generalizing s a cls with
  | zero => exact h
  | succ n ih =>
    rw [State.repair]
    split
    · next s1 bs len he =>
      have hnode : s1.MemWf := h.repairNode.of_fst he
      split
      · exact hnode.fmtViol
      extract_lets base one all
      have hone (t : State) (c : Nat) (ht : t.MemWf) : (one t c).st.MemWf := by
        dsimp only [one]
        split
        · exact ht
        split
        · exact ht.fmtViols
        split
        · exact ih ht
        · exact ih ht
        · split
          · next he' => exact ih (ht.refitRead.of_fst he')
          · next he' => exact (ht.refitRead.of_fst he').repairFail
        · exact ht
        · exact ht.fmtViols.leafBounds
      have hall : all.1.st.MemWf := by
        refine List.foldlRecOn (motive := fun acc : Repair × List (Option QBox) => acc.1.st.MemWf) _ _ hnode fun acc hacc c _ => ?_
        split
        · exact hacc
        · exact hone _ c hacc
      split
      · exact hall
      split
      · next he' => exact (hall.repairTable.of_fst he').writeNode
      · next he' => exact (hall.repairTable.of_fst he').repairFail
    · next he => exact (h.repairNode.of_fst he).repairFail

theorem repairBatch {x} (h : s.MemWf) : (s.repairBatch x).MemWf := by
  obtain ⟨fix, hfix⟩ : ∃ f, State.repair = f := ⟨_, rfl⟩
  have hr {b d a cls n} : (fix s b d a cls n).st.MemWf := hfix ▸ h.repair
  conv in State.repairBatch => delta State.repairBatch
  rw [hfix]
  dsimp only
  split
  · exact hr.updBatch.absentFault
  · exact hr.updBatch.sceneLost
  all_goals exact hr.updBatch

theorem exec_refitRepair {b} (h : s.MemWf) : NextWf (execRefitRepair b s) := by
  unfold execRefitRepair
  refine next ?_
  split
  · exact h
  · exact .ite h h.repairBatch

end State.MemWf
end Sys2Proof.Machine
end

section
/-! PROOFS. The canonical form of both memories is kept (log 2): register accesses, power and heat. -/

namespace Sys2Proof.Machine
namespace State.MemWf

variable {s t : State}

/-! ## The host at the register window (R460 to R501) -/

theorem malformed {write} (h : s.MemWf) : (s.malformed write).MemWf :=
  .ite (ite h.disarm h).protocolError (ite h.disarm h).upd.protocolError

theorem guardRead {off} (h : s.MemWf) {f : State → State} (hf : ∀ t : State, t.MemWf → (f t).MemWf) : (s.guardRead off f).MemWf :=
  .ite h.askWake (.ite h.malformed (hf _ h))

theorem readParity {off} (h : s.MemWf) : (s.readParity off).MemWf := .ite h.parityCheck h

theorem answerRead {v} (h : s.MemWf) : (s.answerRead v).MemWf := h.upd

theorem exec_regAccessMalformed {off len write} (h : s.MemWf) : NextWf (execRegAccessMalformed off len write s) :=
  (ite h (.ite h.askWake h.malformed)).next

theorem tableRead {off} (h : s.MemWf) : (s.tableRead off).MemWf := by
  unfold State.tableRead
  refine .ite (.ite h.parityCheck.upd.answerRead (ite h.parityCheck.tenReport h.parityCheck).answerRead) (.ite ?_ ?_)
  · exact h.parityCheck.upd.answerRead
  · exact .ite h.parityCheck (ite h.parityCheck.mapReport h.parityCheck).answerRead

theorem exec_registerRead {off} (h : s.MemWf) : NextWf (execRegisterRead off s) :=
  (ite h.malformed (.ite h (h.guardRead (fun _ ht => .ite ht.tableRead ht.readParity.answerRead)))).next

theorem exec_rcRead {off delivered} (h : s.MemWf) : NextWf (execRcRead off delivered s) := by
  unfold execRcRead
  refine next (.ite h.malformed (.ite ?_ ?_))
  · exact h
  · exact h.guardRead (fun _ ht => .ite ht.readParity (.ite ht.readParity.answerRead ht.readParity.setReg.answerRead))

theorem exec_balanceCapture (h : s.MemWf) : NextWf (execBalanceCapture s) :=
  (h.guardRead (fun _ ht0 => ht0.parityCheck.upd.answerRead)).next

theorem loseLedger (h : s.MemWf) : s.loseLedger.MemWf := h.upd

theorem losePack (h : s.MemWf) : s.losePack.MemWf := h.upd

theorem loseHeaps {d} (h : s.MemWf) : (s.loseHeaps d).MemWf := h.upd.updDist

theorem dropRoot {off} (h : s.MemWf) : (s.dropRoot off).MemWf := by
  unfold State.dropRoot
  split
  · exact h.upd
  · exact h

theorem afterWrite {off was} (h : s.MemWf) : (s.afterWrite off was).MemWf := by
  unfold State.afterWrite
  extract_lets u now changed enabled
  have hu : u.MemWf := h.dropRoot
  have henabled {t : State} (ht : t.MemWf) : (enabled t).MemWf := .ite ht.wantRound ht
  refine .ite hu.topSweep (.ite (henabled (.ite hu.loseLedger hu)) (.ite (henabled (.ite hu.losePack hu)) ?_))
  refine .ite hu.upd (.ite hu.shootTick ?_)
  split
  · exact .ite hu (.ite hu.loseParks (.ite hu.loseHeaps hu))
  · exact hu

theorem plainWrite {off v} (h : s.MemWf) : (s.plainWrite off v).MemWf := .ite h h.hostSet.afterWrite

theorem exec_registerWrite {off v} (h : s.MemWf) : NextWf (execRegisterWrite off v s) :=
  (ite h.malformed (.ite h (h.guardWrite (fun _ ht => ht.plainWrite)))).next

theorem pgCtl {pg v} (h : s.MemWf) : (s.pgCtl pg v).MemWf := by
  unfold State.pgCtl
  extract_lets on
  refine .ite h ?_
  split
  · exact h
  · extract_lets t
    have ht : t.MemWf := .ite (.ite h.wr.crcCheck h.wr) h
    exact .ite ht.setReg.crcCheck ht
  · exact (ite h.wr h).parityWrite

theorem exec_pgCtlWrite {pg v} (h : s.MemWf) : NextWf (execPgCtlWrite pg v s) := (h.guardWrite (fun _ ht => ht.pgCtl)).next

theorem exec_crcLoad {d} (h : s.MemWf) : NextWf (execCrcLoad d s) := (h.guardWrite (fun _ ht => ht.pgCtl)).next

theorem exec_pgLockWrite {pg v} (h : s.MemWf) : NextWf (execPgLockWrite pg v s) := by
  unfold execPgLockWrite
  refine next (h.guardWrite fun _ ht => ?_)
  split
  · exact ht
  · exact .ite ht.lockDiscard (.ite ht.upd.setReg ht.upd.setReg.parityWrite)

theorem captureUnit {u} (h : s.MemWf) : (s.captureUnit u).MemWf := h.upd

theorem capturePage {pg} (h : s.MemWf) : (s.capturePage pg).MemWf := (ite h h.captureUnit).wr

theorem exec_pgSnap {pg} (h : s.MemWf) : NextWf (execPgSnap pg s) := (h.guardWrite (fun _ ht => .ite ht.capturePage ht)).next

theorem exec_ctrSnap (h : s.MemWf) : NextWf (execCtrSnap s) := by
  unfold execCtrSnap
  refine next (h.guardWrite fun _ ht => ?_)
  refine .ite ht.parityCheck ?_
  extract_lets u
  have hu : u.MemWf := ht.foldl fun _ _ ht' => ht'.capturePage
  exact hu.wr.status

theorem exec_counterWrite {hi v} (h : s.MemWf) : NextWf (execCounterWrite hi v s) := by
  unfold execCounterWrite
  dsimp only
  refine next (h.guardWrite fun _ ht0 => ?_)
  split
  · exact ht0.parityCheck
  · exact ht0.parityCheck.upd

theorem exec_injectArm {pg v} (h : s.MemWf) : NextWf (execInjectArm pg v s) := by
  unfold execInjectArm
  refine next (h.guardWrite fun _ ht => ?_)
  split
  · exact ht
  · exact (ite ht ht.parityWrite).setReg

theorem exec_mapDataWrite {n v} (h : s.MemWf) : NextWf (execMapDataWrite n v s) := by
  unfold execMapDataWrite
  refine next (h.guardWrite fun _ ht0 => ?_)
  refine .ite ht0.parityCheck (.ite ht0.parityCheck ?_)
  extract_lets arm u
  have hu : u.MemWf := .ite ht0.parityCheck.disarm ht0.parityCheck
  exact hu.upd.bumpEpoch

theorem exec_mapHash {v} (h : s.MemWf) : NextWf (execMapHash v s) := (h.guardWrite (fun _ ht => ht.hostSet.answerRead)).next

theorem exec_tenDataWrite {n v} (h : s.MemWf) : NextWf (execTenDataWrite n v s) := by
  unfold execTenDataWrite
  refine next (h.guardWrite fun _ ht0 => ?_)
  refine .ite ht0.parityCheck ?_
  extract_lets arm u
  have hu : u.MemWf := .ite ht0.parityCheck.disarm ht0.parityCheck
  exact hu.upd

theorem exec_tallyWindowRead {n} (h : s.MemWf) : NextWf (execTallyWindowRead n s) := by
  unfold execTallyWindowRead
  dsimp only
  refine next (h.guardRead fun _ ht0 => ?_)
  split
  · next he => exact (ht0.parityCheck.tallyWordRead.of_fst he).answerRead
  · next he => exact (ht0.parityCheck.tallyWordRead.of_fst he).answerRead

/-! ## Supply, heat, watch rings and rungs (R399 to R413, R505) -/

theorem vackStuck (h : s.MemWf) : s.vackStuck.MemWf := h.upd.report

theorem voltRequest (h : s.MemWf) : s.voltRequest.MemWf := .ite h.upd.count.wr.wr.disarm.vackStuck h.upd.count.wr.wr

theorem exec_voltageRequest (h : s.MemWf) : NextWf (execVoltageRequest s) := (ite h.checkPages h.checkPages.voltRequest).next

theorem dimAck (h : s.MemWf) : s.dimAck.MemWf := .ite h.dimStep (.ite h.wr h)

theorem exec_voltageAck (h : s.MemWf) : NextWf (execVoltageAck s) := (ite h.upd.wr.wr.dimAck h).next

theorem exec_voltageAckFall (h : s.MemWf) : NextWf (execVoltageAckFall s) := (ite h.upd h).next

theorem exec_vackRingExpiry (h : s.MemWf) : NextWf (execVackRingExpiry s) := (ite h.vackStuck h).next

theorem armReading {d r} (h : s.MemWf) : (s.armReading d r).1.MemWf := by
  unfold State.armReading
  extract_lets trip high sens s1 s2
  have hs2 : s2.MemWf := .ite (ite h.disarm h).disarm (.ite h.disarm h)
  exact (ite hs2.disarm hs2).pair

theorem thermSummary (h : s.MemWf) : s.thermSummary.MemWf := .ite h.wr.wr h.wr.wr.upd

theorem sensorFault {d} (h : s.MemWf) : (s.sensorFault d).MemWf := .ite h h.status.report.updDist

theorem warmHigh {d r} (h : s.MemWf) : (s.warmHigh d r).MemWf := by
  unfold State.warmHigh
  extract_lets x warm high s1 s2
  have hs2 : s2.MemWf := .ite h.updDist.status.report.heatClose h.updDist
  exact .ite hs2.setReason hs2

theorem tripped {d r} (h : s.MemWf) : (s.tripped d r).MemWf := .ite h.updDist.status.report.count h.updDist

theorem reading {d r} (h : s.MemWf) : (s.reading d r).MemWf := by
  unfold State.reading
  split
  next t v sens he =>
  have ht := h.armReading.of_fst he
  have hu : ((((t.wr (Fld.dstTempTemp d) v).thermSummary).warmHigh d v).tripped d v).MemWf := ht.wr.thermSummary.warmHigh.tripped
  exact .ite hu.sensorFault hu.updDist

theorem exec_sensorReading {d r} (h : s.MemWf) : NextWf (execSensorReading d r s) := (ite h.checkPages h.checkPages.reading).next

theorem exec_sensorRingExpiry {d} (h : s.MemWf) : NextWf (execSensorRingExpiry d s) := (ite h h.sensorFault.report).next

theorem laneStall {d x} (h : s.MemWf) : (s.laneStall d x).MemWf := by
  unfold State.laneStall
  split
  · exact h
  · exact h.unlink

theorem stepRing {d} (h : s.MemWf) : (s.stepRing d).MemWf := .ite h.report h.stepExpiry

theorem exec_stepRingExpiry {d lane} (h : s.MemWf) : NextWf (execStepRingExpiry d lane s) := by
  unfold execStepRingExpiry
  refine next (.ite h ?_)
  split
  · exact .ite h.stepRing h
  · exact .ite h.stepRing.laneStall h

theorem exec_coreRingExpiry {d} (h : s.MemWf) : NextWf (execCoreRingExpiry d s) := (ite h.coreExpiry h).next

theorem exec_tileRingExpiry {d t} (h : s.MemWf) : NextWf (execTileRingExpiry d t s) := (ite h.failTile h).next

theorem exec_stackReqRingExpiry {p} (h : s.MemWf) : NextWf (execStackReqRingExpiry p s) := (ite h.stackExpiry h).next

theorem exec_hostRingExpiry (h : s.MemWf) : NextWf (execHostRingExpiry s) := (ite h.report.wantWarm h).next

theorem setLink {v} (h : s.MemWf) : (s.setLink v).MemWf := .ite h h.wr.status

theorem linksFollow {r} (h : s.MemWf) : (s.linksFollow r).MemWf := by
  unfold State.linksFollow
  extract_lets live v t
  have ht : t.MemWf := .ite h (.ite h.setLink h)
  exact .ite ht.upd ht

theorem nowRung {r} (h : s.MemWf) : (s.nowRung r).MemWf := by
  unfold State.nowRung
  extract_lets t _ u
  have ht : t.MemWf := h.wr.wr.count
  have hu : u.MemWf := ht.upd.status.twinSend
  exact (ite hu.status hu).linksFollow

theorem resetBits {off m} (h : s.MemWf) : (s.resetBits off m).MemWf := h.setReg

theorem resetStatus {pg} (h : s.MemWf) : (s.resetStatus pg).MemWf := by
  unfold State.resetStatus
  split
  · exact h
  · exact h.foldl fun _ _ ht => ht.resetBits

theorem wakeLoss (h : s.MemWf) : s.wakeLoss.MemWf := h.upd.foldl fun _ _ ht => ht.resetStatus

theorem wakeTo {r} (h : s.MemWf) : (s.wakeTo r).MemWf := .ite h (.ite h.upd (ite h.wakeLoss h).nowRung)

theorem exec_blkRungWrite {v} (h : s.MemWf) : NextWf (execBlkRungWrite v s) :=
  next (h.guardWrite fun _ ht =>
    .ite ht (.ite ht.hostSet.checkPages (.ite ht.hostSet.wakeTo (.ite ht.hostSet.wr ht.hostSet.wr))))

theorem enterRung {r} (h : s.MemWf) : (s.enterRung r).MemWf := by
  unfold State.enterRung
  refine .ite ?_ h.nowRung
  extract_lets t
  have ht : t.MemWf := h.foldl fun _ _ ht => ht.cleanPort
  exact ht.upd.nowRung

theorem exec_blockRungEntry (h : s.MemWf) : NextWf (execBlockRungEntry s) := by
  unfold execBlockRungEntry
  refine next (.ite ?_ ?_)
  · exact h.checkPages
  · exact .ite h.checkPages.wakeTo (.ite h.checkPages.wr (.ite h.checkPages h.checkPages.enterRung))

theorem exec_blockWake {w} (h : s.MemWf) : NextWf (execBlockWake w s) := (ite h.checkPages h.checkPages.upd.wr.wakeTo).next

theorem exec_pokMainRise (h : s.MemWf) : NextWf (execPokMainRise s) := (ite h.upd.wakeTo h.upd).next

theorem exec_hostLinkL1Entry (h : s.MemWf) : NextWf (execHostLinkL1Entry s) := (ite h.setLink h).next

theorem exec_linkStateExit {twin} (h : s.MemWf) : NextWf (execLinkStateExit twin s) :=
  (ite (.ite h.upd h) (.ite h.setLink h)).next

theorem dropCaches {d} (h : s.MemWf) : (s.dropCaches d).MemWf := h.updDist

theorem dozeLoss {d} (h : s.MemWf) : (s.dozeLoss d).MemWf := h.zeroUnit.updDist.resetStatus

theorem leaveRung {d c} (h : s.MemWf) : (s.leaveRung d c).MemWf := .ite h.dropCaches.dozeLoss (.ite h.dropCaches h)

theorem exec_dstRungWrite {d v} (h : s.MemWf) : NextWf (execDstRungWrite d v s) :=
  (h.guardWrite (fun _ ht => (ite ht.hostSet.leaveRung.wr ht.hostSet).setReason)).next

theorem exec_districtRungEntry {d} (h : s.MemWf) : NextWf (execDistrictRungEntry d s) :=
  (ite h (.ite (.ite (ite h.dropCaches h).wr h) (.ite h.wr h))).next

theorem exec_districtQuietWake {d} (h : s.MemWf) : NextWf (execDistrictQuietWake d s) := (ite h.wakeDist h).next

end State.MemWf
end Sys2Proof.Machine
end

section
/-! PROOFS. The canonical form of both memories is kept (log 2): the twin and resets. -/

namespace Sys2Proof.Machine
namespace State.MemWf

variable {s t : State}

/-! ## The twin (R414 to R438) -/

theorem readOwner (h : s.MemWf) : s.readOwner.1.MemWf := by
  conv in State.readOwner => delta State.readOwner
  split
  · next he => exact (h.readVa.of_fst he).pair
  · next he => exact (h.readVa.of_fst he).pair

theorem swapOwner {new} (h : s.MemWf) (he : s.swapOwner new = some t) : t.MemWf := by
  conv at he in State.swapOwner => delta State.swapOwner
  split at he
  · cases he
  · next hwrite =>
    cases he
    exact (h.writeVa.of_fst hwrite).upd

theorem restamp {b} (h : s.MemWf) : (s.restamp b).MemWf := by
  unfold State.restamp
  split
  · exact h
  · refine .ite h ?_
    split
    · next he => exact .ite h.updBatch (h.stampBatch.of_fst he)
    · next he => exact (h.stampBatch.of_fst he).xlateFault

theorem sealPassed {b} (h : s.MemWf) : (s.sealPassed b).1.MemWf := by
  conv in State.sealPassed => delta State.sealPassed
  split
  · next he => exact (h.readVa.of_fst he).pair
  · next he => exact (h.readVa.of_fst he).pair

theorem dropHeld {x free} (h : s.MemWf) : (s.dropHeld x free).MemWf := .ite h.clearBatch.upd h.clearBatch

theorem replayEntry {b} (h : s.MemWf) : (s.replayEntry b).MemWf := by
  conv in State.replayEntry => delta State.replayEntry
  split
  · next he =>
    have ht := h.sealPassed.of_fst he
    split
    · exact .ite ht.dropHeld ht.retire
    · exact ht
  · next he => exact (h.sealPassed.of_fst he).restamp.wantRound
  · next he => exact (h.sealPassed.of_fst he).restamp.wantRound

theorem adopt {m copy} (h : s.MemWf) : (s.adopt m copy).MemWf := .ite h.updBatch h.upd.replayEntry

theorem replayOwn {x} (h : s.MemWf) : (s.replayOwn x).MemWf := h.updTally.replayEntry

theorem setTwnState {v} (h : s.MemWf) : (s.setTwnState v).MemWf := h.wr

theorem dropCopies (h : s.MemWf) : s.dropCopies.MemWf := by
  unfold State.dropCopies
  refine .ite h ?_
  extract_lets t
  have ht : t.MemWf := h.foldl fun _ _ hu => hu.dropHeld
  exact ht.upd

theorem askFence (h : s.MemWf) : s.askFence.MemWf := .ite h h.upd

theorem linkReset {failed} (h : s.MemWf) : (s.linkReset failed).MemWf := by
  unfold State.linkReset
  extract_lets up _ t u v
  have ht : t.MemWf := h.upd.twnEvent.count
  have hu : u.MemWf := ht.setReg.dropCopies
  have hv : v.MemWf := .ite hu hu.setTwnState.wr.askFence
  exact hv.twinSend

theorem silence (h : s.MemWf) : s.silence.MemWf := h.report.twnEvent.upd.setTwnState.askFence

theorem twinRecv {hd} (h : s.MemWf) {f : State → State} (hf : ∀ (t : State), t.MemWf → (f t).MemWf) :
    (s.twinRecv hd f).MemWf := by
  unfold State.twinRecv
  extract_lets s1 _ s2 s3
  have hs1 : s1.MemWf := h.count
  refine .ite h (.ite hs1.report.linkReset ?_)
  have hs2 : s2.MemWf := hs1.upd
  have hs3 : s3.MemWf := .ite hs2.disarm.silence hs2
  exact hf _ (.ite hs3 hs3.askWake)

theorem sendEntry {x} (h : s.MemWf) : (s.sendEntry x).MemWf := h.twinSend

theorem sendLive (h : s.MemWf) : s.sendLive.MemWf := h.foldl fun _ _ ht => ht.sendEntry

theorem sendQrecs (h : s.MemWf) : s.sendQrecs.MemWf := h.foldl fun _ _ ht => .ite ht ht.twinSend

theorem pairNow (h : s.MemWf) : s.pairNow.MemWf := by
  unfold State.pairNow
  extract_lets t
  have ht : t.MemWf := h.setTwnState.wr.twnEvent
  exact .ite ht.upd.sendQrecs.sendLive.twinSend ht.upd.sendQrecs.sendLive

theorem settleRight (h : s.MemWf) : s.settleRight.MemWf := by
  unfold State.settleRight
  split
  · exact .ite h.pairNow h.setTwnState
  · exact h.setTwnState

theorem modeWrite {v} (h : s.MemWf) : (s.modeWrite v).MemWf := by
  unfold State.modeWrite
  refine .ite h.hostSet ?_
  extract_lets u
  have hu : u.MemWf := h.hostSet.foldl fun _ _ hw => hw.dropHeld
  refine .ite ?_ ?_
  · exact hu.upd.wr.wr.setTwnState.wr.wr
  · exact .ite hu.upd.wr.wr.setTwnState.wr hu.upd.wr.wr.setTwnState.twinSend

theorem identified {id} (h : s.MemWf) : (s.identified id).MemWf := by
  unfold State.identified
  refine .ite h.upd.setReg (.ite (.ite h.upd.setReg.wr h.upd.setReg.wr.setTwnState) (.ite ?_ ?_))
  · exact h.upd.setReg.wr.pairNow
  · exact .ite h.upd.setReg.wr (ite h.upd.setReg.wr h.upd.setReg.wr.setTwnState).askFence

theorem exec_twinIdent {hd id} (h : s.MemWf) : NextWf (execTwinIdent hd id s) := (h.twinRecv (fun _ ht => ht.identified)).next

theorem exec_twinBeacon {hd} (h : s.MemWf) : NextWf (execTwinBeacon hd s) := (h.twinRecv (fun _ ht => ht)).next

theorem exec_beaconRingExpiry (h : s.MemWf) : NextWf (execBeaconRingExpiry s) := (ite h.checkPages.twinSend h.checkPages).next

theorem lend {w} (h : s.MemWf) : (s.lend w).MemWf := by
  unfold State.lend
  extract_lets _ s1 t u
  have ht : t.MemWf := h.upd.wr.twnEvent
  have hu : u.MemWf := ht.foldl fun _ _ hv => hv.clearBatch
  exact hu.upd

theorem takeBack (h : s.MemWf) : s.takeBack.MemWf := h.foldl fun _ _ ht => ht.replayOwn

theorem claim (h : s.MemWf) : s.claim.MemWf := by
  conv in State.claim => delta State.claim
  split
  · next he => exact (h.readOwner.of_fst he).wr.askFence
  · next he =>
    have ht := h.readOwner.of_fst he
    refine .ite ?_ ht.lend
    split
    · exact ht.wr.askFence
    · next he1 => exact (ht.swapOwner he1).wr.wr.wr.twnEvent.takeBack.settleRight

theorem fenceNow (h : s.MemWf) : s.fenceNow.MemWf := .ite h (.ite (.ite h h.wr.twnEvent) (ite h h.wr.twnEvent).upd.claim)

theorem exec_fence (h : s.MemWf) : NextWf (execFence s) := by
  unfold execFence
  refine next (.ite h.checkPages (.ite ?_ ?_))
  · exact h.checkPages.fenceNow
  · exact .ite h.checkPages.askFence.fenceNow (.ite h.checkPages.silence.fenceNow h.checkPages)

theorem holdAll (h : s.MemWf) : s.holdAll.MemWf := h.foldl fun _ _ ht => ht.adopt

theorem takeover (h : s.MemWf) : s.takeover.MemWf := by
  conv in State.takeover => delta State.takeover
  split
  · next he => exact (h.readOwner.of_fst he).wr
  · next he =>
    have ht := h.readOwner.of_fst he
    refine .ite ht.upd ?_
    split
    · exact ht.wr
    · next he1 => exact (ht.swapOwner he1).wr.twnEvent.holdAll

theorem takeNow (h : s.MemWf) : s.takeNow.MemWf := .ite h h.takeover

theorem exec_takeover (h : s.MemWf) : NextWf (execTakeover s) :=
  (ite h.checkPages.takeNow (h.guardWrite (fun _ ht => ht.takeNow))).next

theorem exec_twnModeWrite {v} (h : s.MemWf) : NextWf (execTwnModeWrite v s) :=
  (h.guardWrite (fun _ ht => .ite ht.modeWrite.takeNow ht.modeWrite)).next

theorem sideReturn (h : s.MemWf) : s.sideReturn.MemWf := by
  obtain ⟨swap, hswap⟩ : ∃ f, State.swapOwner = f := ⟨_, rfl⟩
  conv in State.sideReturn => delta State.sideReturn
  rw [hswap]
  split
  · next he => exact (h.readOwner.of_fst he).wr
  · next he =>
    have ht := h.readOwner.of_fst he
    split
    · exact ht.wr
    · next he1 => exact (ht.swapOwner (hswap ▸ he1)).wr.twinSend

theorem exec_sideReturn (h : s.MemWf) : NextWf (execSideReturn s) := (ite h.sideReturn h).next

theorem returned {side word} (h : s.MemWf) : (s.returned side word).MemWf := by
  unfold State.returned
  refine .ite h ?_
  extract_lets _ t u v
  have ht : t.MemWf := h.upd.wr.wr
  have hv : v.MemWf := ht.twnEvent.foldl fun _ _ hw => .ite hw.loadSeq hw
  exact hv.upd.twinSend.settleRight

theorem exec_twinReturn {hd side word} (h : s.MemWf) : NextWf (execTwinReturn hd side word s) :=
  (h.twinRecv (fun _ ht => ht.returned)).next

theorem handLost {b} (h : s.MemWf) : (s.handLost b).MemWf := h.upd.fixStatus

theorem exec_handoff {b} (h : s.MemWf) : NextWf (execHandoff b s) := by
  unfold execHandoff
  refine next (.ite h ?_)
  split
  · exact h
  · exact .ite h.handLost (.ite h h.upd.updBatch.twinSend)

theorem exec_twinHandoff {hd idx} (h : s.MemWf) : NextWf (execTwinHandoff hd idx s) := by
  unfold execTwinHandoff
  refine next (h.twinRecv fun _ ht => ?_)
  split
  · exact ht
  · exact .ite ht.adopt.twinSend ht

theorem exec_twinSealed {hd q seq} (h : s.MemWf) : NextWf (execTwinSealed hd q seq s) := by
  unfold execTwinSealed
  refine next (h.twinRecv fun _ ht => ?_)
  split
  · exact ht
  · exact ht.retire

theorem exec_twinQrec {hd r} (h : s.MemWf) : NextWf (execTwinQrec hd r s) := (h.twinRecv (fun _ ht => ht.upd.twinSend)).next

theorem mismatch {idx} (h : s.MemWf) : (s.mismatch idx).MemWf := h.report.upd.twinSend

theorem mirrorEntry {idx bytes} (h : s.MemWf) : (s.mirrorEntry idx bytes).MemWf := by
  unfold State.mirrorEntry
  refine .ite h.disarm.mismatch ?_
  split
  · exact .ite h.twinSend h.mismatch
  · exact h.upd.count.twinSend

theorem exec_twinEntry {hd idx bytes} (h : s.MemWf) : NextWf (execTwinEntry hd idx bytes s) :=
  (h.twinRecv (fun _ ht => .ite ht ht.mirrorEntry)).next

theorem cancelCopy {idx st} (h : s.MemWf) : (s.cancelCopy idx st).MemWf := by
  unfold State.cancelCopy
  split
  · exact h
  · exact .ite h.cancelBatch h

theorem exec_twinState {hd idx st} (h : s.MemWf) : NextWf (execTwinState hd idx st s) :=
  (h.twinRecv (fun _ ht => ht.upd.cancelCopy)).next

theorem exec_twinRetire {hd idx} (h : s.MemWf) : NextWf (execTwinRetire hd idx s) := (h.twinRecv (fun _ ht => ht.upd)).next

theorem exec_twinRung {hd rung} (h : s.MemWf) : NextWf (execTwinRung hd rung s) := (h.twinRecv (fun _ ht => ht.upd)).next

theorem exec_twinReset {hd} (h : s.MemWf) : NextWf (execTwinReset hd s) := (h.twinRecv (fun _ ht => ht.upd)).next

theorem exec_twinResync {hd} (h : s.MemWf) : NextWf (execTwinResync hd s) := (h.twinRecv (fun _ ht => .ite ht.sendLive ht)).next

theorem entryAcked {idx} (h : s.MemWf) : (s.entryAcked idx).MemWf := h.upd

theorem exec_twinAck {hd k} (h : s.MemWf) : NextWf (execTwinAck hd k s) := by
  unfold execTwinAck
  refine next (h.twinRecv fun _ ht => ?_)
  split
  · exact ht.entryAcked
  all_goals exact ht

/-! ## Resets, start-up and test ports (R440 to R459) -/

theorem rstCmd {scope idx} (h : s.MemWf) {f : State → State} (hf : ∀ t : State, t.MemWf → (f t).MemWf) :
    (s.rstCmd scope idx f).MemWf :=
  h.guardWrite (fun _ ht => .ite ht.parityCheck (.ite ht.wr (hf _ ht.hostSet.upd.wr)))

theorem rstDone {scope idx} (h : s.MemWf) : (s.rstDone scope idx).MemWf := .ite h.upd.wr.status h

theorem distResetAsked {d} (h : s.MemWf) : (s.distResetAsked d).MemWf :=
  .ite h (.ite h.upd.setReason.updDist (.ite h h.faultClose))

theorem dropMapShare {d} (h : s.MemWf) : (s.dropMapShare d).MemWf := h.upd

theorem resetPage {pg} (h : s.MemWf) : (s.resetPage pg).MemWf := h.resetStatus.setReg

theorem abandonStores {d} (h : s.MemWf) : (s.abandonStores d).MemWf := h.upd.shootTick

theorem distResetEnd {d pass} (h : s.MemWf) : (s.distResetEnd d pass).MemWf :=
  h.relink.dropMapShare.setDist.zeroUnit.resetPage.wr.abandonStores.rstDone

theorem exec_districtReset {d host pass} (h : s.MemWf) : NextWf (execDistrictReset d host pass s) :=
  (ite (h.rstCmd (fun _ ht => ht.distResetAsked)) (.ite h.distResetEnd h)).next

theorem readIdent {p e} (h : s.MemWf) : (s.readIdent p e).1.MemWf := .ite_fst h.disarm.pair h

theorem showIdent {p e} (h : s.MemWf) : (s.showIdent p e).MemWf := by
  unfold State.showIdent
  split
  · exact h
  · exact h.setReg.setReg.setReg

theorem judgeMismatch {p e} (h : s.MemWf) : (s.judgeMismatch p e).MemWf := by
  unfold State.judgeMismatch
  split
  · exact h
  · exact .ite h.report h

theorem identify {p e0} (h : s.MemWf) : (s.identify p e0).1.MemWf := h.readIdent.showIdent.judgeMismatch.pair

theorem markAbsent {p r} (h : s.MemWf) : (s.markAbsent p r).MemWf := h.wr.wr.status

theorem loseDirty {p} (h : s.MemWf) : (s.loseDirty p).MemWf := (h.foldl (fun _ _ ht => ht.codeReport)).updPort

theorem portPage {p} (h : s.MemWf) : (s.portPage p).MemWf := h.zeroUnit.wr.wr

theorem portResetEnd {p e} (h : s.MemWf) : (s.portResetEnd p e).MemWf := by
  unfold State.portResetEnd
  refine shootTick (State.MemWf.rstDone (State.MemWf.setReg (State.MemWf.updPort ?_)))
  refine scInvalAll (.ite (ite h.cleanPort h).portPage.identify (.ite ?_ ?_))
  · exact (ite h.cleanPort h).portPage.identify.cleanPort
  · exact (ite h.cleanPort h).portPage.identify.markAbsent.loseDirty

theorem exec_portReset {p host stack} (h : s.MemWf) : NextWf (execPortReset p host stack s) :=
  (ite (h.rstCmd (fun _ ht => ht.updPort)) (.ite h.portResetEnd h)).next

theorem trainHost {l} (h : s.MemWf) : (s.trainHost l).1.MemWf := .ite_fst h.wr.wr.setLink.pair h.wr.wr.setLink.pair

theorem reissue (h : s.MemWf) : s.reissue.MemWf := h.foldl fun _ _ ht => count ⟨Memory.wf_store _ _ _ ht.host, ht.scene⟩

theorem hostLinkEnd {l} (h : s.MemWf) : (s.hostLinkEnd l).MemWf :=
  (ite h.wr.setReg.trainHost.reissue h.wr.setReg.trainHost).rstDone.shootTick

theorem exec_hostLinkReset {host link} (h : s.MemWf) : NextWf (execHostLinkReset host link s) :=
  (ite (h.rstCmd (fun _ ht => ht.setLink)) (.ite h.hostLinkEnd h)).next

theorem exec_twinLinkReset {host} (h : s.MemWf) : NextWf (execTwinLinkReset host s) :=
  (ite (h.rstCmd (fun _ ht => ht.linkReset.rstDone)) (.ite h.linkReset h)).next

theorem cold {c straps} (h : s.MemWf) : (s.cold c straps).MemWf := wr ⟨h.host, State.reset_memory_wf.2⟩

theorem exec_coldReset {c straps} (h : s.MemWf) : NextWf (execColdReset c straps s) := (ite h (.ite h h.cold)).next

theorem exec_blkWarm (h : s.MemWf) : NextWf (execBlkWarm s) := (h.guardWrite (fun _ ht => ht.wantWarm)).next

theorem exec_fabricReset (h : s.MemWf) : NextWf (execFabricReset s) := h.wantWarm.next

theorem warmUnits (h : s.MemWf) : s.warmUnits.MemWf := h.upd

theorem exec_warmReset (h : s.MemWf) : NextWf (execWarmReset s) :=
  (ite (h.twinSend.foldl (fun _ _ ht => ht.cleanPort)).dropCopies.warmUnits.wr h).next

theorem arrayTest {env} (h : s.MemWf) : (s.arrayTest env).MemWf := (h.foldl (fun _ _ hu => hu.updDist)).wr.wr

theorem portStart {cold e p} (h : s.MemWf) : (s.portStart cold e p).MemWf := by
  unfold State.portStart
  split
  next t r he =>
  have ht : t.MemWf := h.identify.of_fst he
  have hu : (if cold then t.updPort p (fun x => { x with first := e.ident }) else t).MemWf := .ite ht.updPort ht
  exact .ite hu.wr.wr hu.markAbsent

theorem startUnits {cold env} (h : s.MemWf) : (s.startUnits cold env).MemWf :=
  (ite h.arrayTest h).foldl fun _ _ hu => hu.portStart

theorem putStack {p loc b} (h : s.MemWf) : (s.putStack p loc b).MemWf := by
  unfold State.putStack
  split
  · exact ⟨h.host, Memory.wf_setByte _ _ _ h.scene⟩
  · exact h.updPort

theorem layOut {ps c} (h : s.MemWf) : (s.layOut ps c).MemWf := by
  unfold State.layOut
  extract_lets t0 bytes t
  have ht0 : t0.MemWf := ⟨h.host, rfl⟩
  have ht : t.MemWf := ht0.foldl fun _ _ hu => hu.putStack
  exact ht.upd

theorem fixInterleave (h : s.MemWf) : s.fixInterleave.MemWf :=
  ((ite h h.layOut).foldl (fun _ _ ht => ht.scInvalAll)).dcInvalAll.ncInvalAll

theorem startTwin {trains} (h : s.MemWf) : (s.startTwin trains).MemWf :=
  .ite (.ite h.upd h.upd.setTwnState.twinSend) (.ite h h.setTwnState.wr)

theorem recover (h : s.MemWf) : s.recover.MemWf := by
  unfold State.recover
  refine .ite (h.wr.wr.wr.setTwnState.foldl (fun _ _ hv => hv.replayOwn)) ?_
  extract_lets isOwn u v
  have hv : v.MemWf := h.wr.upd.askFence.fenceNow
  exact hv.foldl fun _ _ hw => .ite hw.updBatch.replayEntry hw.dropHeld

theorem openSet (h : s.MemWf) : s.openSet.MemWf := by
  unfold State.openSet
  extract_lets t
  have ht : t.MemWf := h.foldl fun _ _ ht => .ite ht.updDist.status ht.updDist
  exact .ite ht.reroute ht.isolate.wantRound

theorem nowReady (h : s.MemWf) : s.nowReady.MemWf := h.upd.wr.wr.status.askEvent

theorem startRest {cold env} (h : s.MemWf) : (s.startRest cold env).MemWf := by
  unfold State.startRest
  refine .ite h.upd.wr ?_
  split
  · next he => exact (h.trainHost.of_fst he).upd.wr
  · next u he =>
    extract_lets u
    have hu : u.MemWf := (h.trainHost.of_fst he).fixInterleave.startTwin
    exact (ite hu hu.recover).openSet.nowReady

theorem exec_startup {env} (h : s.MemWf) : NextWf (execStartup env s) := by
  unfold execStartup
  refine next ?_
  split
  · exact h
  · exact h
  · exact h.startRest
  · exact .ite h.wr (.ite h.wr (.ite h.startUnits.wr h.startUnits.startRest))

theorem exec_hlRefclkArrival (h : s.MemWf) : NextWf (execHlRefclkArrival s) := h.upd.next

theorem exec_testPortInstruction {p code fails} (h : s.MemWf) : NextWf (execTestPortInstruction p code fails s) := by
  unfold execTestPortInstruction
  refine next ?_
  split <;> exact h.upd

theorem exec_testModeRise (h : s.MemWf) : NextWf (execTestModeRise s) := h.upd.next

end State.MemWf
end Sys2Proof.Machine
end

section
/-! PROOFS. Every command keeps the canonical form of both memories, and so does a step (log 2). -/

namespace Sys2Proof.Machine
namespace State.MemWf

variable {s t : State}

/-- The lane instructions but `EXIT` reach neither memory. -/
theorem exec_lane {i : Instr} {r c o f} (h : s.MemWf) (hcode : coreCode i = some (r, c, o, f)) (hclass : c < 5 ∨ c = 9)
    (hexit : ¬(c = 4 ∧ o = 0x18)) : NextWf (exec i s) := fun _ ht =>
  have hne (q : GRef) (e : Fields) (hi : i = .exit q e) : False := by
    subst hi
    cases hcode
    exact hexit ⟨rfl, rfl⟩
  have ⟨hhost, hscene, _⟩ := laneInstructionsKeepMemory i r c o f s _ hcode hclass hne ht
  h.of_eq hhost hscene

theorem exec (h : s.MemWf) (i : Instr) : NextWf (exec i s) := by
  cases i with
  | queTailWrite => exact h.exec_queTailWrite
  | queDepthWrite => exact h.exec_queDepthWrite
  | queRunSet => exact h.exec_queRunSet
  | queRunClear => exact h.exec_queRunClear
  | queCancel => exact h.exec_queCancel
  | queResume => exact h.exec_queResume
  | queEstWrite => exact h.exec_queEstWrite
  | descriptorFetch => exact h.exec_descriptorFetch
  | stamping => exact h.exec_stamping
  | pageWalkComplete => exact h.exec_pageWalkComplete
  | acceptance => exact h.exec_acceptance
  | admissionRound => exact h.exec_admissionRound
  | dealRun => exact h.exec_dealRun
  | walkerEntering => exact h.exec_walkerEntering
  | walkerArrival => exact h.exec_walkerArrival
  | walkerReload => exact h.exec_walkerReload
  | nodeStep => exact h.exec_nodeStep
  | triangleTest => exact h.exec_triangleTest
  | loadDecision => exact h.exec_loadDecision
  | plotLoadComplete => exact h.exec_plotLoadComplete
  | copyDrainEnd => exact h.exec_copyDrainEnd
  | mapLookup => exact h.exec_mapLookup
  | mapLookupReply => exact h.exec_mapLookupReply
  | doneNotice => exact h.exec_doneNotice
  | resultWrite => exact h.exec_resultWrite
  | packWrite => exact h.exec_packWrite
  | runFlush => exact h.exec_runFlush
  | contribution => exact h.exec_contribution
  | candidateMessage => exact h.exec_candidateMessage
  | tauReply => exact h.exec_tauReply
  | endNotice => exact h.exec_endNotice
  | probeJob => exact h.exec_probeJob
  | refitRepair => exact h.exec_refitRepair
  | maintOperation => exact h.exec_maintOperation
  | completionWrite => exact h.exec_completionWrite
  | sealCas => exact h.exec_sealCas
  | wakeMessage => exact h.exec_wakeMessage
  | eventInterrupt => exact h.exec_eventInterrupt
  | faultRecordWrite => exact h.exec_faultRecordWrite
  | fringHeadWrite => exact h.exec_fringHeadWrite
  | hostWriteAck => exact h.exec_hostWriteAck
  | hostReadData => exact h.exec_hostReadData
  | apertureRead => exact h.exec_apertureRead
  | apertureWrite => exact h.exec_apertureWrite
  | regAccessMalformed => exact h.exec_regAccessMalformed
  | registerWrite => exact h.exec_registerWrite
  | rcRead => exact h.exec_rcRead
  | pgCtlWrite => exact h.exec_pgCtlWrite
  | crcLoad => exact h.exec_crcLoad
  | pgLockWrite => exact h.exec_pgLockWrite
  | pgSnap => exact h.exec_pgSnap
  | ctrSnap => exact h.exec_ctrSnap
  | counterWrite => exact h.exec_counterWrite
  | injectArm => exact h.exec_injectArm
  | balanceCapture => exact h.exec_balanceCapture
  | grantAdd => exact h.exec_grantAdd
  | grantSet => exact h.exec_grantSet
  | mapDataWrite => exact h.exec_mapDataWrite
  | mapHash => exact h.exec_mapHash
  | tenDataWrite => exact h.exec_tenDataWrite
  | tallyWindowRead => exact h.exec_tallyWindowRead
  | dstClose => exact h.exec_dstClose
  | dstOpen => exact h.exec_dstOpen
  | dstReopen => exact h.exec_dstReopen
  | dstSideBaseWrite => exact h.exec_dstSideBaseWrite
  | orderlyClosure => exact h.exec_orderlyClosure
  | faultClosure => exact h.exec_faultClosure
  | censusMarker => exact h.exec_censusMarker
  | censusReplay => exact h.exec_censusReplay
  | avenueMessageReceive => exact h.exec_avenueMessageReceive
  | avenueReplay => exact h.exec_avenueReplay
  | meterReport => exact h.exec_meterReport
  | voltageRequest => exact h.exec_voltageRequest
  | voltageAck => exact h.exec_voltageAck
  | sensorReading => exact h.exec_sensorReading
  | stepRingExpiry => exact h.exec_stepRingExpiry
  | coreRingExpiry => exact h.exec_coreRingExpiry
  | tileRingExpiry => exact h.exec_tileRingExpiry
  | stackReqRingExpiry => exact h.exec_stackReqRingExpiry
  | hostRingExpiry => exact h.exec_hostRingExpiry
  | vackRingExpiry => exact h.exec_vackRingExpiry
  | sensorRingExpiry => exact h.exec_sensorRingExpiry
  | stackFill => exact h.exec_stackFill
  | evictionWrite => exact h.exec_evictionWrite
  | prefetch => exact h.exec_prefetch
  | scrubRead => exact h.exec_scrubRead
  | stackRefresh => exact h.exec_stackRefresh
  | mopInval => exact h.exec_mopInval
  | mopClean => exact h.exec_mopClean
  | mopCleanInval => exact h.exec_mopCleanInval
  | mopZero => exact h.exec_mopZero
  | mopComplete => exact h.exec_mopComplete
  | scInv => exact h.exec_scInv
  | dcInv => exact h.exec_dcInv
  | ncInv => exact h.exec_ncInv
  | cacheEnable => exact h.exec_cacheEnable
  | cacheDisable => exact h.exec_cacheDisable
  | shootdownGo => exact h.exec_shootdownGo
  | groupLaunch => exact h.exec_groupLaunch
  | splitChange => exact h.exec_splitChange
  | preemption => exact h.exec_preemption
  | groupPark => exact h.exec_groupPark
  | groupRestore => exact h.exec_groupRestore
  | trapReplay => exact h.exec_trapReplay
  | trapKill => exact h.exec_trapKill
  | mtxComplete => exact h.exec_mtxComplete
  | fillComplete => exact h.exec_fillComplete
  | sendDelivery => exact h.exec_sendDelivery
  | sendStatus => exact h.exec_sendStatus
  | exit => exact h.exec_exit
  | instructionFetch => exact h.exec_instructionFetch
  | ldL => exact h.exec_ldL
  | stL => exact h.exec_stL
  | ldS => exact h.exec_ldS
  | fillL => exact h.exec_fillL
  | ldH => exact h.exec_ldH
  | stH => exact h.exec_stH
  | mma => exact h.exec_mma
  | msmax => exact h.exec_msmax
  | mred => exact h.exec_mred
  | send => exact h.exec_send
  | recv => exact h.exec_recv
  | slotLock => exact h.exec_slotLock
  | slotLd => exact h.exec_slotLd
  | slotSt => exact h.exec_slotSt
  | slotUnlock => exact h.exec_slotUnlock
  | blkRungWrite => exact h.exec_blkRungWrite
  | blockRungEntry => exact h.exec_blockRungEntry
  | blockWake => exact h.exec_blockWake
  | dstRungWrite => exact h.exec_dstRungWrite
  | districtRungEntry => exact h.exec_districtRungEntry
  | districtQuietWake => exact h.exec_districtQuietWake
  | coldReset => exact h.exec_coldReset
  | blkWarm => exact h.exec_blkWarm
  | fabricReset => exact h.exec_fabricReset
  | warmReset => exact h.exec_warmReset
  | startup => exact h.exec_startup
  | districtReset => exact h.exec_districtReset
  | portReset => exact h.exec_portReset
  | hostLinkReset => exact h.exec_hostLinkReset
  | twinLinkReset => exact h.exec_twinLinkReset
  | pokMainRise => exact h.exec_pokMainRise
  | twnModeWrite => exact h.exec_twnModeWrite
  | takeover => exact h.exec_takeover
  | fence => exact h.exec_fence
  | beaconRingExpiry => exact h.exec_beaconRingExpiry
  | handoff => exact h.exec_handoff
  | sideReturn => exact h.exec_sideReturn
  | twinIdent => exact h.exec_twinIdent
  | twinBeacon => exact h.exec_twinBeacon
  | twinQrec => exact h.exec_twinQrec
  | twinEntry => exact h.exec_twinEntry
  | twinState => exact h.exec_twinState
  | twinRetire => exact h.exec_twinRetire
  | twinHandoff => exact h.exec_twinHandoff
  | twinSealed => exact h.exec_twinSealed
  | twinRung => exact h.exec_twinRung
  | twinReset => exact h.exec_twinReset
  | twinResync => exact h.exec_twinResync
  | twinReturn => exact h.exec_twinReturn
  | twinAck => exact h.exec_twinAck
  | voltageAckFall => exact h.exec_voltageAckFall
  | hlRefclkArrival => exact h.exec_hlRefclkArrival
  | testPortInstruction => exact h.exec_testPortInstruction
  | testModeRise => exact h.exec_testModeRise
  | hostLinkL1Entry => exact h.exec_hostLinkL1Entry
  | linkStateExit => exact h.exec_linkStateExit
  | registerRead => exact h.exec_registerRead
  | iadd | isub | imul | imulhi | and | or | xor | shl | shr | sar | imin | imax | umin | umax | imad | popc | clz | mov | sel | udiv
    | urem | fadd | fsub | fmul | ffma | fmin | fmax | fabs | fneg | frcp | frsq | fsqrt | fdiv | ffloor | fceil | fexp2 | flog2 | f2i
    | i2f | f2bf | f2h | bf2f | h2f | f2d | d2f | pk8 | pku8 | pk4 | pku4 | pkf4 | up8 | upu8 | up4 | upu4 | upf4 | icmp | ucmp | fcmp
    | pand | por | pxor | pnot | bra | braAny | braNone | braEmpty | call | callr | ret | push | elseM | brk | reconv | pop | barAll |
    barActive | wait | trap | nop | tid | amask | v2u | u2v | shfl | vote =>
    exact h.exec_lane rfl (by decide) (by decide)

end State.MemWf

/-- Settles O60: a step runs the command at the front of the queue, and every command keeps the form. -/
theorem stepKeepsMemory : Obligations.StepKeepsMemory := by
  intro s t hok hstep
  have h : s.MemWf := State.memoryOk_iff.mp hok
  refine State.memoryOk_iff.mpr ?_
  unfold step at hstep
  split at hstep
  · cases hstep
    exact h
  · exact h.upd.exec _ _ hstep

end Sys2Proof.Machine
end
